-- ==== Sys2Proof/Word.lean ====
section
/-! DEFINITION. The word types of the Feruk manual and the time type. Bytes, 32-bit register words and
48-bit counters are bit vectors; times are exact rationals of nanoseconds, since R41, R69, R72 and R212 ask for
exact rational arithmetic. -/

namespace Sys2Proof

/-- A byte of a payload, a window or a memory. -/
abbrev Byte := BitVec 8

/-- A 32-bit register word. -/
abbrev Word := BitVec 32

/-- The symbols in error of a protected word of 36 code symbols, each with the value that the error adds to it (R23). -/
abbrev SymErr := List (Nat × Byte)

/-- A word number with the symbols of the word in error. -/
abbrev WordErr := Nat × SymErr

/-- A 48-bit counter value (R9) or native word (R16). -/
abbrev W48 := BitVec 48

/-- A time or a span of time in nanoseconds, held exactly. -/
abbrev Time := Rat

end Sys2Proof
end

