-- ==== Sys2Proof/Syntax.lean ====
section
/-! DEFINITION. The commands of the Feruk: one constructor of `Instr` for each row of spec/opcode_table.json, in the
table's order, and the operand types they carry. A host command carries its request (mailbox, tag and payload bytes
as the command layouts give them); an event carries what the event brings from outside the block. -/

namespace Sys2Proof

/-- An accepted request of a host command: the mailbox it came through, its tag and its payload bytes (R400, R403). -/
structure Req where
  mbx     : Nat
  tag     : Word
  payload : List Byte
  deriving DecidableEq, Repr

/-- A burst that waits at a crossbar target (R413 to R415): one register word a beat from `addr` up, and the words that
a write carries. `locked` says that it belongs to a locked sequence that goes on after it. -/
structure XReq where
  master : Nat
  addr   : Nat
  write  : Bool
  values : List Word
  beats  : Nat
  locked : Bool
  deriving DecidableEq, Repr

/-- A function that a disable command stops (R29 to R36). -/
inductive Func where
  | laneRx (lane : Nat)
  | laneTx (lane : Nat)
  | sdiRx (lane : Nat)
  | sdiTx (lane : Nat)
  | port (p : Nat)
  | queue (p dir q : Nat)
  | rxFlow (f : Nat)
  | txFlow (f : Nat)
  | engine (e : Nat)
  | ingress (slot : Nat)
  | raster (slot : Nat)
  | dests (first count : Nat)
  | audioPort (kind p : Nat)
  | pulse (pin : Nat)
  | timeBase (tb : Nat)
  | service
  deriving DecidableEq, Repr

/-- The continuous auditors (R39) and the instance each evaluates. -/
inductive Auditor where
  | mac (n : Nat)
  | flow
  | fab
  | memc (pc : Nat)
  | cnv (e : Nat)
  | aud
  deriving DecidableEq, Repr

/-- The TAP instructions of R569. -/
inductive TapInstr where
  | bypass
  | idcode
  | samplePreload
  | extest
  | extestPulse
  | extestTrain
  deriving DecidableEq, Repr

/-- The body of a PTP message (R47 to R50). `announce` carries the dataset in the order in which the default
best-master-clock algorithm compares it; `requester` is the port identity whose request a response answers; the times are the
timestamp fields. -/
inductive PtpBody where
  | announce (dataset : List Nat)
  | sync (origin : Time)
  | followUp (origin : Time)
  | delayReq
  | delayResp (receipt : Time) (requester : Nat)
  | pdelayReq
  | pdelayResp (receipt : Time) (requester : Nat)
  | pdelayFollowUp (origin : Time) (requester : Nat)
  deriving DecidableEq, Repr

/-- A received PTP message (R47, R50): its header fields, its body, and the instant at which it crossed the port's reference
plane, in the time of its time base. `source` is the sender's port identity. -/
structure PtpMsg where
  domain  : Nat
  seq     : Nat
  source  : Nat
  correction : Time
  twoStep : Bool
  unicast : Bool
  body    : PtpBody
  arrival : Time
  deriving DecidableEq, Repr

/-- The PTP messages a port sends at an interval or in answer (R50, R55). -/
inductive PtpKind where
  | announce
  | sync
  | delayReq
  | delayResp
  | pdelayReq
  | pdelayResp
  deriving DecidableEq, Repr

/-- What a receiver has measured of one complete frame (R121, R122): the format whose structure it has on the lane, with the
mapping and sampling. `supported` is false for the signals of R118. -/
structure SdiMeasure where
  format    : Nat
  mapping   : Nat
  sampling  : Nat
  pid       : Option Word
  contradicts : Bool
  link      : Nat
  supported : Bool
  deriving DecidableEq, Repr

/-- A picture: planes of rows of native 16-bit components (R16, R238). -/
abbrev Planes := List (List (List Nat))

/-- An ST 291 packet with the fields of R136; `did`, `sdid`, `dc`, the user data words and the checksum are 10-bit words. -/
structure AncPacket where
  c      : Bool
  line   : Nat
  hoff   : Nat
  s      : Bool
  stream : Nat
  link   : Nat
  field  : Bool
  did    : Nat
  sdid   : Nat
  dc     : Nat
  udw    : List Nat
  checksum : Nat
  deriving DecidableEq, Repr

/-- One sample of an embedded audio packet: its channel in the group, 1 to 4, the 24-bit sample, its V, U, C and Z bits, and
whether the low four bits came in an extended data packet (R140, R141). -/
structure EmbSample where
  channel : Nat
  sample  : BitVec 24
  v       : Bool
  u       : Bool
  c       : Bool
  z       : Bool
  ext     : Bool
  deriving DecidableEq, Repr

/-- A received audio packet (R139 to R141): its data stream and DID; `ok` is false on an ECC, parity or checksum error. A control
packet gives the rate in Hz and the asynchronous mark of the group's two AES pairs, a data packet the samples. -/
structure AudioPacket where
  stream  : Nat
  did     : Nat
  ok      : Bool
  pairs   : List (Nat × Bool)
  samples : List EmbSample
  deriving DecidableEq, Repr

/-- The RTP part of a received datagram (R202): the fields of its fixed header, its header extension as profile and bytes, and the
bytes of its payload. -/
structure Rtp where
  version : Nat
  pt      : Nat
  ssrc    : Word
  seq     : Nat
  ts      : Nat
  marker  : Bool
  ext     : Option (Nat × List Byte)
  payload : List Byte
  deriving DecidableEq, Repr

/-- The IPv4 part of a received frame (R194). -/
structure Ipv4 where
  src      : Nat
  dst      : Nat
  proto    : Nat
  fragment : Bool
  headerOk : Bool
  udpOk    : Bool
  dport    : Nat
  rtp      : Option Rtp
  deriving DecidableEq, Repr

/-- A frame at an Ethernet port (R162 to R165). `len` is the untagged length, FCS included; `tag` the VID and PCP of its tag;
`pause` holds the opcode and the times of priorities 0 to 7 of a pause or PFC frame; `cellErrs` the symbols in error in the worst
word of its cells; `fecCorr` and `fecUncorr` the codewords or FEC blocks corrected and uncorrectable since the frame before it. -/
structure EthFrame where
  len       : Nat
  tag       : Option (Nat × Nat)
  etherType : Nat
  dst       : List Byte
  ip        : Option Ipv4
  ipv6Proto : Option Nat
  l4dport   : Nat
  pause     : Option (Nat × List (Option Nat))
  fcsOk     : Bool
  cellErrs  : SymErr
  fecCorr   : Nat
  fecUncorr : Nat
  bytes     : List Byte
  deriving DecidableEq, Repr

/-- A memory request at a pseudo-channel (R247): requester 0 to 65 in the order of the tag table (ingress 0-15,
egress 16-31, converter reads 32-47, converter writes 48-63, system 64, scrubber 65). -/
structure MemReq where
  requester : Nat
  write     : Bool
  word      : Nat
  row       : Nat
  poisoned  : Bool
  deriving DecidableEq, Repr

/-- A received AES3 subframe after biphase-mark decoding (R364): its preamble, 0 X, 1 Y, 2 Z, and its bits 4 to 31, the first the
least significant: the 24-bit sample, V, U, C and parity. -/
structure Subframe where
  preamble : Nat
  bits     : BitVec 28
  deriving DecidableEq, Repr

/-- The header of a received link frame (R455): its sequence number, the partner's ACK, and the symbols in error of each of its
words that arrives in error. -/
structure LinkHdr where
  seq : Nat
  ack : Nat
  errs : List SymErr
  deriving DecidableEq, Repr

/-- HELLO (R456). -/
structure HelloMsg where
  devId    : Word
  version  : Word
  unit     : Nat
  mode     : Nat
  claim    : Word
  epochMax : Nat
  cfgEpoch : Word
  rate     : Bool
  pairing  : Nat
  deriving DecidableEq, Repr

/-- HEARTBEAT (R456). -/
structure HeartbeatMsg where
  mode      : Nat
  role      : Nat
  claim     : Word
  epochMax  : Nat
  cfgEpoch  : Word
  mirrorSeq : Nat
  fit       : Bool
  refState  : Nat
  deriving DecidableEq, Repr

/-- DIGEST (R476): line digests (raster, frame, line, CRC) and lane digests (lane, block, CRC). -/
structure DigestMsg where
  lines : List (Nat × Nat × Nat × Word)
  lanes : List (Nat × Nat × Word)
  deriving DecidableEq, Repr

/-- MIRROR (R466, R441): a command record, or a part of one, with its sequence number and effective instant. `stage` is the bank that
a staged request is written into; the record's body, cut over its frames, is the command's payload of `len` bytes and the bytes
of the staging region that the command reads; `more` says that another part follows. -/
structure MirrorMsg where
  seq     : Nat
  stage   : Option Nat
  opcode  : Nat
  len     : Nat
  body    : List Byte
  instant : Time
  more    : Bool
  deriving DecidableEq, Repr

/-- What a CLAIM_ACK pin showed over the preceding 500 us (R461): its level at their start, and how often it has changed since. -/
structure PinTrace where
  start   : Bool
  changes : Nat
  deriving DecidableEq, Repr

/-- A fault source's report (R484, R491). `further` counts reports made while the wire was held; `detailLost` says
that the detail FIFO was full. -/
structure Report where
  src        : Nat
  major      : Bool
  code       : Nat
  inst       : Nat
  further    : Nat
  injected   : Bool
  coincident : Bool
  detailLost : Bool
  deriving DecidableEq, Repr

/-- One constructor for each row of spec/opcode_table.json. The lists of words in error that an event finds have the empty list as
default: no error; the measured amounts 0 (a level, a count); and the levels of the supplies none, that is 0 V. -/
inductive Instr where
  /-- `TIM_TB_CONFIG` (R47): Configures a PTP time base: its role, profile, domain, intervals, priorities, clock classes, step threshold, servo bandwidth and ports. -/
  | timTbConfig (r : Req)
  /-- `TIM_TB_ENABLE` (R48): Enables a time base as a follower or a source. -/
  | timTbEnable (r : Req)
  /-- `TIM_TB_DISABLE` (R82): Disables a time base under the disable word. -/
  | timTbDisable (r : Req)
  /-- `TIM_RESTEP` (R52): Returns a follower to ACQUIRING, leaving FAULT. -/
  | timRestep (r : Req)
  /-- `TIM_READ` (R82): Returns house time, the time of TB0-TB3 and each time base's status, latched in one TIM cycle. -/
  | timRead (r : Req)
  /-- `TIM_PORT_ASYMMETRY` (R50): Sets the signed delay asymmetry that is subtracted from a port's measured path delay. -/
  | timPortAsymmetry (r : Req)
  /-- `REF_CAND_CONFIG` (R57): Writes a reference candidate entry, restarting its hold-off when its kind, source, period or window changes. -/
  | refCandConfig (r : Req)
  /-- `REF_SELECT_MANUAL` (R65): Makes a qualified candidate active whatever its rank and sets MANUAL. -/
  | refSelectManual (r : Req)
  /-- `REF_SELECT_AUTO` (R65): Returns the selector to automatic selection. -/
  | refSelectAuto (r : Req)
  /-- `REF_LIMITS` (R70): Sets the slope, slew, disagreement, nominal, revert, initial window and glitch limits of the selector. -/
  | refLimits (r : Req)
  /-- `REF_REALIGN` (R575): Steps house time and the NCO to the named candidate and makes that candidate active. -/
  | refRealign (r : Req)
  /-- `PULSE_CONFIG` (R72): Loads a PULSE_OUT program, which takes effect at the pin's next edge. -/
  | pulseConfig (r : Req)
  /-- `PULSE_STOP` (R76): Stops a PULSE_OUT pin under the disable word. -/
  | pulseStop (r : Req)
  /-- `PLL_BAND_TABLE` (R77): Sets a synthesiser's band selection to automatic mode or to a table band. -/
  | pllBandTable (r : Req)
  /-- `PLL_RESTORE` (R79): Returns a relocked synthesiser 2-10 from bypass. -/
  | pllRestore (r : Req)
  /-- `LANE_OCT_MODE` (R86): Changes the mode of an idle octet and resets its port configuration. -/
  | laneOctMode (r : Req)
  /-- `LANE_ENABLE` (R113): Enables a lane direction at a rate, which starts receiver bring-up. -/
  | laneEnable (r : Req)
  /-- `LANE_DISABLE` (R109): Disables a lane direction under the disable word. -/
  | laneDisable (r : Req)
  /-- `LANE_TX_EQ` (R90): Sets a transmitter's FIR taps and swing from the next parallel-word boundary. -/
  | laneTxEq (r : Req)
  /-- `LANE_RX_EQ` (R93): Sets a receiver's adaptation regime, CTLE, VGA, LOS threshold and precoding. -/
  | laneRxEq (r : Req)
  /-- `LANE_ROVE` (R103): Enables or disables roving calibration of an octet and sets DWELL. -/
  | laneRove (r : Req)
  /-- `LANE_STATUS_READ` (R112): Returns a lane's status, eye, octet status and counters. -/
  | laneStatusRead (r : Req)
  /-- `LANE_TEST` (R114): Starts or stops a PRBS test pattern and checker on a lane. -/
  | laneTest (r : Req)
  /-- `LANE_RESTART` (R102): Returns a receiver to step 1 of bring-up. -/
  | laneRestart (r : Req)
  /-- `SDI_RX_CONFIG` (R154): Configures an SDI receiver's format, mapping, sampling and CRC limit. -/
  | sdiRxConfig (r : Req)
  /-- `SDI_RX_DISABLE` (R151): Disables an SDI receiver under the disable word. -/
  | sdiRxDisable (r : Req)
  /-- `SDI_MULTILINK` (R130): Creates, changes or dissolves a multi-link group of four receivers or transmitters. -/
  | sdiMultilink (r : Req)
  /-- `SDI_ANC_FILTER` (R135): Writes an entry of a receiver's ancillary filter. -/
  | sdiAncFilter (r : Req)
  /-- `SDI_AUDIO_DEEMBED` (R140): Maps or unmaps de-embedded channels to source channels. -/
  | sdiAudioDeembed (r : Req)
  /-- `SDI_TX_CONFIG` (R142): Configures an SDI transmitter's mapping, sampling and insertion flags. -/
  | sdiTxConfig (r : Req)
  /-- `SDI_TX_DISABLE` (R151): Disables an SDI transmitter under the disable word. -/
  | sdiTxDisable (r : Req)
  /-- `SDI_AUDIO_EMBED` (R147): Maps destination channels to embedded channels. -/
  | sdiAudioEmbed (r : Req)
  /-- `SDI_CS_SET` (R148): Chooses a generated or host-supplied channel-status block for an embedded AES pair. -/
  | sdiCsSet (r : Req)
  /-- `SDI_STATUS_READ` (R153): Returns the status and counters of an SDI receiver or transmitter. -/
  | sdiStatusRead (r : Req)
  /-- `MAC_PORT_CONFIG` (R181): Configures a port's FEC, flow control, address filtering, MTUs, pause time and priority map. -/
  | macPortConfig (r : Req)
  /-- `MAC_PORT_ENABLE` (R158): Enables a port, which starts link bring-up. -/
  | macPortEnable (r : Req)
  /-- `MAC_PORT_DISABLE` (R177): Disables a port and all its queues under the disable word. -/
  | macPortDisable (r : Req)
  /-- `MAC_QUEUE_CONFIG` (R169): Sets a queue's reservation, ceiling, flow-control thresholds and tag. -/
  | macQueueConfig (r : Req)
  /-- `MAC_QUEUE_DISABLE` (R177): Disables one queue under the disable word. -/
  | macQueueDisable (r : Req)
  /-- `MAC_FILTER` (R164): Writes a steering filter entry of a MAC. -/
  | macFilter (r : Req)
  /-- `MAC_TX_FRAME` (R180): Offers a host frame to transmit queue TQ0-TQ4 of a port. -/
  | macTxFrame (r : Req)
  /-- `MAC_RX_FRAME` (R176): Returns the oldest frame of a MAC's host list and removes it from the list. -/
  | macRxFrame (r : Req)
  /-- `MAC_STATUS_READ` (R180): Returns a port's status, the buffer status and the port's counters. -/
  | macStatusRead (r : Req)
  /-- `FLOW_PORT_IP` (R214): Sets a port's IPv4 address, prefix, IGMP version and pacing limit. -/
  | flowPortIp (r : Req)
  /-- `FLOW_RX_CONFIG` (R227): Configures a receive flow. -/
  | flowRxConfig (r : Req)
  /-- `FLOW_RX_PATH` (R197): Adds, changes or removes a receive path entry in the flow table. -/
  | flowRxPath (r : Req)
  /-- `FLOW_RX_ENABLE` (R221): Enables a receive flow and joins its multicast groups. -/
  | flowRxEnable (r : Req)
  /-- `FLOW_RX_DISABLE` (R222): Disables a receive flow under the disable word. -/
  | flowRxDisable (r : Req)
  /-- `FLOW_RX_DELETE` (R222): Removes a disabled flow's entries and frees its window blocks. -/
  | flowRxDelete (r : Req)
  /-- `FLOW_TX_CONFIG` (R209): Configures a send flow. -/
  | flowTxConfig (r : Req)
  /-- `FLOW_TX_PATH` (R210): Sets a send path's port and headers. -/
  | flowTxPath (r : Req)
  /-- `FLOW_TX_ENABLE` (R209): Enables a send flow, starting its sequence numbers at SEQ_INIT. -/
  | flowTxEnable (r : Req)
  /-- `FLOW_TX_DISABLE` (R222): Disables a send flow under the disable word. -/
  | flowTxDisable (r : Req)
  /-- `FLOW_REKEY` (R199): Starts a re-key of the flow table and may set STASH_TH. -/
  | flowRekey (r : Req)
  /-- `FLOW_STATUS_READ` (R226): Returns the registers and counters of a receive flow, a send flow or the table. -/
  | flowStatusRead (r : Req)
  /-- `MEMC_RING_CONFIG` (R274): Sets a ring's depth, key flag and ancillary size, which migrates an existing ring. -/
  | memcRingConfig (r : Req)
  /-- `MEMC_RING_READ` (R273): Returns a ring's layout, epoch and ANC_OVERFLOW counter. -/
  | memcRingRead (r : Req)
  /-- `MEMC_ADMIT_REPORT` (R274): Reports the per-pseudo-channel load, bound and free extents of the configuration in force or of a sealed bank. -/
  | memcAdmitReport (r : Req)
  /-- `MEMC_PC_RETIRE` (R268): Starts the retirement of a pseudo-channel. -/
  | memcPcRetire (r : Req)
  /-- `MEMC_ERROR_CONFIG` (R260): Sets AUTO_RETIRE, UE_TH, CE_EXP and MIG_PAR. -/
  | memcErrorConfig (r : Req)
  /-- `MEMC_SCRUB_CONFIG` (R257): Sets the patrol scrubber's enable and period. -/
  | memcScrubConfig (r : Req)
  /-- `MEMC_HOLIDAY_CONFIG` (R254): Sets the retrain interval and temperature step of Holidays. -/
  | memcHolidayConfig (r : Req)
  /-- `MEMC_STATUS_READ` (R273): Returns MEMC and pseudo-channel status, load and counters. -/
  | memcStatusRead (r : Req)
  /-- `MEMC_WINDOW` (R235): Opens or closes the HBM control window onto a pseudo-channel. -/
  | memcWindow (r : Req)
  /-- `ROUTE_INGRESS_BIND` (R276): Binds a producer to ingress slots and creates its ring. -/
  | routeIngressBind (r : Req)
  /-- `ROUTE_INGRESS_UNBIND` (R305): Removes an ingress binding under the disable word. -/
  | routeIngressUnbind (r : Req)
  /-- `ROUTE_TG_CONFIG` (R280): Sets or deletes a timing group's format, phase and hysteresis. -/
  | routeTgConfig (r : Req)
  /-- `ROUTE_EGRESS_BIND` (R278): Creates an output raster on egress slots in a timing group, feeding a consumer. -/
  | routeEgressBind (r : Req)
  /-- `ROUTE_EGRESS_UNBIND` (R305): Removes an output raster under the disable word. -/
  | routeEgressUnbind (r : Req)
  /-- `ROUTE_ALIGN_GROUP` (R291): Defines or deletes a host alignment group. -/
  | routeAlignGroup (r : Req)
  /-- `ROUTE_TAKE` (R301): Changes the source of a raster from a planned frame onward. -/
  | routeTake (r : Req)
  /-- `ROUTE_STATUS_READ` (R309): Returns the registers and counters of a stream, raster, timing group or alignment group. -/
  | routeStatusRead (r : Req)
  /-- `CNV_CONFIG` (R352): Configures a conversion on an engine or gang. -/
  | cnvConfig (r : Req)
  /-- `CNV_ENABLE` (R312): Enables a conversion, subject to admission. -/
  | cnvEnable (r : Req)
  /-- `CNV_DISABLE` (R335): Disables a conversion under the disable word. -/
  | cnvDisable (r : Req)
  /-- `CNV_SUBSTITUTE` (R338): Moves a conversion to an idle engine or gang at a named output frame. -/
  | cnvSubstitute (r : Req)
  /-- `CNV_SPARE_AUTO` (R339): Enables or disables automatic substitution after a contained reset. -/
  | cnvSpareAuto (r : Req)
  /-- `CNV_COEF_LOAD` (R332): Loads a coefficient bank from the staging region. -/
  | cnvCoefLoad (r : Req)
  /-- `CNV_LUT_LOAD` (R332): Loads a colour table set from the staging region. -/
  | cnvLutLoad (r : Req)
  /-- `CNV_STATUS_READ` (R351): Returns an engine's status, selection, tokens and counters. -/
  | cnvStatusRead (r : Req)
  /-- `OUT_RASTER_CONFIG` (R344): Sets a raster's KEYOUT flag and background. -/
  | outRasterConfig (r : Req)
  /-- `OUT_GLYPH_LOAD` (R347): Writes a hidden copy of a glyph, to which every raster changes at its next frame boundary. -/
  | outGlyphLoad (r : Req)
  /-- `OUT_MARKER` (R348): Configures one of a raster's four markers. -/
  | outMarker (r : Req)
  /-- `OUT_PALETTE` (R347): Writes entries of a raster's palette. -/
  | outPalette (r : Req)
  /-- `OUT_STATUS_READ` (R351): Returns a raster's registers and counters. -/
  | outStatusRead (r : Req)
  /-- `AUD_CONFIG` (R354): Sets the device audio rate, which resets cells, maps and rings, and sets RAMP_BLOCKS. -/
  | audConfig (r : Req)
  /-- `AUD_DEPTH` (R388): Sets HOLD for a range of source channels, which resizes their rings. -/
  | audDepth (r : Req)
  /-- `AUD_CELLS` (R378): Writes mixing-matrix cells, which apply from a chosen block. -/
  | audCells (r : Req)
  /-- `AUD_CELLS_READ` (R387): Returns a destination's 64 cells as in force. -/
  | audCellsRead (r : Req)
  /-- `AUD_DEST_ENABLE` (R388): Enables a range of destinations. -/
  | audDestEnable (r : Req)
  /-- `AUD_DEST_DISABLE` (R384): Disables a range of destinations under the disable word. -/
  | audDestDisable (r : Req)
  /-- `APRT_AES_IN` (R365): Configures an AES3 input's mode, nominal rate, base channel, lock window and hold-off. -/
  | aprtAesIn (r : Req)
  /-- `APRT_AES_OUT` (R374): Maps an AES3 output to destination channels. -/
  | aprtAesOut (r : Req)
  /-- `APRT_TDM` (R371): Configures a TDM port. -/
  | aprtTdm (r : Req)
  /-- `APRT_WCLK` (R373): Enables or disables WCLK_OUT. -/
  | aprtWclk (r : Req)
  /-- `APRT_DISABLE` (R384): Disables one audio port direction under the disable word. -/
  | aprtDisable (r : Req)
  /-- `AUD_CS_READ` (R387): Returns the last complete channel-status block of a source channel. -/
  | audCsRead (r : Req)
  /-- `APRT_CS_SET` (R374): Chooses a generated or host-supplied channel-status block for an AES3 output. -/
  | aprtCsSet (r : Req)
  /-- `AUD_STATUS_READ` (R387): Returns the registers and counters of an audio object. -/
  | audStatusRead (r : Req)
  /-- `MBX_NOP` (R419): Returns the Perby version, the restart count and the completions that can still be owed. -/
  | mbxNop (r : Req)
  /-- `REG_READ` (R420): Reads CTL register words through M0. -/
  | regRead (r : Req)
  /-- `REG_WRITE` (R420): Writes CTL register words in MAINTENANCE with debug unlocked. -/
  | regWrite (r : Req)
  /-- `REG_RMW` (R420): Performs a locked read-modify-write of a CTL word. -/
  | regRmw (r : Req)
  /-- `REG_SNAPSHOT` (R420): Arranges for named registers to be latched at a whole millisecond of house time. -/
  | regSnapshot (r : Req)
  /-- `XBR_STATUS_READ` (R419): Returns a crossbar master's QoS register and counters. -/
  | xbrStatusRead (r : Req)
  /-- `XBR_QOS` (R414): Sets the round-robin weight of a normal crossbar master. -/
  | xbrQos (r : Req)
  /-- `MBX_EVENT_CONFIG` (R410): Enables or disables event classes. -/
  | mbxEventConfig (r : Req)
  /-- `DBG_CHALLENGE` (R417): Issues a debug unlock challenge and the unique number. -/
  | dbgChallenge (r : Req)
  /-- `DBG_UNLOCK` (R417): Verifies a signature over the challenge and unlocks debug. -/
  | dbgUnlock (r : Req)
  /-- `DBG_LOCK` (R417): Relocks debug. -/
  | dbgLock (r : Req)
  /-- `STAGED_REQUEST` (R425): A request with STAGE set is written as a change into an OPEN Eve bank instead of being executed. -/
  | stagedRequest (bank opcode : Nat) (r : Req)
  /-- `CFG_BANK_OPEN` (R424): Opens an empty Eve bank. -/
  | cfgBankOpen (r : Req)
  /-- `CFG_BANK_SEAL` (R427): Starts the check of an OPEN bank, which seals the bank if the check passes. -/
  | cfgBankSeal (r : Req)
  /-- `CFG_BANK_CHECK` (R427): Starts the check of an OPEN bank without sealing it. -/
  | cfgBankCheck (r : Req)
  /-- `CFG_BANK_TRUNCATE` (R426): Discards the changes of an OPEN bank from COUNT onward. -/
  | cfgBankTruncate (r : Req)
  /-- `CFG_BANK_ABANDON` (R426): Empties a bank that is not in ADVENT and undoes its pending flow entries. -/
  | cfgBankAbandon (r : Req)
  /-- `CFG_BANK_READ` (R450): Returns a bank's change records. -/
  | cfgBankRead (r : Req)
  /-- `CFG_SCHEDULE` (R434): Places a commit, salvo or season action in the Almanac at an instant. -/
  | cfgSchedule (r : Req)
  /-- `CFG_CANCEL` (R436): Frees a WAITING Almanac entry and returns its bank to SEALED. -/
  | cfgCancel (r : Req)
  /-- `CFG_IMAGE_LOAD` (R444): Verifies an image, loads its tables and stores, and fills a bank with the changes toward its state. -/
  | cfgImageLoad (r : Req)
  /-- `CFG_IMAGE_SAVE` (R445): Writes an image of the base configuration to the staging region. -/
  | cfgImageSave (r : Req)
  /-- `CFG_SEASON_STORE` (R446): Stores the records of a season. -/
  | cfgSeasonStore (r : Req)
  /-- `CFG_SEASON_SWITCH` (R447): Builds a switch to another season into an empty bank. -/
  | cfgSeasonSwitch (r : Req)
  /-- `CFG_SALVO_STORE` (R448): Stores a salvo of takes. -/
  | cfgSalvoStore (r : Req)
  /-- `CFG_SALVO_FIRE` (R448): Appends a salvo's takes to a bank, or applies all of them as non-staged takes. -/
  | cfgSalvoFire (r : Req)
  /-- `CFG_STATUS_READ` (R450): Returns the configuration status, banks, commit record and counters. -/
  | cfgStatusRead (r : Req)
  /-- `TWN_CONFIG` (R481): Sets the unit number, acknowledge pins, heartbeat timeout, tolerances and asymmetry of the twin block. -/
  | twnConfig (r : Req)
  /-- `TWN_PAIR` (R469): Requests pairing with the partner. -/
  | twnPair (r : Req)
  /-- `TWN_UNPAIR` (R472): Takes the shadow out of the pair and returns it to READY. -/
  | twnUnpair (r : Req)
  /-- `TWN_HANDOVER` (R471): Schedules a planned handover of roles at an instant. -/
  | twnHandover (r : Req)
  /-- `TWN_STATUS_READ` (R480): Returns the twin registers and counters. -/
  | twnStatusRead (r : Req)
  /-- `TWN_HEALTH_READ` (R480): Returns Vigil results, fitness and the mismatching rasters. -/
  | twnHealthRead (r : Req)
  /-- `TWN_EPOCH_SET` (R459): Sets the epoch and the highest epoch seen. -/
  | twnEpochSet (r : Req)
  /-- `FLT_STATUS_READ` (R508): Returns the fault status, overflow count and first-error and prior records. -/
  | fltStatusRead (r : Req)
  /-- `FLT_CLEAR` (R488): Clears VALID, FLT_OVERFLOW and CONTAINED when no consequence window is open. -/
  | fltClear (r : Req)
  /-- `FLT_SEVERITY` (R485): Sets the minor and major severities of a range of fault sources. -/
  | fltSeverity (r : Req)
  /-- `FLT_SOURCE_READ` (R508): Returns a fault source's severity register and counters. -/
  | fltSourceRead (r : Req)
  /-- `FLT_INJECT` (R495): Arms a check-bit inversion or forced reports at a fault source. -/
  | fltInject (r : Req)
  /-- `FLT_WINDOW` (R499): Sets the consequence window length of a reset domain. -/
  | fltWindow (r : Req)
  /-- `FLT_AUDIT` (R503): Freezes one conservation law at its next audit point and returns its terms. -/
  | fltAudit (r : Req)
  /-- `RST_BLOCK` (R502): Resets one idle instance of a reset domain. -/
  | rstBlock (r : Req)
  /-- `RST_RELEASE` (R500): Releases a quarantined instance. -/
  | rstRelease (r : Req)
  /-- `RST_DEVICE` (R501): Resets the device after a confirmation word. -/
  | rstDevice (r : Req)
  /-- `RST_STATUS_READ` (R508): Returns the reset cause, the reset count and the quarantined instances. -/
  | rstStatusRead (r : Req)
  /-- `MON_CONFIG` (R505): Sets a monitor's WARN and CRIT thresholds. -/
  | monConfig (r : Req)
  /-- `MON_READ` (R508): Returns the readings of all monitors. -/
  | monRead (r : Req)
  /-- `DEV_MODE_REQUEST` (R511): Requests a change of operating mode to READY, SOLO or MAINTENANCE. -/
  | devModeRequest (r : Req)
  /-- `DEV_REMOVE` (R527): Sends LEAVE, stops every output and returns the unit to READY for removal. -/
  | devRemove (r : Req)
  /-- `DEV_STATUS_READ` (R538): Returns the identity, mode, host, boot and reset status. -/
  | devStatusRead (r : Req)
  /-- `UPD_BEGIN` (R531): Opens an update session of TOTAL bytes. -/
  | updBegin (r : Req)
  /-- `UPD_BLOCK` (R531): Copies a CRC-checked block of the transfer from staging. -/
  | updBlock (r : Req)
  /-- `UPD_VERIFY` (R532): Starts verification of the transfer against the manifest checks. -/
  | updVerify (r : Req)
  /-- `UPD_PLACE` (R533): Starts writing the verified transfer into the store that is not active. -/
  | updPlace (r : Req)
  /-- `UPD_ACTIVATE` (R535): Schedules activation of the placed store at an instant. -/
  | updActivate (r : Req)
  /-- `UPD_CANCEL` (R538): Returns the update session to IDLE or to PLACED. -/
  | updCancel (r : Req)
  /-- `UPD_STATUS_READ` (R538): Returns the update registers, counters and the running manifest header. -/
  | updStatusRead (r : Req)
  /-- `MBX_DB` (R400): A doorbell write moves a mailbox to BUSY, or sets DB_ERR when the mailbox is BUSY or no firmware serves it. -/
  | mbxDb (n : Nat) (tag : Word)
  /-- `MAILBOX_REQUEST_ACCEPT` (R403): PRB0 reads a request from its window and checks its header before executing it. -/
  | mailboxRequestAccept (n : Nat)
  /-- `MAILBOX_WINDOW_WRITE` (R401): A host write to a request window is stored, or is discarded with WR_ERR while BUSY; response-window writes are discarded. -/
  | mailboxWindowWrite (n offset : Nat) (bytes : List Byte)
  /-- `MBX_STATE_WRITE` (R400): A write of 1 clears DB_ERR or WR_ERR. -/
  | mbxStateWrite (n : Nat) (value : Word)
  /-- `EVT_CONS_WRITE` (R412): The host advances the event consumer index, which re-arms vectors 16-31 and may send one at once. -/
  | evtConsWrite (value : Word)
  /-- `MSIX_VECTOR_UNMASK` (R412): Unmasking a vector with its pending bit set sends it. -/
  | msixVectorUnmask (v : Nat)
  /-- `BAR2_ACCESS` (R396): A host access to BAR2 reads or writes the staging region, with read-modify-write for partial words. -/
  | bar2Access (write : Bool) (addr len : Nat) (bytes : List Byte)
  /-- `DEBUG_WINDOW_ACCESS` (R418): A host access to the BAR0 debug window reaches a CTL address through M4 while debug is unlocked. -/
  | debugWindowAccess (write : Bool) (x : Nat) (value : Word)
  /-- `BAR0_WIDE_ACCESS` (R395): A BAR0 register access wider than 8 bytes completes with Unsupported Request. -/
  | bar0WideAccess (addr len : Nat)
  /-- `CONTROL_WINDOW_ACCESS` (R235): A CTL access to the HBM control window reads or writes a word of a pseudo-channel. -/
  | controlWindowAccess (master : Nat) (write : Bool) (b len : Nat) (bytes : List Byte)
  /-- `CROSSBAR_ACCESS` (R414): A master's access is granted by the target's arbiter and completes, or is answered as a decode error or access denied. -/
  | crossbarAccess (target : Nat) (reqs : List XReq)
  /-- `LOCK_BREAK` (R415): A locked sequence that has lasted 64 CTL cycles is broken and the rest of it aborts. -/
  | lockBreak (target addr : Nat) (write : Bool)
  /-- `REGISTER_WRITE` (R22): A write to a register that has no behaviour of its own stores the value. -/
  | registerWrite (addr : Nat) (value : Word)
  /-- `SMBUS_BLOCK_READ` (R568): An SMBus block read returns an identity, status or monitor register. -/
  | smbusBlockRead (code : Nat)
  /-- `JTAG_INSTRUCTION` (R569): A TAP instruction selects bypass, IDCODE or a boundary-scan test, which can override pin states. -/
  | jtagInstruction (i : TapInstr)
  /-- `JTAG_TRST_N` (R569): JTAG reset releases the boundary-scan hold of the pins. -/
  | jtagTrstN
  /-- `GRACEFUL_STOP_COMPLETE` (R33): A function ends its unit of work and stops, which posts any pending completion event. -/
  | gracefulStopComplete (f : Func)
  /-- `GRACEFUL_DEADLINE` (R30): A graceful stop not complete by its deadline takes the immediate path. -/
  | gracefulDeadline (f : Func)
  /-- `AUDIT_POINT` (R39): A block evaluates its conservation laws, and a law that does not balance is a fatal fault. -/
  | auditPoint (a : Auditor)
  /-- `SRAM_CORRECTED_REWRITE` (R28): An SRAM rewrites a corrected word in its next idle cycle. -/
  | sramCorrectedRewrite (sram word : Nat)
  /-- `NCO_UPDATE` (R69): Each millisecond the selector recomputes the house frequency under the slew law and writes REF_NCO.PPT. -/
  | ncoUpdate
  /-- `SELECTOR_LOCKED` (R71): The selector enters LOCKED after |e| has been within 10 ns for 1 s. -/
  | selectorLocked
  /-- `HOUSE_SYNTH_RATIO_LOAD` (R43): Once per millisecond AUD, VID0 and VID1 load the new NCO ratio in one TIM cycle. -/
  | houseSynthRatioLoad
  /-- `PTP_MESSAGE_RECEIVE` (R50): A received PTP message is timestamped and processed by the exchange, the best-master-clock algorithm and the servo. -/
  | ptpMessageReceive (port : Nat) (m : PtpMsg)
  /-- `PTP_MESSAGE_TRANSMIT` (R50): A PTP message falls due at its interval and is sent one-step, rewritten on departure. -/
  | ptpMessageTransmit (port : Nat) (kind : PtpKind)
  /-- `ANNOUNCE_RECEIPT_TIMEOUT` (R53): A follower enters HOLD on announce receipt timeout. -/
  | announceReceiptTimeout (tb : Nat)
  /-- `SYNC_ABSENCE_TIMEOUT` (R53): A follower enters HOLD when no Sync has arrived for the longer of 8 intervals and 250 ms. -/
  | syncAbsenceTimeout (tb : Nat)
  /-- `REFERENCE_EDGE` (R540): A SYNC, CLK10 or WCLK_IN edge is stamped and gives the candidate a phase measurement. -/
  | referenceEdge (kind source : Nat) (phase : Time) (edge : Nat := 0)
  /-- `FREQUENCY_GATE` (R57): A 100 ms gate measures a candidate's frequency against XTAL, and a measurement outside the window loses it. -/
  | frequencyGate (cand : Nat) (ppb : Time)
  /-- `CANDIDATE_QUALIFY` (R57): A candidate present and within its window for its hold-off qualifies, and selection runs. -/
  | candidateQualify (cand : Nat)
  /-- `CANDIDATE_LOST` (R56): A candidate's presence condition fails, and selection runs again. -/
  | candidateLost (cand : Nat)
  /-- `CONFLICT_CLEAR` (R63): CONFLICT clears after no pair of the rank has disagreed for 2 s. -/
  | conflictClear
  /-- `INITIAL_SELECTION_WINDOW` (R68): At the end of the initial window, the selector aligns house time to the best qualified candidate. -/
  | initialSelectionWindow
  /-- `PULSE_EDGE` (R72): A PULSE_OUT edge falls at its exact time, and any new program starts there. -/
  | pulseEdge (pin : Nat)
  /-- `PLL_LOCK` (R77): A synthesiser's band search or table band completes and it locks. -/
  | pllLock (n : Nat)
  /-- `PLL_TABLE_MISS` (R77): A table band not locked within 200 µs is abandoned for an automatic search. -/
  | pllTableMiss (n : Nat)
  /-- `PLL_LOSS_OF_LOCK` (R78): A synthesiser loses lock, and its domains switch to XTAL in bypass. -/
  | pllLossOfLock (n : Nat)
  /-- `PLL_BYPASS_SEARCH` (R79): A synthesiser in bypass makes an automatic search every 10 ms, up to three. -/
  | pllBypassSearch (n : Nat)
  /-- `PLL_RELOCK` (R79): A synthesiser in bypass relocks, and synthesisers 0 and 1 leave bypass. -/
  | pllRelock (n : Nat)
  /-- `XTAL_LOSS` (R81): No XTAL_IN edge for 1 µs raises the fatal XTAL-loss source. -/
  | xtalLoss
  /-- `OCTET_SYNTH_LOSS_OF_LOCK` (R89): An octet synthesiser loses lock, and its transmitters go to electrical idle. -/
  | octetSynthLossOfLock (octet : Nat) (osb : Bool)
  /-- `OCTET_SYNTH_SEARCH` (R89): An unlocked octet synthesiser repeats its search every 10 ms. -/
  | octetSynthSearch (octet : Nat) (osb : Bool)
  /-- `OCTET_SYNTH_RELOCK` (R89): An octet synthesiser relocks and its transmitters resume. -/
  | octetSynthRelock (octet : Nat) (osb : Bool)
  /-- `LOS_ASSERT` (R95): Loss of signal asserts after 1 µs below threshold, and an UP lane returns to ACQUIRE. -/
  | losAssert (lane : Nat) (peak : Nat := 0)
  /-- `LOS_DEASSERT` (R95): Loss of signal deasserts after 10 µs above threshold plus hysteresis. -/
  | losDeassert (lane : Nat) (least : Nat := 0)
  /-- `LANE_FREQUENCY_GATE` (R96): A gate of 16,384 LRX cycles measures the recovered frequency, deciding lock or loss of lock. -/
  | laneFrequencyGate (lane : Nat) (tenthPpm : Int) (testErrors : Nat) (testStart : Nat := 0)
  /-- `RATE_SEARCH_STEP` (R97): An automatic-search receiver that has not locked within 1 ms moves to the next rate. -/
  | rateSearchStep (lane : Nat)
  /-- `LANE_FREQUENCY_ACQUIRED` (R99): Clock recovery acquires frequency and the receiver enters ADAPT. -/
  | laneFrequencyAcquired (lane : Nat)
  /-- `LANE_ADAPT_END` (R99): Coarse adaptation ends after 2 ms or 5 ms. -/
  | laneAdaptEnd (lane : Nat)
  /-- `ALIGNMENT_MARKER` (R100): A recurring marker in ALIGN resolves polarity and lane order, and can bring the lane UP. -/
  | alignmentMarker (lane : Nat) (complemented : Bool) (identity : Nat)
  /-- `ALIGN_TIMEOUT` (R102): ALIGN not resolved within 2 ms restarts bring-up, or puts the lane in FAULT after three failures. -/
  | alignTimeout (lane : Nat)
  /-- `ROVE_VISIT` (R103): Every DWELL the spare slice visits the next UP lane, calibrates, compares and substitutes;
  `lane` is the lane that comes next. -/
  | roveVisit (octet lane : Nat)
  /-- `ROVE_SUBSTITUTION` (R104): With no mismatch, the spare becomes the working slice at the next word boundary. -/
  | roveSubstitution (octet : Nat) (mismatches : Nat := 0)
  /-- `TWIN_TRAINING_MARKER` (R108): A twin-lane training marker is received, and training ends when both units report all four receivers UP. -/
  | twinTrainingMarker (lane laneNumber : Nat) (allUp : Bool)
  /-- `SDI_TRS` (R119): A TRS is found, which accepts or keeps word alignment. -/
  | sdiTrs (lane stream position : Nat) (coded : List Bool)
  /-- `SDI_TRS_ABSENT` (R119): An expected TRS is absent, and four in a row return the receiver to SEARCH. -/
  | sdiTrsAbsent (lane stream : Nat)
  /-- `SDI_LINE` (R124): A received line is checked for line number and CRC and stored: its words in `y` and `c`, those
  from the EAV that ends it through the CRC in `eav`, and those that its line buffer holds in error. -/
  | sdiLine (lane stream : Nat) (y c : List Nat) (eav : List (Nat × Nat)) (buf : List WordErr)
  /-- `SDI_FRAME_BOUNDARY` (R121): At a line-1 TRS the receiver ends its measurement, changes state, and begins a new frame. -/
  | sdiFrameBoundary (lane : Nat) (m : SdiMeasure)
  /-- `SDI_ANC_PACKET` (R134): A received ancillary packet is checked, filtered and stored or consumed. -/
  | sdiAncPacket (lane : Nat) (p : AncPacket)
  /-- `SDI_AUDIO_PACKET` (R140): A received audio packet is de-embedded into source channels. -/
  | sdiAudioPacket (lane : Nat) (p : AudioPacket)
  /-- `SDI_TX_FRAME_START` (R545): A transmitter begins an output frame, inserting ancillary data, audio and the claim packet. -/
  | sdiTxFrameStart (lane k : Nat) (buf : List WordErr := [])
  /-- `MAC_PCS_ALIGNED` (R158): The PCS acquires block, alignment-marker and codeword lock and the port sends idles. -/
  | macPcsAligned (port : Nat)
  /-- `MAC_LINK_UP` (R158): After 10 ms aligned without faults, LINK becomes UP and the queues start. -/
  | macLinkUp (port : Nat)
  /-- `MAC_LINK_DOWN` (R159): An UP port loses lock or a lane or has a high error rate and goes DOWN. -/
  | macLinkDown (port : Nat) (lockLost : Bool) (symErrs badHeaders : Nat := 0)
  /-- `REMOTE_FAULT_RECEIVED` (R160): Received Remote Fault ordered sets put the port in REMOTE_FAULT. -/
  | remoteFaultReceived (port : Nat)
  /-- `REMOTE_FAULT_CLEARED` (R160): Remote Fault ordered sets stop and the port returns to step 4 of bring-up. -/
  | remoteFaultCleared (port : Nat)
  /-- `ETH_FRAME_RECEIVE` (R162): A received frame is staged, steered, given cells, checked and delivered or discarded. -/
  | ethFrameReceive (port : Nat) (f : EthFrame)
  /-- `PAUSE_TIMER_EXPIRY` (R171): A queue's pause time ends and the queue may start frames. -/
  | pauseTimerExpiry (port queue : Nat)
  /-- `PAUSE_REFRESH` (R173): A pause for a queue above XON is repeated after half of PAUSE_TIME. -/
  | pauseRefresh (port queue : Nat)
  /-- `ETH_FRAME_TRANSMIT` (R166): When the wire is free, the highest-priority unpaused queue starts its next frame. -/
  | ethFrameTransmit (port : Nat)
  /-- `RING_COPY` (R174): A frame at the head of a control-plane or PTP queue is copied into the ring to Perby when a buffer is free. -/
  | ringCopy (mac : Nat) (ptp : Bool)
  /-- `FLOW_CLASSIFY` (R194): A frame at the head of RQ6 is looked up in the flow table, checked and merged into its flow. -/
  | flowClassify (port : Nat) (table : List WordErr := []) (window : SymErr := [])
  /-- `FLOW_PATH_DOWN` (R205): A path with no packet for 10 ms goes down, and a path event is posted. -/
  | flowPathDown (flow path : Nat)
  /-- `IP_FRAME_CLOSE` (R207): A video or ancillary frame closes and is written ready, patched or abandoned. -/
  | ipFrameClose (flow : Nat)
  /-- `REKEY_PLACEMENT_DONE` (R200): Perby finishes placing every entry into the spare half under the new key. -/
  | rekeyPlacementDone
  /-- `REKEY_SWITCH` (R200): Every MAC switches its lookups to the new half. -/
  | rekeySwitch
  /-- `REKEY_COMPLETE` (R200): The old half is cleared, FLOW_TBL_EPOCH increments and STATE returns to NORMAL. -/
  | rekeyComplete
  /-- `ENTROPY_DRAW_RETRY` (R198): A key draw retries every 10 ms while the entropy source fails. -/
  | entropyDrawRetry (memc healthy : Bool)
  /-- `PACKET_SCHEDULED` (R213): A packetiser builds a media packet and enters it in TQ6 at its scheduled PKT cycle; `seq` and `k` name
  the packet: its sequence number, and its place in its frame or field. -/
  | packetScheduled (flow seq k : Nat)
  /-- `IGMP_QUERY` (R221): Perby answers an IGMP query for the groups it has joined. -/
  | igmpQuery (port group : Nat)
  /-- `ARP_REQUEST` (R221): Perby answers an ARP request for a port's address. -/
  | arpRequest (port ip : Nat)
  /-- `MEMORY_REQUEST` (R247): A requester's request takes a tag and enters a pseudo-channel queue, or waits for a tag. -/
  | memoryRequest (pc : Nat) (q : MemReq)
  /-- `BURST_ISSUE` (R248): A pseudo-channel controller chooses and issues one burst. -/
  | burstIssue (pc : Nat)
  /-- `BURST_COMPLETE` (R247): A write burst completes or read data leaves the return FIFO, releasing its tag. -/
  | burstComplete (pc : Nat) (errs : SymErr) (fabric : SymErr := [])
  /-- `HOLIDAY_DUE` (R254): A refresh or retrain Holiday falls due on a pseudo-channel. -/
  | holidayDue (pc : Nat) (retrain : Bool)
  /-- `HOLIDAY_START` (R255): A due Holiday begins when tolerance, exclusivity and spacing allow. -/
  | holidayStart (pc : Nat)
  /-- `HOLIDAY_DEADLINE` (R256): A Holiday at its deadline begins regardless of tolerance and raises the forced-Holiday source. -/
  | holidayDeadline (pc : Nat)
  /-- `HOLIDAY_END` (R254): A Holiday's refresh or retrain completes and client bursts resume. -/
  | holidayEnd (pc : Nat)
  /-- `SCRUB_READ` (R257): The scrubber reads a word and rewrites it corrected or poisoned. -/
  | scrubRead (pc : Nat) (errs : SymErr)
  /-- `PC_ERROR_WINDOW` (R260): At the end of each 1 s window, the error counts decide the PC-degraded source and auto-retirement. -/
  | pcErrorWindow (pc : Nat)
  /-- `READ_RESPONSE_TIMEOUT` (R261): A read not answered within 10 µs raises PC-unresponsive and resets the controller, or puts it in FAILED. -/
  | readResponseTimeout (pc : Nat)
  /-- `PC_RESET_RELEASE` (R251): Retraining completes and the pseudo-channel returns to service. -/
  | pcResetRelease (pc : Nat)
  /-- `RING_MIGRATION_START` (R246): A waiting ring starts migrating when admission, extents and MIG_PAR allow. -/
  | ringMigrationStart (ring : Nat)
  /-- `RING_MIGRATION_END` (R246): A ring's old extents return to free once no slot under the old layout remains held. -/
  | ringMigrationEnd (ring : Nat)
  /-- `RETIREMENT_SYSTEM_COPY_DONE` (R268): The system-region granules of a retiring pseudo-channel have been copied. -/
  | retirementSystemCopyDone
  /-- `RETIREMENT_COMPLETE` (R268): The retiring pseudo-channel enters RETIRED and a completion event is posted. -/
  | retirementComplete
  /-- `PRODUCER_FRAME_START` (R282): A producer begins a frame, taking a FREE or oldest unheld READY slot. -/
  | producerFrameStart (slot : Nat) (start : Time)
  /-- `PRODUCER_FRAME_READY` (R283): A frame becomes READY when its last write takes a tag; `fabric` lists the words of its slot that
  the fabric changed on their way into HBM (R25), by their number in the slot. -/
  | producerFrameReady (slot : Nat) (fabric : List WordErr)
  /-- `PLAN_POINT` (R289): At T_(k-1) the engine plans each route's frame for output frame k and the lead sends route ledger entries. -/
  | planPoint (tg k : Nat)
  /-- `CONFIRMATION_POINT` (R289): At C_k the engine confirms the planned frame or repeats, and completes or retries takes. -/
  | confirmationPoint (tg k : Nat)
  /-- `FRAME_BOUNDARY` (R279): A timing group's frame boundary applies pending raster, marker, glyph, hysteresis and output changes. -/
  | frameBoundary (tg k : Nat) (buf : List (Nat × WordErr) := [])
  /-- `SPLICE_START` (R297): A splice of a follow cell begins at the first audio block at or after the causing frame boundary. -/
  | spliceStart (dest : Nat)
  /-- `SPLICE_END` (R297): A splice ends after 16 blocks and cell 0 takes its new read, or returns to host control. -/
  | spliceEnd (dest : Nat)
  /-- `CONVERTER_PICTURE_START` (R315): At W_(j,q) an engine makes its temporal selection and begins an output picture. -/
  | converterPictureStart (engine j q : Nat) (buf : List WordErr := [])
  /-- `LEDGER_CONVERTER_SEND` (R467): At W_(j,q) - 500 µs the lead sends a converter ledger entry. -/
  | ledgerConverterSend (engine j q : Nat)
  /-- `RASTER_UNDERRUN` (R343): A word not arrived when due makes the raster send background to the end of the line. -/
  | rasterUnderrun (slot line sample lateWords : Nat)
  /-- `AUDIO_BLOCK` (R356): At a 125 µs boundary, the previous block is filled, mixed, and handed to consumers, and cell changes and ramps apply. -/
  | audioBlock (cells : List WordErr := []) (samples : List (Nat × Nat × WordErr) := [])
  /-- `MATRIX_WORD_REWRITE` (R382): Perby rewrites an uncorrectable cell word before the next block's mixing. -/
  | matrixWordRewrite (w : Nat)
  /-- `AES3_SUBFRAME` (R364): A received AES3 subframe is decoded and written to its channel. -/
  | aes3Subframe (port : Nat) (s : Subframe)
  /-- `INPUT_RATE_GATE` (R366): A gate of 1,024 frames measures an input's rate against its nominal. -/
  | inputRateGate (kind port : Nat) (tenthPpm : Int)
  /-- `INPUT_QUALIFY` (R366): An input within tolerance for its hold-off qualifies and takes SYNC or ASRC. -/
  | inputQualify (kind port : Nat)
  /-- `INPUT_LOST` (R369): An input loses its preambles, rate or line and stops writing samples. -/
  | inputLost (kind port cause : Nat)
  /-- `SYNC_SAMPLE_INSTANT` (R367): At each house sample instant a synchronous FIFO gives one sample, or repeats it. -/
  | syncSampleInstant (kind port : Nat)
  /-- `TDM_FRAME` (R371): A TDM frame starts at FS, carrying slots in both directions. -/
  | tdmFrame (port : Nat) (slots : List Word)
  /-- `WATCHDOG_MISS` (R391): A Perby core misses its watchdog reload, which starts a hitless restart. -/
  | watchdogMiss (core : Nat)
  /-- `HITLESS_RESTART_END` (R392): The reloaded cores run, RESTARTING clears and event 0x0602 is posted. -/
  | hitlessRestartEnd
  /-- `RESTART_TIMEOUT` (R392): A restart not complete within 120 ms raises the restart-timeout source. -/
  | restartTimeout
  /-- `DEBUG_UNLOCK_EXPIRY` (R417): Debug relocks 3,600 s after unlock. -/
  | debugUnlockExpiry
  /-- `DEBUG_CHALLENGE_EXPIRY` (R417): A debug challenge expires 60 s after issue. -/
  | debugChallengeExpiry
  /-- `SNAPSHOT_LATCH` (R420): At time T the named registers are latched and the snapshot response is written. -/
  | snapshotLatch
  /-- `BANK_CHECK_COMPLETE` (R427): A bank's check completes with a verdict, sealing the bank or returning it to OPEN. -/
  | bankCheckComplete (bank : Nat)
  /-- `ADVENT_START` (R435): 500 ms before an instant the entry enters ADVENT, builds its changes and is checked. -/
  | adventStart (entry : Nat)
  /-- `ADVENT_HANDOVER` (R435): Perby hands the checked change list to the commit engine, which arms every block. -/
  | adventHandover (entry : Nat)
  /-- `ADVENT_HANDOVER_DEADLINE` (R436): An entry not handed over by T - 250 ms fails. -/
  | adventHandoverDeadline (entry : Nat)
  /-- `COMMIT_STROBE` (R439): TIM raises the commit strobe at T and strobe-driven blocks apply their armed state. -/
  | commitStrobe
  /-- `COMMIT_RECORD` (R435): After the last unit applies, the commit record is written and the bank and entry are freed or advanced. -/
  | commitRecord
  /-- `BLOCK_REARM` (R440): A block reset during Advent is armed again after its release, possibly late. -/
  | blockRearm (block : Nat)
  /-- `HELLO` (R469): A HELLO from the partner is received, checking compatibility and fixing roles. -/
  | hello (h : LinkHdr) (m : HelloMsg)
  /-- `HEARTBEAT` (R473): A HEARTBEAT from the partner is received with its mode, claim, epochs and fitness. -/
  | heartbeat (h : LinkHdr) (m : HeartbeatMsg)
  /-- `HEARTBEAT_SEND` (R456): A unit sends a HEARTBEAT every 100 µs. -/
  | heartbeatSend
  /-- `TIME` (R457): A TIME message is received and the offset theta is computed. It carries its departure and the
  arrival of the TIME frame before it, each in whole seconds and nanoseconds. -/
  | time (h : LinkHdr) (leftS : Nat) (leftNs : Time) (cameS : Nat) (cameNs : Time)
  /-- `TIME_SEND` (R457): A unit sends a stamped TIME message every 1 ms. -/
  | timeSend
  /-- `KEYS` (R200): The lead's flow and placement keys and switch instant are received. -/
  | keys (h : LinkHdr) (flowKey placementKey : BitVec 128) (switchAt : Time)
  /-- `LEDGER` (R467): Ledger entries from the lead are received and applied. -/
  | ledger (h : LinkHdr) (words : List (BitVec 256))
  /-- `DIGEST` (R477): The lead's digests are received and compared by Vigil. -/
  | digest (h : LinkHdr) (d : DigestMsg)
  /-- `MIRROR` (R466): A mirrored command record is received and applied at its effective instant. -/
  | mirror (h : LinkHdr) (m : MirrorMsg)
  /-- `HANDOVER` (R471): A planned handover message with its instant and new epoch is received. -/
  | handover (h : LinkHdr) (instant : Time) (epoch : Nat)
  /-- `LEAVE` (R472): A partner's LEAVE is received, and the unit enters SOLO or HANDOVER. -/
  | leave (h : LinkHdr) (reason : Nat)
  /-- `INSET` (R267): The partner's in-service set and check verdict are received. -/
  | inset (h : LinkHdr) (lo hi : Word) (pass : Bool)
  /-- `SEQ` (R465): The lead's send-flow sequence numbers are received and set. -/
  | seq (h : LinkHdr) (numbers : List (Nat × Nat))
  /-- `REPLAY_TIMEOUT` (R455): With the acknowledgement stalled for 10 µs, the sender resends from the oldest unacknowledged frame. -/
  | replayTimeout
  /-- `TWIN_LINK_DOWN` (R454): The twin link goes DOWN with fewer than three lanes or no block for 100 µs. -/
  | twinLinkDown
  /-- `TWIN_LINK_UP` (R456): The twin link returns, and both units restart sequence numbers and exchange HELLO. -/
  | twinLinkUp
  /-- `CLAIM_ACK_DECODE` (R461): Every 100 µs each CLAIM_ACK pin is decoded as ACK, OTHER or NONE. -/
  | claimAckDecode (pins : List PinTrace)
  /-- `CLAIM_ACK_WINDOW` (R464): A new claim not acknowledged within two frames suppresses merged flows and raises a fault. -/
  | claimAckWindow
  /-- `HEARTBEAT_TIMEOUT` (R473): No HEARTBEAT for HB_TIMEOUT puts the unit in HANDOVER. -/
  | heartbeatTimeout
  /-- `WITNESS_JUDGEMENT` (R473): Every 100 µs in HANDOVER the unit judges its witnesses and may take a new claim. -/
  | witnessJudgement
  /-- `PAIRING_COMMIT` (R469): At T_m the shadow commits the lead's configuration and the ledger starts. -/
  | pairingCommit
  /-- `PAIRING_SERVICE` (R469): At T_s the shadow enters SHADOW and transmits and the lead enters LEAD. -/
  | pairingService
  /-- `HANDOVER_BOUNDARY` (R471): At the first boundary at or after a handover instant, the roles and claims swap. -/
  | handoverBoundary (tg : Nat)
  /-- `VIGIL_SETTLE` (R478): Tests V1-V6 have passed for SETTLE and the shadow becomes FIT. -/
  | vigilSettle
  /-- `FAULT_REPORT` (R491): A fault source's report is recorded and acted on at its severity or fixed class. -/
  | faultReport (r : Report)
  /-- `INJECTED_REPORT` (R495): A forced report is made on a source after the collector has acknowledged the previous one. -/
  | injectedReport (src : Nat)
  /-- `WIRE_CHECK` (R492): Every 10 ms the collector requests a test report on each source's wire. -/
  | wireCheck
  /-- `WIRE_CHECK_TIMEOUT` (R492): A test report not arriving within 100 µs marks the wire broken. -/
  | wireCheckTimeout (src : Nat)
  /-- `FAULT_WIRE_BROKEN` (R492): A pair reading 00 or 11 for 8 cycles is reported broken. -/
  | faultWireBroken (src : Nat)
  /-- `DOMAIN_RESET_RELEASE` (R499): An instance's reset is released and its consequence window opens. -/
  | domainResetRelease (domain inst : Nat)
  /-- `CONSEQUENCE_WINDOW_CLOSE` (R499): A consequence window closes after WINDOW frames. -/
  | consequenceWindowClose (domain inst : Nat)
  /-- `MONITOR_SAMPLE` (R505): A monitor samples, and threshold crossings and recoveries are reported. -/
  | monitorSample (index : Nat) (value : Int)
  /-- `THERMAL_TRIP` (R506): A die temperature at 125 °C for 4 samples asserts a thermal trip reset. -/
  | thermalTrip
  /-- `POWER_ON_RESET` (R555): The power-on reset asserts until every supply has been good for 10 ms; `levels` in mV, in the order
  of R553. -/
  | powerOnReset (levels : List Nat := [])
  /-- `SUPPLY_LOSS` (R555): A supply below 92 % for 2 µs asserts the power-on reset again; `levels` as above. -/
  | supplyLoss (levels : List Nat := [])
  /-- `SYS_RESET_N` (R501): SYS_RESET_N held low resets every domain. -/
  | sysResetN
  /-- `RESET_RELEASE` (R513): A device reset is released and trim load begins in TRIM. -/
  | resetRelease
  /-- `TRIM_LOAD_COMPLETE` (R514): The trim record is loaded from OTP, TRIM_VALID sets and the mode becomes LOADER. -/
  | trimLoadComplete (copy0Ok copy1Ok : Bool)
  /-- `LOADER_BOOT_RECORDS` (R517): The loader reads the boot records and journal and completes any interrupted activation. -/
  | loaderBootRecords
  /-- `LOADER_STORE_CHECK` (R518): The loader checks the active store, falls back, or waits for recovery. -/
  | loaderStoreCheck (answers : Bool)
  /-- `HBM_TRAINING_COMPLETE` (R231): MEMC trains and fills the pseudo-channels and BAR2_READY sets. -/
  | hbmTrainingComplete (failed : List Nat)
  /-- `PERBY_START` (R513): Perby starts, PERBY_UP sets and the mode becomes READY. -/
  | perbyStart
  /-- `HOST_INTERFACE_RESET` (R525): PERST_N, function-level reset, link-down or removal resets the mailboxes and event ring. -/
  | hostInterfaceReset
  /-- `PCIE_LINK_UP` (R524): The PCIe link trains and comes up. -/
  | pcieLinkUp
  /-- `UPD_VERIFY_COMPLETE` (R532): Verification of the transfer completes as VERIFIED or back in RECEIVING. -/
  | updVerifyComplete
  /-- `UPD_PLACE_COMPLETE` (R533): The store is programmed and read back, and the state becomes PLACED. -/
  | updPlaceComplete (ok : Bool)
  /-- `ACTIVATION_PREPARE` (R534): At T - 500 ms a PREPARED record is written and the conditions are checked again. -/
  | activationPrepare
  /-- `ACTIVATION_START` (R534): At T the ACTIVATING record is written and every part activates. -/
  | activationStart
  /-- `ACTIVATION_COMPLETE` (R534): The boot records and ACTIVATED record are written and the new store is active. -/
  | activationComplete
  /-- `ROVE_RELEASED_SLICE_CALIBRATED` (R107): At the end of rove step 6 the released slice has cancelled its offsets and becomes the spare, or is retired if its residual offset exceeds its limit. -/
  | roveReleasedSliceCalibrated (octet : Nat) (withinLimit : Bool)
  /-- `LANE_CONTROLLER_RESTART_END` (R534): After 1 ms of electrical idle for a lane microcode part, the lane controllers have restarted and every enabled receiver returns to step 1 of bring-up. -/
  | laneControllerRestartEnd
  /-- `CONTROL_PLANE_RING_FRAME` (R176): Perby takes a frame from a MAC's control-plane ring, freeing its buffers, and lists host-action frames with an event or drops them into HOST_DROP. -/
  | controlPlaneRingFrame (mac : Nat)
  /-- `TWIN_RECEIVER_INVERT_TOGGLE` (R108): A twin-lane receiver whose PRBS31 checker finds every bit in error over 4,096 bits toggles INVERT. -/
  | twinReceiverInvertToggle (lane : Nat)
  deriving DecidableEq, Repr

end Sys2Proof
end

