-- ==== Sys2Proof/Machine/Tab.lean ====
section
/-! DEFINITION. Tables, memory and byte strings. A table holds a fixed number of like things by number, listing only
those that differ from their reset value; memory is the same thing for bytes, in the one canonical form that
`Mem.wf` states. Multi-byte fields are little-endian (R10). -/

namespace Sys2Proof.Machine

/-- A table from numbers to things; a number not listed holds the thing's reset value (its `default`). -/
abbrev Tab (α : Type) := List (Nat × α)

/-- The entry of number `k`. -/
def tget {α : Type} [Inhabited α] : Tab α → Nat → α
  | [], _ => default
  | e :: t, k => if e.1 = k then e.2 else tget t k

/-- `(k, v)` put at its place in rising order. -/
def tinsert {α : Type} (k : Nat) (v : α) : Tab α → Tab α
  | [] => [(k, v)]
  | e :: t => if k < e.1 then (k, v) :: e :: t else e :: tinsert k v t

/-- The table with the entry of number `k` removed. -/
def tdrop {α : Type} (k : Nat) : Tab α → Tab α
  | [] => []
  | e :: t => if e.1 = k then tdrop k t else e :: tdrop k t

/-- The table with `v` at number `k`; a reset value is not listed. -/
def tset {α : Type} [Inhabited α] [DecidableEq α] (t : Tab α) (k : Nat) (v : α) : Tab α :=
  if v = default then tdrop k t else tinsert k v (tdrop k t)

/-- The table with entry `k` changed by `f`. -/
def tupd {α : Type} [Inhabited α] [DecidableEq α] (t : Tab α) (k : Nat) (f : α → α) : Tab α :=
  tset t k (f (tget t k))

/-- The table with every listed entry changed by `f` (which must keep the reset value). -/
def tmap {α : Type} [Inhabited α] [DecidableEq α] (t : Tab α) (f : Nat → α → α) : Tab α :=
  t.foldl (fun u e => tset u e.1 (f e.1 e.2)) []

/-- The table with entries `first … first + n - 1` changed by `f`. -/
def tupdRange {α : Type} [Inhabited α] [DecidableEq α] (t : Tab α) (first n : Nat) (f : Nat → α → α) : Tab α :=
  (List.range n).foldl (fun u i => tupd u (first + i) (f (first + i))) t

/-- The numbers whose entries satisfy `p`. -/
def tfind {α : Type} (t : Tab α) (p : α → Bool) : List Nat :=
  t.filterMap fun e => if p e.2 then some e.1 else none

/-- A 48-bit counter table by register offset (R9). -/
abbrev Ctrs := Tab (BitVec 48)

/-- Counter `k` increased by `n`, wrapping at 2^48 (R9). -/
def bumpBy (c : Ctrs) (k n : Nat) : Ctrs := tset c k (tget c k + BitVec.ofNat 48 n)

/-- Counter `k` increased by one (R9). -/
def bump (c : Ctrs) (k : Nat) : Ctrs := bumpBy c k 1

/-! ### Memory -/

/-- The bytes of HBM that differ from zero, by address. An address not listed reads 0: MEMC fills HBM with zero
words before BAR2_READY (R231); see log entry 4 for the time before. -/
abbrev Mem := List Host.Cell

/-- What an unlisted address reads as. -/
def Mem.unlisted : Byte := 0

/-- The byte at an address. -/
def Mem.read : Mem → Nat → Byte
  | [], _ => Mem.unlisted
  | e :: m, a => if e.1 = a then e.2 else Mem.read m a

/-- The memory with the byte at an address written; writing what an unlisted address reads as removes the entry. -/
def Mem.write : Mem → Nat → Byte → Mem
  | [], a, b => if b = Mem.unlisted then [] else [(a, b)]
  | e :: m, a, b =>
    if a < e.1 then (if b = Mem.unlisted then e :: m else (a, b) :: e :: m)
    else if a = e.1 then (if b = Mem.unlisted then m else (a, b) :: m)
    else e :: Mem.write m a b

/-- `n` bytes from address `a`. -/
def Mem.readN (m : Mem) (a : Nat) : Nat → List Byte
  | 0 => []
  | n + 1 => Mem.read m a :: Mem.readN m (a + 1) n

/-- The memory with bytes stored from address `a`. -/
def Mem.writeN (m : Mem) (a : Nat) : List Byte → Mem
  | [] => m
  | b :: bs => Mem.writeN (Mem.write m a b) (a + 1) bs

/-- All addresses of a list lie above `a`, strictly rising, with no byte that an unlisted address reads as. -/
def Mem.wfAbove : Nat → Mem → Bool
  | _, [] => true
  | a, e :: m => decide (a ≤ e.1) && decide (e.2 ≠ Mem.unlisted) && Mem.wfAbove (e.1 + 1) m

/-- The canonical form of memory: addresses strictly rising and no entry equal to what an unlisted address reads. -/
def Mem.wf (m : Mem) : Bool := Mem.wfAbove 0 m

/-! ### Byte strings, little-endian (R10) -/

/-- The number that bytes spell, the first the least significant. -/
def leNat : List Byte → Nat
  | [] => 0
  | b :: bs => b.toNat + 256 * leNat bs

/-- `n` bytes of a number, the least significant first. -/
def le : Nat → Nat → List Byte
  | 0, _ => []
  | n + 1, v => BitVec.ofNat 8 (v % 256) :: le n (v / 256)

/-- The `n`-byte unsigned field of `p` at offset `o`; bytes beyond the end count as 0. -/
def un (n : Nat) (p : List Byte) (o : Nat) : Nat := leNat ((p.drop o).take n)

/-- The 1-byte field at offset `o`. -/
def u8 (p : List Byte) (o : Nat) : Nat := un 1 p o
/-- The 2-byte field at offset `o`. -/
def u16 (p : List Byte) (o : Nat) : Nat := un 2 p o
/-- The 4-byte field at offset `o`. -/
def u32 (p : List Byte) (o : Nat) : Nat := un 4 p o
/-- The 8-byte field at offset `o`. -/
def u64 (p : List Byte) (o : Nat) : Nat := un 8 p o

/-- A `w`-bit unsigned number read as two's complement. -/
def signed (w v : Nat) : Int := if v < 2 ^ (w - 1) then (v : Int) else (v : Int) - (2 : Int) ^ w

/-- The signed 4-byte field at offset `o`. -/
def i32 (p : List Byte) (o : Nat) : Int := signed 32 (u32 p o)
/-- The signed 2-byte field at offset `o`. -/
def i16 (p : List Byte) (o : Nat) : Int := signed 16 (u16 p o)

/-- Bits `hi … lo` of a number. -/
def bits (v hi lo : Nat) : Nat := v / 2 ^ lo % 2 ^ (hi + 1 - lo)

/-- Bit `i` of a number. -/
def bitOf (v i : Nat) : Bool := v / 2 ^ i % 2 == 1

/-- A Bool as 0 or 1. -/
def b2n (b : Bool) : Nat := if b then 1 else 0

/-- A field of value `v` placed at bit `lo` with width `w`. -/
def fld (v lo w : Nat) : Nat := v % 2 ^ w * 2 ^ lo

/-- An integer as a `w`-bit two's complement number. -/
def twos (w : Nat) (i : Int) : Nat := (i % (2 : Int) ^ w).toNat

/-- Bytes in groups of `n`. The fuel is the number of bytes. -/
def chunksFuel {α : Type} (n : Nat) : Nat → List α → List (List α)
  | 0, _ => []
  | f + 1, bs => match bs with
    | [] => []
    | _ => bs.take n :: chunksFuel n f (bs.drop n)

/-- A list in groups of `n`. -/
def chunks {α : Type} (n : Nat) (bs : List α) : List (List α) := chunksFuel n bs.length bs

/-! ### Times (R11) -/

/-- Whole nanoseconds of a time. -/
def nsOf (t : Time) : Nat := t.floor.toNat

/-- A time as nanoseconds modulo 2^48 (R11, R409). -/
def ns48 (t : Time) : Nat := nsOf t % 2 ^ 48

/-- A time in the 96-bit format of R11: fraction in [15:0], nanoseconds in [47:16], seconds in [95:48], truncated. -/
def t96 (t : Time) : Nat :=
  let frac := ((t - (t.floor : Rat)) * 65536).floor.toNat
  let n := nsOf t
  frac + 2 ^ 16 * (n % 1000000000) + 2 ^ 48 * (n / 1000000000)

/-- A 12-byte field of the format of R11 as a time. -/
def ofT96 (v : Nat) : Time :=
  ((bits v 95 48 * 1000000000 + bits v 47 16 : Nat) : Rat) + ((bits v 15 0 : Nat) : Rat) / 65536

/-- The nanoseconds field of a time in the format of R11 is in range. -/
def t96Ok (v : Nat) : Bool := decide (bits v 47 16 < 1000000000)

/-- One millisecond in nanoseconds. -/
def ms : Time := 1000000
/-- One microsecond in nanoseconds. -/
def us : Time := 1000
/-- One second in nanoseconds. -/
def sec : Time := 1000000000

/-- The first element of a list that satisfies `p`, with its place. -/
def findIdx? {α : Type} (p : α → Bool) : List α → Option (Nat × α)
  | [] => none
  | a :: l => if p a then some (0, a) else (findIdx? p l).map fun r => (r.1 + 1, r.2)

end Sys2Proof.Machine
end

