-- ==== Sys2Proof/Machine/Formats.lean ====
section
/-! DEFINITION. Video formats: the format codes (R116, R572), their frame rates and rasters, and what SDI carries
(R117). -/

namespace Sys2Proof.Machine

/-- Bits [7:4] of a format code: the raster. -/
def rasterCode (f : Nat) : Nat := f / 16 % 16
/-- Bits [3:0] of a format code: the rate. -/
def rateCode (f : Nat) : Nat := f % 16

/-- The defined formats (R572). -/
def definedFormat (f : Nat) : Bool :=
  f = 0x06 || f = 0x15 || decide (0x20 ≤ f ∧ f ≤ 0x27) || decide (0x35 ≤ f ∧ f ≤ 0x37)
    || decide (0x40 ≤ f ∧ f ≤ 0x44) || decide (0x50 ≤ f ∧ f ≤ 0x57) || decide (0x60 ≤ f ∧ f ≤ 0x6A)
    || decide (0x70 ≤ f ∧ f ≤ 0x77)

/-- The rate of a rate code in Hz, as numerator and denominator (R116, R185). -/
def rateHz (r : Nat) : Nat × Nat :=
  match r with
  | 0 => (24000, 1001) | 1 => (24, 1) | 2 => (25, 1) | 3 => (30000, 1001) | 4 => (30, 1) | 5 => (50, 1)
  | 6 => (60000, 1001) | 7 => (60, 1) | 8 => (100, 1) | 9 => (120000, 1001) | 10 => (120, 1) | _ => (50, 1)

/-- Interlaced rasters: 525i, 625i and 1080i, whose rate code is the field rate (R116). -/
def interlaced (f : Nat) : Bool := decide (rasterCode f = 0 ∨ rasterCode f = 1 ∨ rasterCode f = 3)

/-- Segmented-frame rasters. -/
def segmented (f : Nat) : Bool := decide (rasterCode f = 4)

/-- The frame period in ns. -/
def framePeriod (f : Nat) : Time :=
  let r := rateHz (rateCode f)
  let p : Time := 1000000000 * (r.2 : Rat) / (r.1 : Rat)
  if interlaced f then 2 * p else p

/-- A rate of a 1/1.001 family: 23.98, 29.97, 59.94, 119.88. -/
def fractionalRate (f : Nat) : Bool :=
  decide (rateCode f = 0 ∨ rateCode f = 3 ∨ rateCode f = 6 ∨ rateCode f = 9)

/-- Total lines of a frame. -/
def totalLines (f : Nat) : Nat :=
  match rasterCode f with
  | 0 => 525 | 1 => 625 | 2 => 750 | 6 => 2250 | 7 => 4500 | _ => 1125

/-- Active lines of a frame (R116). -/
def activeLines (f : Nat) : Nat :=
  match rasterCode f with
  | 0 => 486 | 1 => 576 | 2 => 720 | 6 => 2160 | 7 => 4320 | _ => 1080

/-- Active samples of a line. -/
def activeWidth (f : Nat) : Nat :=
  match rasterCode f with
  | 0 | 1 => 720 | 2 => 1280 | 6 => 3840 | 7 => 7680 | _ => 1920

/-- The duration of a line in ns. -/
def linePeriod (f : Nat) : Time := framePeriod f / (totalLines f : Rat)

/-- The switching line of RP 168 (R145). -/
def switchLine (f : Nat) : Nat :=
  match rasterCode f with
  | 0 => 10 | 1 => 6 | _ => 7

/-- The line that carries the claim packet (R149). -/
def claimLine (f : Nat) : Nat := switchLine f + 2

/-- The combinations of mapping, format and sampling that SDI carries (R117). -/
def sdiCarries (mapping f sampling : Nat) : Bool :=
  let r := rateCode f
  let p50 := decide (5 ≤ r ∧ r ≤ 7)
  let p30 := decide (r ≤ 4)
  let hd := (rasterCode f = 2 && decide (0x20 ≤ f ∧ f ≤ 0x27)) || decide (0x35 ≤ f ∧ f ≤ 0x37)
    || decide (0x40 ≤ f ∧ f ≤ 0x44) || decide (0x50 ≤ f ∧ f ≤ 0x54)
  match mapping with
  | 0 => decide (sampling = 0) && (f = 0x06 || f = 0x15)
  | 1 => decide (sampling = 0) && hd
  | 2 => (decide (sampling = 0) && decide (rasterCode f = 5) && p50)
      || (decide (1 ≤ sampling ∧ sampling ≤ 5) && (decide (0x35 ≤ f ∧ f ≤ 0x37)
          || ((decide (rasterCode f = 4) || decide (rasterCode f = 5)) && p30)))
  | 3 => decide (sampling = 0) && decide (rasterCode f = 5) && p50
  | 4 => decide (sampling = 0) && hd
  | 5 => decide (sampling = 0) && decide (rasterCode f = 6) && p30
  | 6 => decide (sampling = 0) && decide (rasterCode f = 6) && p50
  | 7 | 8 => decide (sampling = 0) && decide (rasterCode f = 6) && p50
  | 9 => decide (sampling = 0) && decide (rasterCode f = 7) && p50
  | _ => false

/-- Stream units of an SDI stream (R117). -/
def sdiSu (mapping : Nat) : Nat :=
  match mapping with
  | 5 => 2 | 6 => 4 | 7 | 8 => 4 | 9 => 16 | _ => 1

/-- Lane rate codes of a mapping (R117). -/
def mappingRates (mapping : Nat) : List Nat :=
  match mapping with
  | 0 => [8] | 1 => [0, 1] | 2 | 3 | 4 | 7 | 8 => [2, 3] | 5 => [4, 5] | 6 | 9 => [6, 7] | _ => []

/-- A lane rate carries a mapping and a format's family (R117); rate 0xE searches them all. -/
def rateCarries (rate mapping f : Nat) : Bool :=
  decide (rate = 0xE) || ((mappingRates mapping).contains rate
    && (decide (mapping = 0) || decide (f = 0xFF) || decide ((rate % 2 = 1) = fractionalRate f)))

/-- Data streams of a mapping, for R127 (log entry 12). -/
def dataStreams (mapping : Nat) : Nat :=
  match mapping with
  | 2 | 3 | 4 | 7 | 8 => 2 | 5 => 4 | 6 | 9 => 8 | _ => 1

/-- The format of one data stream's lines: a 2160p or 4320p picture comes as sub-images of 1080p (R129, R130). -/
def streamFormat (f : Nat) : Nat := if rasterCode f = 6 ∨ rasterCode f = 7 then 0x50 + rateCode f else f

/-- The format of one link of a multi-link group (R132). -/
def linkFormat (mapping f : Nat) : Nat := if 7 ≤ mapping ∧ mapping ≤ 9 ∧ 0x60 ≤ f then f - 0x10 else f

end Sys2Proof.Machine
end

