-- ==== Sys2Proof/Config.lean ====
section
/-! DEFINITION. What one part fixes and what the manual leaves open. Every constant here is opaque: no proof can
see a value of it, so a claim holds whatever it is. -/

namespace Sys2Proof.Config

/-- The two capacities of R2: DEV_ID.CAP 0x1 is 16 GiB a stack, 0x2 is 24 GiB a stack. -/
inductive Capacity where
  | gib16
  | gib24
  deriving DecidableEq, Repr, Inhabited

/-- The capacity in the OTP trim record (R2, R514). Implementation-fixed. -/
opaque otpCapacity : Capacity

/-- The 16-byte unique number in OTP (R514), as one number. Implementation-fixed. -/
opaque uniqueNumber : BitVec 128

/-- Draw number `n` of the on-die entropy source (R198, R243, R417): a fresh free value each time. -/
opaque entropy : Nat → BitVec 256

/-- A value the manual leaves open, number `n` (a free value; see log entry 6). -/
opaque freeValue : Nat → BitVec 64

/-- Whether an ECDSA P-256 signature verifies (R417, R529): key 0 is the debug key, key 1 the update key, whose
hashes OTP holds. Left uninterpreted. -/
opaque ecdsaVerifies : Nat → List Byte → List Byte → Bool

/-- SHA-256 (R516, R528, R529), left uninterpreted. -/
opaque sha256 : List Byte → BitVec 256

/-- The DFE, CTLE and VGA results of adaptation are not stated (R93): the eye a lane settles at, by lane and visit. -/
opaque eyeOf : Nat → Nat → BitVec 32

/-- A DFE tap of a lane as adaptation leaves it (R93), by lane, visit and tap. -/
opaque dfeTap : Nat → Nat → Nat → Int

/-- What a follower's proportional-integral servo (R51) makes of an offset is left open: the rate adjustment in ppb that it
takes, at a bandwidth in mHz, from an offset and its present rate. -/
opaque servoRate : Nat → Time → Time → Int

/-- What a checker finds where four or more symbols of a word are in error, beyond the code's guarantee (R24): 0 no error, 1 a
correction, else an uncorrectable error, by the symbols. -/
opaque beyondCode : List (Nat × Byte) → Nat

/-- An asynchronous rate converter's output sample (R368), by channel, media index, ratio and input position: its filter is given only
by an envelope. -/
opaque asrcSample : Nat → Nat → Nat → Nat → BitVec 24

/-- TRO_DEFAULT of ST 2110-21 in ns for a format (R212), which the manual names and does not give. -/
opaque troDefault : Nat → Nat

/-- A sample of a field that a deinterlacer needs and its source does not hold (R322), by draw, component, row and column. -/
opaque absentSample : Nat → Nat → Nat → Nat → Nat

/-- How the words of a line of a level B-DL pair, or of a sampling of level A other than 4:2:2 10-bit, carry the rows of a picture
(R117 names ST 425-1 and the manual does not write it out): the planes of the rows by mapping, sampling and the active words by
stream and line. -/
opaque sdiUnmap : Nat → Nat → Nat → List (Nat × List Nat × List Nat) → List (List (List Nat))

/-- The same on transmission: the active words of a line by mapping, format, sampling, stream and line of a picture. -/
opaque sdiMap : Nat → Nat → Nat → Nat → Nat → List (List (List Nat)) → List Nat

/-- The ST 352 payload identifier of a mapping, format, sampling and link number (R138), which the manual does not write out. -/
opaque payloadId : Nat → Nat → Nat → Nat → BitVec 32

/-- The source format word of an ST 2022-6 header by mapping and format (R190), which the manual does not write out. -/
opaque datagramFormat : Nat → Nat → BitVec 32

/-- Whether a send flow of type 0x2 carries L16 samples, by its payload type (R187, R383): no field of a flow says so. -/
opaque l16 : Nat → Bool

/-- The channel-status bit that a send flow of type 0x3 sends in place `i` of 192 for a destination that is not transparent (R379): by
flow and place; the manual gives a flow no channel status of its own. -/
opaque flowStatus : Nat → Nat → Bool

/-- The raster whose frames' ancillary packets a send flow of type 0x4 carries (R183, R189, R278): no command binds it. -/
opaque ancRaster : Nat → Nat

/-- The low 12 bits of the JTAG IDCODE, the maker's number of IEEE 1149.1 (R569 gives the others). -/
opaque jtagMaker : BitVec 12

/-- Which code of a line is sent in place `i` (R476: "in the order sent"; the order is the transport standard's, which the
manual does not write out), by sampling and by the line's number of codes. -/
opaque sentPlace : Nat → Nat → Nat → Nat

/-- Entry of LUT A (0) or LUT B (1) of a fixed table set whose curve the manual names and does not write out (R329), in units of
2^-18. -/
opaque curve : Nat → Nat → Nat → Int

end Sys2Proof.Config
end

