-- ==== Sys2Proof/Machine/StateHost.lean ====
section
/-! DEFINITION. State of the host interface, the control crossbar and the Perby complex (chapter 11), and of the
configuration machinery (chapter 12). -/

namespace Sys2Proof.Machine

/-- A mailbox (R400): STATE 0 IDLE, 1 BUSY, 2 DONE; `accepted` while Perby executes its request (R392). -/
structure Mailbox where
  state    : Nat := 0
  tag      : Word := 0
  dbErr    : Bool := false
  wrErr    : Bool := false
  resps    : BitVec 48 := 0
  accepted : Bool := false
  request  : Tab Byte := []
  response : List Byte := []
  deriving DecidableEq, Repr, Inhabited

/-- An entry of the event ring (R409). `time` is house time in ns modulo 2^48; `data` is the 12-byte DATA. -/
structure EventEntry where
  code   : Nat := 0
  phase  : Bool := false
  loss   : Bool := false
  tag    : Word := 0
  time   : Nat := 0
  object : Nat := 0
  data   : List Byte := []
  deriving DecidableEq, Repr, Inhabited

/-- The event ring and its control registers (R409, R410). `owed` counts the completion events owed (R408);
`lossPending` says that events were lost since the last entry. -/
structure Events where
  prod        : Nat := 0
  cons        : Nat := 0
  enabled     : BitVec 16 := 0xFFFF
  armed       : BitVec 16 := 0xFFFF
  lost        : BitVec 48 := 0
  discard     : BitVec 48 := 0
  lossPending : Bool := false
  ring        : Tab EventEntry := []
  owed        : Nat := 0
  deriving DecidableEq, Repr, Inhabited

/-- The MSI-X table (R394, R411, R412): the address and data words of its entries (vector times 4, plus 0 to 2), mask and
pending bits, and how often each vector has been sent. -/
structure Msix where
  words   : Tab Word := []
  masked  : BitVec 64 := BitVec.allOnes 64
  pending : BitVec 64 := 0
  sent    : Tab Nat := []
  deriving DecidableEq, Repr, Inhabited

/-- A crossbar master's weight and counters (R414, R416). -/
structure Master where
  weight : Nat := 4
  ctrs   : Ctrs := []
  deriving DecidableEq, Repr, Inhabited

/-- A crossbar target's arbiter (R414 to R416): park pointer, lock holder with the time of its first grant and the accesses
of its sequence so far, the round-robin master with its consecutive grants, and for each privileged master the grants it has
waited through. -/
structure Target where
  park   : Nat := 0xF
  lock   : Option Nat := none
  lockAt : Time := 0
  locked : Nat := 0
  turn   : Nat := 0
  grants : Nat := 0
  waited : Tab Nat := []
  deriving DecidableEq, Repr, Inhabited

/-- A register snapshot that waits for its instant (R420); `words` once it has come, the words latched, none at an address
where no register stands. -/
structure Snapshot where
  mbx   : Nat
  tag   : Word
  t     : Time
  addrs : List Nat
  flags : Nat := 0
  words : Option (List (Option Nat)) := none
  deriving DecidableEq, Repr

/-- An `FLT_AUDIT` that waits for its law's next audit point (R503). -/
structure AuditAsk where
  mbx   : Nat
  tag   : Word
  law   : Nat
  inst  : Nat
  flags : Nat := 0
  deriving DecidableEq, Repr

/-- The host interface and Perby (R390 to R421). `stopped` says that Perby has stopped accepting doorbells (R392
step 1); `rung` lists the mailboxes whose doorbells no one has accepted, oldest first (R407); `late` holds completion events that wait for the end of a restart (R393). `bytes` and `completion` are the data and status of the last access of the host or of a crossbar master: 0
successful, 1 Unsupported Request, 2 successful with EP set, 3 decode error, 4 access denied, 5 error response, 6 abort. -/
structure HostIf where
  perbyUp    : Bool := false
  restarting : Bool := false
  stopped    : Bool := false
  restartAt  : Time := 0
  bar2Ready  : Bool := false
  debug      : Bool := false
  lockout    : Bool := false
  version    : Word := 0
  nextVersion : Option Word := none
  restarts   : BitVec 48 := 0
  mbx        : Tab Mailbox := []
  rung       : List Nat := []
  evt        : Events := {}
  msix       : Msix := {}
  masters    : Tab Master := []
  targets    : Tab Target := []
  snaps      : List Snapshot := []
  asks       : List AuditAsk := []
  challenge  : Option (BitVec 256 × Time) := none
  rejected   : Nat := 0
  unlockedAt : Time := 0
  winBase    : Nat := 0
  linkUp     : Bool := false
  late       : List EventEntry := []
  bytes      : List Byte := []
  completion : Nat := 0
  deriving DecidableEq, Repr, Inhabited

/-! ### Configuration (chapter 12) -/

/-- A change: a record of a stageable command (R422). -/
structure Change where
  opcode  : Nat := 0
  payload : List Byte := []
  deriving DecidableEq, Repr, Inhabited

/-- A verdict (R430). -/
structure Verdict where
  index  : Nat := 0xFFFFFFFF
  opcode : Nat := 0
  status : Nat := 0
  detail : Nat := 0
  unit   : Nat := 0xFF
  epoch  : Nat := 0
  deriving DecidableEq, Repr, Inhabited

/-- An Eve bank (R424): state 0 EMPTY, 1 OPEN, 2 CHECKING, 3 SEALED, 4 SCHEDULED, 5 ADVENT. `sealing` says that the
running check is a seal's and `told` that this unit's own verdict has gone to the partner (R441); `season` is the season that its commit puts in force (R447), `image` the base configuration that it sets (R444); `mbx` and `tag` name the
command that is owed the completion event. -/
structure Bank where
  state   : Nat := 0
  entry   : Nat := 0x1FF
  changes : List Change := []
  verdict : Verdict := {}
  sealing : Bool := false
  told    : Bool := false
  season  : Option Nat := none
  image   : Option (List Change) := none
  mbx     : Nat := 0
  tag     : Word := 0
  deriving DecidableEq, Repr, Inhabited

/-- An Almanac entry (R433, R449): state 0 FREE, 1 WAITING, 2 ADVENT, 3 FAILED. `built` holds the changes of a salvo
or season entry (R435), `checked` the CFG_EPOCH of its last check, `handed` that step 2 of Advent has been made,
`recorded` that its commit strobe has passed. -/
structure AlmEntry where
  state   : Nat := 0
  action  : Nat := 0
  arg     : Nat := 0
  label   : Nat := 0
  period  : Nat := 0
  count   : Nat := 0
  instant : Time := 0
  checked : Nat := 0
  built   : List Change := []
  handed  : Bool := false
  strobed : Bool := false
  verdict : Verdict := {}
  deriving DecidableEq, Repr, Inhabited

/-- Where an accepted or armed change takes effect (R438 and the family chapters). Times are house times. -/
inductive Point where
  | now
  | strobe (t : Time)
  | frame (tg : Nat) (t : Time)
  | picture (engine : Nat) (t : Time)
  | block (n : Nat)
  | laneFrame (lane : Nat)
  | flowFrame (flow : Nat)
  deriving DecidableEq, Repr

/-- A change that waits for its point. `armed` names the Almanac entry whose commit it belongs to; `lost` says that a reset took
it from its block since it was armed (R440). -/
structure Waiting where
  point  : Point
  change : Change
  armed  : Option Nat := none
  lost   : Bool := false
  deriving DecidableEq, Repr

/-- The configuration machinery (R422 to R452). `inForce` lists the configuration in force and `base` the base
configuration as changes, one for each object (R423, R446); `waiting` lists the changes that wait for their point, in
order of acceptance. -/
structure Cfg where
  season   : Nat := 0
  epoch    : Word := 0
  banks    : Tab Bank := []
  alm      : Tab AlmEntry := []
  lastT    : Time := 0
  lastEntry : Nat := 0x1FF
  lastChanges : Nat := 0
  ctrs     : Ctrs := []
  seasons  : Tab (List Change) := []
  salvos   : Tab (List (List Byte)) := []
  inForce  : List Change := []
  base     : List Change := []
  waiting  : List Waiting := []
  deriving DecidableEq, Repr, Inhabited

/-- A disable in progress (R29 to R36): the function, the commands owed a completion event (mailbox, tag, opcode),
the deadline on `up`, the house time at acceptance, and the frames that were in progress then. -/
structure Drain where
  func     : Func
  owed     : List (Nat × Word × Nat)
  deadline : Time
  since    : Time := 0
  mark     : List Nat := []
  deriving DecidableEq, Repr

end Sys2Proof.Machine
end

