-- ==== Sys2Proof/Machine/StateFault.lean ====
section
/-! DEFINITION. State of the fault collector, the reset controller and the monitors (chapter 14), of start-up, the
flash and firmware update (chapter 15), and of the twin link (chapter 13). -/

namespace Sys2Proof.Machine

/-- An injection that is armed at a source (R495): mode 0 inverts check bits by `mask`, mode 1 forces reports. -/
structure Injection where
  mode  : Nat
  major : Bool
  mask  : Word
  count : Nat
  react : Bool
  inst  : Nat
  deriving DecidableEq, Repr

/-- A fault source (R484, R485, R491, R492). `sevMajor` is none while it is the source's default. `passes` counts wire
checks passed in a row since the wire was found broken, and `failed` says that the last check, or one under way when the
wire was found broken, does not count as passed. -/
structure Source where
  sevMajor : Option Nat := none
  sevMinor : Nat := 1
  broken   : Bool := false
  passes   : Nat := 0
  failed   : Bool := false
  inj      : Option Injection := none
  ctrs     : Ctrs := []
  deriving DecidableEq, Repr, Inhabited

/-- A first-error record (R494). -/
structure FltRecord where
  source  : Nat := 0
  major   : Bool := false
  sev     : Nat := 0
  fixed   : Bool := false
  flags   : Nat := 0
  mode    : Nat := 0
  code    : Nat := 0
  time    : Nat := 0
  inst    : Nat := 0
  further : Nat := 0
  deriving DecidableEq, Repr, Inhabited

/-- An open consequence window (R499). -/
structure Window where
  domain  : Nat
  inst    : Nat
  closeAt : Time
  held    : Nat
  deriving DecidableEq, Repr

/-- The fault collector (R484 to R500). `resets` lists contained resets as (domain, instance, time); `inReset` and
`quarantine` list (domain, instance). `safeHold` is the safe-hold line (R489). `sram` lists the words of SRAMs that a checker has corrected and
that their SRAM has still to rewrite, by the checker's source, the word and its errors (R28). `audited` gives the millisecond of house
time in which each auditor passed its last audit point (R39). -/
structure Flt where
  valid      : Bool := false
  fatal      : Bool := false
  contained  : Bool := false
  fatalSrc   : Nat := 0
  overflow   : BitVec 48 := 0
  first      : FltRecord := {}
  prior      : FltRecord := {}
  priorFatal : Nat := 0
  sources    : Tab Source := []
  windows    : List Window := []
  winFrames  : Tab (Option Nat) := []
  resets     : List (Nat × Nat × Time) := []
  inReset    : List (Nat × Nat) := []
  quarantine : List (Nat × Nat) := []
  safeHold   : Bool := false
  lastCheck  : Option Time := none
  sram       : List (Nat × WordErr) := []
  audited    : List (Auditor × Nat) := []
  deriving DecidableEq, Repr, Inhabited

/-- A monitor (R504, R505): thresholds are none while at their default; the run lengths count consecutive samples
beyond WARN, beyond CRIT and back within each; `sampled` is `up` at the last sample. -/
structure Monitor where
  value    : Int := 0
  state    : Nat := 3
  warn     : Option Int := none
  crit     : Option Int := none
  runWarn  : Nat := 0
  runCrit  : Nat := 0
  runOkW   : Nat := 0
  runOkC   : Nat := 0
  runTrip  : Nat := 0
  sampled  : Option Time := none
  deriving DecidableEq, Repr, Inhabited

/-- The reset controller and the monitors (R501 to R507). `trip` holds the device in reset after a thermal trip. -/
structure Rst where
  last  : Nat := 1
  count : BitVec 48 := 0
  trip  : Bool := false
  due   : Option Time := none
  mons  : Tab Monitor := []
  thermAlert : Bool := false
  deriving DecidableEq, Repr, Inhabited

/-- A boot record (R516). -/
structure BootRec where
  gen    : Nat
  store  : Nat
  digest : BitVec 256
  deriving DecidableEq, Repr

/-- A journal record (R516): type 1 PLACING, 2 PLACED, 3 PREPARED, 4 ACTIVATING, 5 ACTIVATED. -/
structure JournalRec where
  seq    : Nat
  type   : Nat
  store  : Nat
  digest : BitVec 256
  deriving DecidableEq, Repr

/-- The flash (R516): outside the device, it survives every reset. -/
structure Flash where
  recA    : Option BootRec := none
  recB    : Option BootRec := none
  journal : List JournalRec := []
  storeA  : List Byte := []
  storeB  : List Byte := []
  answers : Bool := true
  deriving DecidableEq, Repr, Inhabited

/-- Start-up state (R513 to R520, R537): `records` says that the boot records have been read and `waitsRecovery`
that the loader serves under R519; `since` is `up` at the release of reset, `recordsAt` when the boot records were read, from which
HBM trains, and `readAt` when the reading of a store began (R513). -/
structure Boot where
  stage     : Nat := 0
  code      : Nat := 0
  trimValid : Bool := false
  trimCopy  : Bool := false
  store     : Nat := 0
  fallback  : Bool := false
  recovered : Bool := false
  image     : Bool := false
  timeMs    : Nat := 0
  imageLen  : Nat := 0
  records   : Bool := false
  loaded    : Bool := false
  trained   : Bool := false
  since     : Time := 0
  recordsAt : Time := 0
  readAt    : Time := 0
  deriving DecidableEq, Repr, Inhabited

/-- The update session (R530 to R537): state 0 IDLE, 1 RECEIVING, 2 VERIFYING, 3 VERIFIED, 4 PLACING, 5 PLACED,
6 SCHEDULED, 7 ACTIVATING. `area` is the transfer area. `running` is the running manifest header. -/
structure Upd where
  state    : Nat := 0
  code     : Nat := 0
  lane     : Bool := false
  active   : Nat := 0
  loader   : Bool := false
  placed   : Nat := 0
  granules : List Nat := []
  svn      : Nat := 0
  instant  : Time := 0
  total    : Nat := 0
  force    : Bool := false
  prepared : Bool := false
  area     : Mem := []
  mbx      : Nat := 0
  tag      : Word := 0
  ctrs     : Ctrs := []
  running  : List Byte := []
  laneIdle : Option Time := none
  hbmPart  : List Nat := []
  deriving DecidableEq, Repr, Inhabited

/-- The nominal voltages of the nine supplies in mV, in the order of R553. -/
def nominalSupplies : List Nat := [750, 800, 900, 1200, 1100, 400, 1800, 900, 1800]

/-- The SMBus target and the TAP (R568, R569), the levels of the supplies in mV in the order of R553, and when they were last found to
have become good (R555). At reset the power-on reset is at its end: the supplies have been good for 10 ms (log entry 232). -/
structure Pins where
  tap     : TapInstr := .idcode
  scan    : Bool := false
  smbus   : List Byte := []
  supplies : List Nat := nominalSupplies
  goodAt  : Time := -10 * ms
  deriving DecidableEq, Repr, Inhabited

end Sys2Proof.Machine
end

