-- ==== Sys2Proof/Machine/StateTwin.lean ====
section
/-! DEFINITION. State of the twin link, the claim, the slip ledger and Vigil (chapter 13). -/

namespace Sys2Proof.Machine

/-- The four ledger entry types (R467); K, J, START and INDEX are modulo 2^48. -/
inductive LedgerEntry where
  | route (slot k start : Nat) (take hold : Bool) (d : Int)
  | converter (engine j q startA startB w : Nat) (corr none : Bool)
  | alignment (kind id index : Nat)
  | rateConverter (channel n ratio phase : Nat)
  deriving DecidableEq, Repr

/-- A message that this unit sends (R456), with what it carries. -/
inductive TwinMsg where
  | hello (m : HelloMsg)
  | heartbeat (m : HeartbeatMsg)
  | time (departure arrival : Time)
  | keys (flow placement : BitVec 128) (switchAt : Time)
  | ledger (l : List LedgerEntry)
  | digest (m : DigestMsg)
  | mirror (m : MirrorMsg)
  | handover (instant : Time) (epoch : Nat)
  | leave (reason : Nat)
  | inset (lo hi : Word) (pass : Bool)
  | seq (numbers : List (Nat × Nat))
  deriving DecidableEq, Repr

/-- A frame in the replay buffer (R455): its message and sequence number; `draw` numbers the free values of the message fields and
payload words whose layout the manual does not give. -/
structure TwnFrame where
  msg  : TwinMsg
  seq  : Nat
  draw : Nat
  deriving DecidableEq, Repr

/-- A mirrored command record, whole (R466): what MirrorMsg carries, its payload and staging bytes apart. -/
structure MirrorRec where
  stage   : Option Nat
  opcode  : Nat
  payload : List Byte
  data    : List Byte
  instant : Time
  deriving DecidableEq, Repr

/-- A handover that has been accepted (R471), with the command that is owed its completion. -/
structure HandoverPlan where
  t     : Time
  epoch : Nat
  mbx   : Option (Nat × Word)
  deriving DecidableEq, Repr

/-- The twin block (R453 to R483). LINK, ROLE, PAIR and the rest are coded as TWN_STATUS codes them; `ack` and
`vigil` are TWN_ACK.STATE and TWN_VIGIL.TESTS by pin and test. `theta` is the last offset (R457). The remaining
fields are the state that R455 to R478 imply: sequence numbers, the replay buffer and held frames, times of the last
messages, pairing progress, the contest and its witnesses, and what Vigil has compared. `scr` is the scrambler's register, `turn`
the blocks put on lanes since the lanes in use last changed, and `sent` the blocks last sent, each with its logical lane (R453).
`heardAt` is the time of the last block, `timeOut` the departure stamps of own TIME frames by sequence number and `timeIn` the
arrival stamp of the partner's last (R457); `insetSent` is the in-service set last reported (R456), `part` the parts of a mirror record
that has not come whole, and `ackSampled` and `judgedAt` time the 100 us of R461 and R473. -/
structure Twn where
  unit      : Nat := 0
  ackPins   : Nat := 0
  soloClaim : Bool := true
  hb        : Nat := 2
  timeTol   : Nat := 1000
  mismatch  : Nat := 3
  settle    : Nat := 2
  asym      : Int := 0
  link      : Nat := 0
  role      : Nat := 0
  pair      : Nat := 0
  beat      : Bool := false
  /-- The partner's training markers report all four of its receivers UP (R108). -/
  peerUp : Bool := false
  ledgerOn  : Bool := false
  stale     : Bool := false
  fit       : Bool := false
  suppress  : Bool := false
  partnerUnit : Nat := 0
  lanes     : List Nat := []
  partnerClaim : Word := 0
  ack       : Tab Nat := []
  theta     : Time := 0
  vigil     : Tab Nat := []
  e         : Nat := 0
  eMax      : Nat := 0
  held      : Word := 0
  ctrs      : Ctrs := []
  txSeq     : Nat := 0
  scr       : BitVec 58 := 0
  turn      : Nat := 0
  sent      : List (Nat × BitVec 74) := []
  rxSeq     : Nat := 0
  replay    : List TwnFrame := []
  holding   : List TwinMsg := []
  ackAt     : Time := 0
  heardAt   : Time := 0
  timeOut   : List (Nat × Time) := []
  timeIn    : Option Time := none
  insetSent : List Nat := []
  part      : List Byte := []
  ackSampled : Time := 0
  judgedAt  : Time := 0
  lastBeat  : Time := 0
  lastHbSent : Time := 0
  lastTimeSent : Time := 0
  partnerRef : Nat := 0
  partnerFit : Bool := false
  hello     : Option HelloMsg := none
  pairCmd   : Option (Nat × Word) := none
  stepped   : Bool := false
  isShadow  : Bool := false
  step      : Nat := 0
  tm        : Option Time := none
  ts        : Option Time := none
  resync    : Bool := false
  plan      : Option HandoverPlan := none
  enteredAt : Time := 0
  entryRole : Nat := 0
  leaveSeen : Bool := false
  contested : Bool := false
  offline   : Bool := false
  witClaim  : Word := 0
  witAt     : Option Time := none
  claimAt   : Option Time := none
  mirrorSeq : Nat := 0
  partnerMirror : Nat := 0
  mirrored  : List MirrorRec := []
  newKeys   : Option (BitVec 128 × BitVec 128) := none
  judgeFrom : Tab Nat := []
  rasterRun : Tab Nat := []
  laneRun   : Tab Nat := []
  missRun   : Tab Nat := []
  lastMiss  : Option Time := none
  passSince : Option Time := none
  fitAt     : Time := 0
  badRasters : List Nat := []
  lastClaim : Word := 0
  takenAt   : Option Time := none
  exhausted : Bool := false
  deriving DecidableEq, Repr, Inhabited

end Sys2Proof.Machine
end

