-- ==== Sys2Proof/Machine/StateTime.lean ====
section
/-! DEFINITION. State of house time, the PTP time bases, the reference selector, PULSE_OUT and the synthesisers
(chapter 2). -/

namespace Sys2Proof.Machine

/-- A master that a follower hears (R48): the port, its port identity, the dataset of its last Announce, and when on `up` that
came. -/
structure PtpMaster where
  port  : Nat
  ident : Nat
  data  : List Nat
  since : Time
  deriving DecidableEq, Repr

/-- An answer that a port owes to a request (R50): the port, the kind, the request's sequence number, source, correction and
unicast flag, and the request's receive stamp. -/
structure PtpOwed where
  port  : Nat
  kind  : PtpKind
  seq   : Nat
  requester : Nat
  correction : Time
  unicast : Bool
  stamp : Time
  deriving DecidableEq, Repr

/-- A PTP time base (R47 to R55): its configuration, STATE as TIM_TBn_STATUS codes it, its time and held rate (in
ppb), the offset measurements of ACQUIRING, the runs that R51 and R52 count, the mean path delay, the last Sync on `up`, the
masters heard and the port identity of the best one, the exchange in progress (a two-step Sync that waits for its Follow_Up,
the time that the last Sync took, the delay requests sent by port with their departure stamps, a two-step Pdelay_Resp that waits
by port), the messages it has sent by port and kind with when, and the answers that it owes. -/
structure TimeBase where
  role     : Nat := 0
  profile  : Nat := 0
  domain   : Nat := 127
  logSync  : Int := -3
  logAnn   : Int := -2
  logDelay : Int := -3
  timeout  : Nat := 3
  mech     : Nat := 0
  prio1    : Nat := 128
  prio2    : Nat := 128
  classL   : Nat := 248
  classS   : Nat := 248
  classF   : Nat := 248
  stepNs   : Nat := 1000000
  bw       : Nat := 100
  ports    : List Nat := []
  state    : Nat := 0
  port     : Nat := 0xFF
  time     : Time := 0
  rate     : Time := 0
  offsets  : List Time := []
  offset   : Time := 0
  lockRun  : Nat := 0
  faultRun : Nat := 0
  delay    : Option Time := none
  lastSync : Time := 0
  masters  : List PtpMaster := []
  gm       : Option Nat := none
  syncWait : Option (Nat × Time × Time) := none
  diff     : Option Time := none
  asked    : Tab (Option (Nat × Time)) := []
  pWait    : Tab (Option (Nat × Time)) := []
  sent     : Tab Nat := []
  sentAt   : Tab Time := []
  owed     : List PtpOwed := []
  deriving DecidableEq, Repr, Inhabited

/-- A reference candidate (R56 to R60): its entry, whether it is present, since when it has been present and within
its window, whether it is qualified, its measured frequency in ppb, its tracked phase (the reference's time at the last
measurement, and when on `up` that was) and recent glitches. `edgeAt` is the last edge on `up`, and of SYNC the last V pulse;
`hAt` is its last H pulse and `hPeriod` the span between its last two (R56). -/
structure Cand where
  kind    : Nat := 0
  source  : Nat := 0
  rank    : Nat := 0
  frameN  : Nat := 0
  frameD  : Nat := 1
  offNs   : Int := 0
  offFrac : Nat := 0
  window  : Nat := 10
  holdoff : Nat := 2000
  present : Bool := false
  since   : Option Time := none
  qual    : Bool := false
  freq    : Option Time := none
  phase   : Option Time := none
  phaseAt : Time := 0
  glitches : List Time := []
  glitchCount : BitVec 48 := 0
  edgeAt  : Time := 0
  hAt     : Time := 0
  hPeriod : Time := 0
  deriving DecidableEq, Repr, Inhabited

/-- The reference selector (R61 to R71): REF_STATUS's fields, the NCO and its limits, the slew state `f` and the
candidate offset it is relative to, the last e, and the times from which R63, R68 and R71 count. -/
structure Ref where
  state    : Nat := 0
  active   : Nat := 0x1F
  manual   : Bool := false
  conflict : Bool := false
  conflictRank : Nat := 0
  aligned  : Bool := false
  ppt      : Int := 0
  nominal  : Int := 0
  slope    : Nat := 100
  slew     : Nat := 10000
  disagree : Nat := 2000
  revert   : Bool := true
  initMs   : Nat := 5000
  glitch   : Nat := 100
  f        : Time := 0
  base     : Time := 0
  e        : Time := 0
  cands    : Tab Cand := []
  nearSince : Option Time := none
  initFrom : Option Time := none
  initDone : Bool := false
  agreeSince : Option Time := none
  lastNco  : Time := 0
  lastLoad : Time := 0
  deriving DecidableEq, Repr, Inhabited

/-- A PULSE_OUT program (R72). `ref` is 0 for house time, 1 to 4 for TB0 to TB3; `first` is
the index of its first edge (R74). -/
structure Prog where
  ref     : Nat
  low     : Bool
  start   : Time
  periodN : Nat
  periodD : Nat
  width   : Nat
  count   : Nat
  first   : Nat
  deriving DecidableEq, Repr

/-- A PULSE_OUT pin (R72 to R76): the running program with the index of its next edge, the program that takes effect
at that edge, the exact time of the current pulse's leading edge, the step at which its last edge was placed (R73), when on
`up` a pulse whose reference stops must end (R75), and whether a command has configured the pin. -/
structure Pulse where
  prog : Option Prog := none
  next : Option Prog := none
  k    : Nat := 0
  high : Bool := false
  lastEdge : Time := 0
  placed : Time := 0
  ending : Option Time := none
  set  : Bool := false
  deriving DecidableEq, Repr, Inhabited

/-- A synthesiser (R77 to R81). `table` and `band` are what `PLL_BAND_TABLE` set, for its next band selection; `select` is the
selection in progress, 0 none, 1 the table band, 2 an automatic search; `searchFrom` is when that selection or the loss of lock
began. -/
structure Synth where
  locked   : Bool := false
  bypass   : Bool := false
  table    : Bool := false
  band     : Nat := 0
  select   : Nat := 0
  searches : Nat := 0
  searchFrom : Time := 0
  ppt      : Int := 0
  miss     : BitVec 48 := 0
  deriving DecidableEq, Repr, Inhabited

/-- House time and what follows it. -/
structure Tim where
  tbs    : Tab TimeBase := []
  asym   : Tab Int := []
  ref    : Ref := {}
  pulses : Tab Pulse := []
  synths : Tab Synth := []
  deriving DecidableEq, Repr, Inhabited

end Sys2Proof.Machine
end

