-- ==== Sys2Proof/Machine/StateLanes.lean ====
section
/-! DEFINITION. State of the serial lanes and octets (chapter 3). -/

namespace Sys2Proof.Machine

/-- An octet synthesiser (R88, R89). `lost` says that its loss of lock has been reported. -/
structure Osc where
  locked     : Bool := false
  lost       : Bool := false
  searching  : Bool := false
  searchFrom : Time := 0
  deriving DecidableEq, Repr, Inhabited

/-- An octet, or the twin group as octet 24 (R84 to R89, R103 to R107). `stage` of the rove visit is 0 none, 1 the
spare attached (steps 1 to 4), 2 released slice in calibration (step 6); `failRuns` counts abandoned visits in a row by lane. -/
structure Octet where
  mode     : Nat := 0xF
  roveEn   : Bool := false
  dwell    : Nat := 0x0A
  osa      : Osc := {}
  osb      : Osc := {}
  roveLane : Nat := 0xF
  stage    : Nat := 0
  visitAt  : Time := 0
  lastLane : Nat := 7
  lastVisit : Time := 0
  spare    : Bool := true
  failRuns : Tab Nat := []
  deriving DecidableEq, Repr, Inhabited

/-- A lane (R90 to R114): LANE_RX_CFG and LANE_TX_CFG, RXSTATE as LANE_STATUS codes it, LOS and LOL, the rest of
LANE_STATUS, the eye, the counters, and what bring-up keeps: frequency gates in a row inside and outside, whether coarse
adaptation has ended, markers in a row, the lane identities read, when step 1 and when the present step began, and the test
patterns; `dfe` holds the taps of the equaliser, 12 for NRZ and 8 for PAM4. -/
structure Lane where
  rxEn     : Bool := false
  invert   : Bool := false
  adapt    : Nat := 0
  rate     : Nat := 0xF
  ctle     : Nat := 0x8
  vga      : Nat := 0x10
  losTh    : Nat := 0x3
  rxPre    : Bool := false
  txEn     : Bool := false
  txInv    : Bool := false
  txRate   : Nat := 0xF
  swing    : Nat := 0x8
  pre2     : Nat := 0
  pre1     : Nat := 0
  post1    : Nat := 0
  txPre    : Bool := false
  rxState  : Nat := 0
  los      : Bool := true
  lol      : Bool := true
  rateNow  : Nat := 0xF
  order    : Nat := 0
  restarts : Nat := 0
  freq     : Int := 0
  height   : Nat := 0
  width    : Nat := 0
  ctleNow  : Nat := 0
  vgaNow   : Nat := 0
  dfe      : List Int := []
  ctrs     : Ctrs := []
  good     : Nat := 0
  bad      : Nat := 0
  adapted  : Bool := false
  trueRun  : Nat := 0
  compRun  : Nat := 0
  idents   : List Nat := []
  acqAt    : Time := 0
  stepAt   : Time := 0
  search   : Nat := 0
  testRx   : Nat := 0
  testTx   : Nat := 0
  testLock : Bool := false
  deriving DecidableEq, Repr, Inhabited

end Sys2Proof.Machine
end

