-- ==== Sys2Proof/Machine/StateSdi.lean ====
section
/-! DEFINITION. State of the SDI receivers and transmitters (chapter 4). -/

namespace Sys2Proof.Machine

/-- Word alignment of one data stream (R119): the position of the last TRS, how many in a row stood there, the position
in force, expected TRS absent in a row, and the receiver's own count of the line being received, 0 before the first line 1
(R123). -/
structure Align where
  last   : Nat := 0
  run    : Nat := 0
  held   : Option Nat := none
  absent : Nat := 0
  line   : Nat := 0
  deriving DecidableEq, Repr, Inhabited

/-- The recovered word stream of an SDI-over-IP framer (R190): the datagram that comes next, by its number in the frame or field, none
until a marker has come; the bits of datagrams not yet read as lines; how many lines of the frame have been read; the active words of
the last one; and whether the frame boundary at line 1 is due (1) or has passed (2). -/
structure Wire where
  index : Option Nat := none
  bits  : List Bool := []
  line  : Nat := 0
  prev  : List Nat := []
  edge  : Nat := 0
  deriving DecidableEq, Repr, Inhabited

/-- An entry of the ancillary filter (R135): action 0 unused, 1 keep, 2 drop. -/
structure AncFilter where
  action : Nat := 0
  did    : Nat := 0
  sdid   : Nat := 0
  deriving DecidableEq, Repr, Inhabited

/-- An SDI receiver (R116 to R141): its configuration, STATE as SDI_RX_STATUS codes it, what it has measured, its word
alignment by stream, whether the present frame is being measured, the lines of the present frame with a CRC or EDH error and those
that a counter has counted, by essence, its missing TRS and start, the active words of its lines (key stream × 4096 + line), the
frame before it with its pictures by essence, the words of both that the line buffers hold uncorrectable (by essence, row and word
of the row), the running EDH CRCs of the field, the filter, the audio map (stream × 32 + channel
− 1 to source channel + 1) with what control packets have said of the AES pairs, and the multi-link group with the link number
of the last payload identifier; and a framer's word stream. -/
structure SdiRx where
  en       : Bool := false
  cfgFormat : Nat := 0xFF
  cfgMapping : Nat := 0xFF
  cfgSampling : Nat := 0xFF
  crcLimit : Nat := 0
  state    : Nat := 0
  format   : Nat := 0xFF
  mapping  : Nat := 0xF
  sampling : Nat := 0x7
  hasPid   : Bool := false
  pid      : Word := 0
  claim    : Word := 0
  claimFc  : Word := 0
  link     : Nat := 0
  group    : Nat := 0x3F
  streams  : Tab Align := []
  measuring : Bool := false
  errAt    : List (Nat × Nat) := []
  counted  : List (Nat × Nat × Nat) := []
  rows     : Tab (List Nat × List Nat) := []
  done     : Tab (List (List (List Nat))) := []
  edhFf    : Nat := 0
  edhAp    : Nat := 0
  pidLink  : Nat := 0
  badWords : List (Nat × Nat × Nat) := []
  doneBad  : Tab (List (Nat × Nat)) := []
  pairs    : Tab (Nat × Bool) := []
  trsLost  : Bool := false
  start    : Time := 0
  prevStart : Time := 0
  began    : Bool := false
  filter   : Tab AncFilter := []
  audio    : Tab Nat := []
  csBits   : Tab (List Bool) := []
  rateBad  : List Nat := []
  wire     : Wire := {}
  ctrs     : Ctrs := []
  deriving DecidableEq, Repr, Inhabited

/-- A channel-status block setting (R148, R374): host-supplied or generated, its 23 bytes, and a block that waits for the
next Z flag. -/
structure CsBlock where
  host  : Bool := false
  bytes : List Byte := []
  next  : Option (Bool × List Byte) := none
  deriving DecidableEq, Repr, Inhabited

/-- A line as a transmitter generates it on one data stream (R144): its number, the XYZ words of its EAV and SAV, the line-number
words, the active words of Y and C, and the CRC-18s that follow them. -/
structure TxLine where
  stream : Nat
  line   : Nat
  eav    : Nat
  sav    : Nat
  ln     : List Nat
  y      : List Nat
  c      : List Nat
  crcY   : Nat
  crcC   : Nat
  deriving DecidableEq, Repr

/-- An audio data packet as the embedder places it (R147): data stream, line, group, the clock phase word, the audio frame
number, and the group's four samples with their V, U, C and Z bits. -/
structure EmbPacket where
  stream  : Nat
  line    : Nat
  group   : Nat
  phase   : Nat
  frameNo : Nat
  samples : List EmbSample
  deriving DecidableEq, Repr

/-- An SDI transmitter (R142 to R150): its configuration, SDI_TX_STATUS.STATE, the format in use, the audio map (stream
× 32 + channel − 1 to destination channel + 1), the channel-status blocks, its own frame count, the output frame that it
began last, the packets of the frame being sent, those of the frame that it shows which come before the next switching line, the
frame's lines, the audio packets placed since it began, the EDH CRCs of the field before, the user data words of the last claim
packets, and the multi-link group. -/
structure SdiTx where
  en       : Bool := false
  cfgMapping : Nat := 0xF
  cfgSampling : Nat := 0
  claimIns : Bool := false
  st352    : Bool := true
  ancIns   : Bool := true
  state    : Nat := 0
  format   : Nat := 0xFF
  mapping  : Nat := 0xF
  claimOn  : Bool := false
  group    : Nat := 0x3F
  link     : Nat := 0
  audio    : Tab Nat := []
  cs       : Tab CsBlock := []
  frames   : Nat := 0
  lastK    : Option Nat := none
  out      : List AncPacket := []
  low      : List AncPacket := []
  lines    : List TxLine := []
  emb      : List EmbPacket := []
  claimUdw : List Nat := []
  ctrs     : Ctrs := []
  deriving DecidableEq, Repr, Inhabited

/-- A multi-link group (R130 to R133): direction 1 receive, 2 transmit; `next` is a W that waits for the next
reference-link frame, and `ending` says that the group dissolves when its last member has stopped. -/
structure MultiLink where
  used    : Bool := false
  mapping : Nat := 0
  window  : Nat := 16
  next    : Option Nat := none
  lanes   : List Nat := []
  ending  : Bool := false
  deriving DecidableEq, Repr, Inhabited

end Sys2Proof.Machine
end

