-- ==== Sys2Proof/Machine/StateEth.lean ====
section
/-! DEFINITION. State of the Ethernet ports and the MAC blocks (chapter 5). -/

namespace Sys2Proof.Machine

/-- A frame held in a receive queue or a ring, with the VID and PCP of R163. -/
structure RxHeld where
  port  : Nat
  queue : Nat
  vid   : Nat
  pcp   : Nat
  host  : Bool
  frame : EthFrame
  deriving DecidableEq, Repr

/-- The Ethernet, IPv4 and UDP headers of a media packet (R210): the destination MAC address, VID and PCP of its tag, the
addresses, the ports, TTL and DSCP. DF is 1, the identification, ECN and the UDP checksum 0. -/
structure MediaHdr where
  mac   : List Byte
  tag   : Option (Nat × Nat)
  src   : Nat
  dst   : Nat
  sport : Nat
  dport : Nat
  ttl   : Nat
  dscp  : Nat
  deriving DecidableEq, Repr

/-- A media packet (R209, R217): flow, path, sequence number, timestamp, marker, header extension, the time it was scheduled for, its
payload type and SSRC, its payload and its headers. -/
structure Media where
  flow   : Nat
  path   : Nat
  seq    : Nat
  ts     : Nat
  marker : Bool
  ext    : List Byte
  sched  : Time
  pt     : Nat
  ssrc   : Word
  payload : List Byte
  hdr    : MediaHdr
  deriving DecidableEq, Repr

/-- A PTP message that a port sends (R50, R54, R55): its time base, port and kind, the header fields, whether it answers in
unicast, the timestamp and correction fields, which a departing Sync and Pdelay_Resp rewrite, the priorities and class of an
Announce, the identity that a response answers, and whether the UDP checksum is sent as zero. -/
structure PtpOut where
  tb       : Nat
  port     : Nat
  kind     : PtpKind
  domain   : Nat
  seq      : Nat
  interval : Int
  unicast  : Bool := false
  stamp    : Time := 0
  correction : Time := 0
  prio1    : Nat := 0
  clockClass : Nat := 0
  prio2    : Nat := 0
  requester : Nat := 0
  zeroSum  : Bool := false
  deriving DecidableEq, Repr

/-- A frame held in a transmit queue: its length on the wire with tag and FCS, the VID and PCP of its queue's tag (R167), and
what it carries. -/
structure TxHeld where
  len   : Nat
  bytes : List Byte := []
  tag   : Option (Nat × Nat) := none
  media : Option Media := none
  ptp   : Option PtpOut := none
  deriving DecidableEq, Repr

/-- A queue's configuration (R169, `MAC_QUEUE_CONFIG`). -/
structure QueueCfg where
  min  : Nat
  max  : Nat
  fc   : Bool
  tag  : Bool
  xoff : Nat
  xon  : Nat
  vid  : Nat
  pcp  : Nat
  deriving DecidableEq, Repr

/-- A queue (R165, R166): its configuration, none at the default; whether `MAC_QUEUE_DISABLE` has stopped it; the frames
it holds; the pause in force; whether it stands above XOFF and not yet at XON, with when a pause was last sent. -/
structure Queue where
  cfg     : Option QueueCfg := none
  stopped : Bool := false
  rx      : List RxHeld := []
  tx      : List TxHeld := []
  paused  : Option Time := none
  above   : Bool := false
  pauseAt : Time := 0
  deriving DecidableEq, Repr, Inhabited

/-- A port (R156 to R173, R179, R214). LINK is as MAC_PORT_STATUS codes it, but for step 2 of R158, which
`portLink` shows. `pauseFor` lists the queues for which a pause frame is pending, `releaseDue` says that a queue has fallen to XON and the
release has not been called for, `pauseSent` the times of the last pause
frame sent, by priority; `lastSent` is the last frame sent. `depth` is the depth of
the MAC-to-lane crossing that bring-up measured, in cycles of the lane clock (R547). `ip`, the prefix length `plen` and `igmp` are `FLOW_PORT_IP`'s, address 0
meaning none. -/
structure Port where
  en       : Bool := false
  fec      : Nat := 3
  fc       : Nat := 0
  allmulti : Bool := true
  promisc  : Bool := false
  pvid     : Nat := 1
  rxMtu    : Nat := 0x2400
  ctrlMtu  : Nat := 0x05EE
  addr     : List Byte := [0, 0, 0, 0, 0, 0]
  pauseTime : Nat := 0xFFFF
  prioQ    : Nat := 0x00FAC688
  link     : Nat := 0
  aligned  : Bool := false
  alignedAt : Time := 0
  rf       : Bool := false
  hiSer    : Bool := false
  depth    : Nat := 4
  rxq      : Tab Queue := []
  txq      : Tab Queue := []
  pauseFor : List Nat := []
  releaseDue : Bool := false
  pauseSent : List (Nat × Nat) := []
  lastSent : Option TxHeld := none
  ip       : Nat := 0
  plen     : Nat := 24
  igmp     : Nat := 3
  pace     : Nat := 90
  ctrs     : Ctrs := []
  deriving DecidableEq, Repr, Inhabited

/-- A steering filter entry (R164, `MAC_FILTER`). -/
structure MacFilter where
  action    : Nat := 0
  queue     : Nat := 0
  ports     : Nat := 0
  pcp       : Nat := 0xFF
  vid       : Nat := 0xFFFF
  etherType : Nat := 0
  ipProto   : Nat := 0xFF
  daClass   : Nat := 0
  dport     : Nat := 0
  deriving DecidableEq, Repr, Inhabited

/-- A MAC block, one for each octet 0 to 15: its filter, the control-plane and PTP rings to Perby (R174), and the host
list (R176). `cells` counts the cells of its buffer that frames hold: the stock FREE is 4,096 less these (R168). -/
structure Mac where
  filter : Tab MacFilter := []
  ctrl   : List RxHeld := []
  ptp    : List RxHeld := []
  host   : List RxHeld := []
  cells  : Nat := 0
  deriving DecidableEq, Repr, Inhabited

end Sys2Proof.Machine
end

