-- ==== Sys2Proof/Machine/StateFlow.lean ====
section
/-! DEFINITION. State of the IP media flows and the flow table (chapter 6). -/

namespace Sys2Proof.Machine

/-- An entry of a sample memory word (R357), or a destination word with the bits a transparent destination carries. -/
structure Sample where
  v24  : BitVec 24 := 0
  frac : BitVec 8 := 0
  v    : Bool := false
  u    : Bool := false
  c    : Bool := false
  z    : Bool := false
  fill : Bool := false
  deriving DecidableEq, Repr, Inhabited

/-- A path of a receive flow as configured (`FLOW_RX_PATH`). -/
structure RxPath where
  port : Nat
  dst  : Nat
  src  : Nat
  udp  : Nat
  vid  : Nat
  deriving DecidableEq, Repr

/-- A flow table entry (R193): a path of a receive flow with its place's PENDING and RETIRE bits, which name the Eve bank
that set them. -/
structure TblEntry where
  path    : RxPath
  flow    : Nat
  leg     : Nat
  pending : Option Nat := none
  retire  : Option Nat := none
  deriving DecidableEq, Repr

/-- The flow table (R191 to R201): STATE as FLOW_TBL_STATUS codes it; the active half and the spare as tables by place
(way × 16,384 + index; 65,536 on is the stash); the keys; and a re-key's progress: whether its placement has ended,
`switchAt` the house time named for step 3, `switched` when step 3 happened. -/
structure FlowTbl where
  state    : Nat := 0
  half     : Bool := false
  stashTh  : Nat := 0x20
  epoch    : Word := 0
  key      : BitVec 128 := 0
  active   : Tab (Option TblEntry) := []
  spare    : Tab (Option TblEntry) := []
  newKey   : BitVec 128 := 0
  placed   : Bool := false
  switchAt : Option Time := none
  switched : Option Time := none
  retryAt  : Time := 0
  ctrs     : Ctrs := []
  deriving DecidableEq, Repr, Inhabited

/-- A sample row data segment of ST 2110-20: the row of the frame or field, the second-field bit, the pixel at which it begins, and
its pixel groups (R185, R202). -/
structure RowSeg where
  row    : Nat
  second : Bool
  offset : Nat
  data   : List Byte
  deriving DecidableEq, Repr

/-- A video or ancillary frame that a receive flow has begun (R206, R207): its timestamp, the lowest packet accepted, the
timestamp of the frame before it since enable or resync, the number that the marker of that frame gives its first packet, the marker with its arrival, when a later frame's packet was accepted with the lowest such
sequence number, the numbers accepted, the second-field bit of its packets, whether its lowest packet begins with the raster's
first pixel, and the row segments that its packets brought. -/
structure IpFrame where
  ts      : Nat
  first   : Nat
  prev    : Option Nat
  own     : Option Nat := none
  marker  : Option (Nat × Time) := none
  later   : Option (Nat × Time) := none
  got     : List Nat := []
  start   : Time := 0
  second  : Bool := false
  head    : Bool := false
  segs    : List RowSeg := []
  deriving DecidableEq, Repr

/-- A receive flow (R183 to R208, R218 to R227): its configuration, its paths, STATE, the merge window (R204: H, L and
the two seen bits by sequence number), frames in progress, and when each path last had a packet. `claims` lists the
claims seen with their times (R219), `lastMark` the timestamp and the marker of the frame begun last, `closed` the frames that have
closed and that a ring has yet to take, `waiting` the packets of an ancillary flow that wait for their video frame, with path and
arrival (R189), `csBits` the channel-status bits by channel with the media index that continues them (R188), `grams` the datagrams of
an ST 2022-6 flow that wait for the one before them, and `nextGram` the next one's number (R190). -/
structure RxFlow where
  type     : Nat := 0
  ssrcLock : Bool := false
  witness  : Bool := false
  claimFilter : Bool := false
  format   : Nat := 0
  sampling : Nat := 0
  pt       : Nat := 0
  claimId  : Nat := 7
  ssrc     : Word := 0
  dest     : Nat := 0xFFFF
  channels : Nat := 0
  ptime    : Nat := 0
  skew     : Nat := 0
  lossLimit : Nat := 0
  offset   : Nat := 0
  minPayload : Nat := 0
  fill     : List Byte := []
  pathA    : Option RxPath := none
  pathB    : Option RxPath := none
  en       : Bool := false
  held     : Option Word := none
  blocks   : Nat := 0
  claimA   : Word := 0
  claimB   : Word := 0
  seenA    : Nat := 0
  seenB    : Nat := 0
  upA      : Bool := false
  upB      : Bool := false
  lastA    : Time := 0
  lastB    : Time := 0
  top      : Option Nat := none
  low      : Nat := 0
  win      : Tab Nat := []
  lateRun  : Nat := 0
  claims   : List (Nat × Time) := []
  frames   : List IpFrame := []
  lastTs   : Option Nat := none
  lastMark : Option (Nat × Nat) := none
  closed   : List IpFrame := []
  waiting  : List (Nat × Rtp × Time × Time) := []
  csBits   : Tab (Nat × List Bool) := []
  grams    : List (Nat × Bool × Time × List Byte) := []
  nextGram : Option Nat := none
  ctrs     : Ctrs := []
  deriving DecidableEq, Repr, Inhabited

/-- A path of a send flow (`FLOW_TX_PATH`). -/
structure TxPath where
  port : Nat
  dst  : Nat
  udp  : Nat
  vid  : Nat
  pcp  : Nat
  mac  : List Byte
  deriving DecidableEq, Repr

/-- A send flow (R209 to R217): its configuration, its paths, STATE, the next sequence number, the greatest lateness, and by path
whether a packet was built while it had no such path. `k` counts the packets
scheduled of the frame or field in progress and `base` is its reference; for audio, the block of the last packet (R212).
`frameClaim` is the claim of the frame being sent, `claimSent` says that the last packet sent carried one (R217), `load` holds the
payloads of an ancillary frame (R189), and `taken` by block the samples of its destinations, channel by channel (R356). -/
structure TxFlow where
  type     : Nat := 0
  dual     : Bool := false
  claim    : Bool := false
  typeW    : Bool := false
  bpm      : Bool := false
  format   : Nat := 0
  sampling : Nat := 0
  pt       : Nat := 0
  claimId  : Nat := 7
  ssrc     : Word := 0
  source   : Nat := 0xFFFF
  channels : Nat := 0
  ptime    : Nat := 0
  maxPayload : Nat := 0
  seqInit  : Nat := 0
  tro      : Nat := 0
  dscp     : Nat := 0
  ttl      : Nat := 0
  srcUdp   : Nat := 0
  pathA    : Option TxPath := none
  pathB    : Option TxPath := none
  en       : Bool := false
  seq      : Nat := 0
  k        : Nat := 0
  base     : Time := 0
  late     : Nat := 0
  claimSent : Bool := false
  frameClaim : Word := 0
  load     : List (List Byte) := []
  taken    : Tab (List (List Sample)) := []
  lacked   : List Nat := []
  ctrs     : Ctrs := []
  deriving DecidableEq, Repr, Inhabited

/-- A multicast membership (R221): the port, the group, and the source that an IGMPv3 INCLUDE names, 0 for any. -/
structure McGroup where
  port  : Nat
  group : Nat
  src   : Nat
  deriving DecidableEq, Repr

/-- The FLOW block. `free` is FLOW_POOL.FREE; `groups` lists the multicast groups joined; `igmpSent` and `arpSent` count Perby's
frames by port (R221). -/
structure Flows where
  tbl   : FlowTbl := {}
  rx    : Tab RxFlow := []
  tx    : Tab TxFlow := []
  free  : Nat := 8192
  groups : List McGroup := []
  igmpSent : Tab Nat := []
  arpSent  : Tab Nat := []
  deriving DecidableEq, Repr, Inhabited

end Sys2Proof.Machine
end

