-- ==== Sys2Proof/Machine/StateMemc.lean ====
section
/-! DEFINITION. State of the frame store's controller MEMC (chapter 7). -/

namespace Sys2Proof.Machine

/-- A request that holds a tag of a pseudo-channel (R247), and when its burst was issued. -/
structure MemTask where
  req    : MemReq
  issued : Time := 0
  deriving DecidableEq, Repr

/-- A pseudo-channel (R229 to R261): STATE as MEMC_PC_STATUS codes it, the Holiday in progress (kind, true a retrain, and
the time from which it may end), the last corrected symbol, the requests that wait for a tag, that are queued, that
are issued and whose read data is on its way back, the direction served (R248), the row last opened, what makes each kind of Holiday due, the last retrain with
the stack temperature then, the last unresponsive read, the error counts and time at which the window of R260
began, the targeted scrub queue, the next word of the patrol and when its pass began, the tags that requests hold (R247: the stock FREE is 512 less these),
and the counters. -/
structure Pc where
  state    : Nat := 0
  holiday  : Option (Bool × Time) := none
  lastSym  : Nat := 0x3F
  waiting  : List MemReq := []
  queue    : List MemTask := []
  issued   : List MemTask := []
  returning : List MemTask := []
  writing  : Bool := false
  openRow  : Option Nat := none
  due      : Option Time := none
  dueRetrain : Option Time := none
  lastRetrain : Time := 0
  tempAt   : Int := 0
  lastUnresp : Option Time := none
  ceAt     : BitVec 48 := 0
  ueAt     : BitVec 48 := 0
  winAt    : Time := 0
  targets  : List Nat := []
  scrubNext : Nat := 0
  scrubAt  : Option Time := none
  taken    : Nat := 0
  ctrs     : Ctrs := []
  deriving DecidableEq, Repr, Inhabited

/-- A ring's parameters as `MEMC_RING_CONFIG` last set them (R236, R237, R242). -/
structure RingCfg where
  depth : Nat := 4
  key   : Bool := false
  anc   : Nat := 16
  deriving DecidableEq, Repr, Inhabited

/-- A retirement in progress (R268): the pseudo-channels leaving (R270), whether it is forced, whether step 2 is done
and since when it runs, and the command that is owed the completion event. -/
structure Retire where
  pcs    : List Nat
  forced : Bool
  copied : Bool
  since  : Time := 0
  mbx    : Nat
  tag    : Word
  deriving DecidableEq, Repr

/-- MEMC (R231 to R275): its configuration registers, the key state and placement key, a lead's key that waits for a
retirement to end (R269), the retirement, PLACE_EPOCH, the in-service set, the control window, when the last Holiday
ended, the symbols with which a word stands in HBM otherwise than its encoder made it, the poison signature
among them (R25, R233; by word number in the device address space; a word not listed bears the check bits of its data), the in-service set at
initialisation with the system granules moved since (R234, R268), when a failed key draw is retried, and each slot's
ring parameters. -/
structure Memc where
  autoRetire : Bool := false
  migPar   : Nat := 0x40
  ueTh     : Nat := 0x10
  ceExp    : Nat := 0x10
  keyState : Nat := 0
  key      : BitVec 128 := 0
  newKey   : Option (BitVec 128) := none
  retire   : Option Retire := none
  epoch    : Nat := 0
  set      : List Nat := []
  winEn    : Bool := false
  winPc    : Nat := 0
  scrubEn  : Bool := true
  periodH  : Nat := 4
  retrainMs : Nat := 100
  tempStep : Nat := 5
  lastHoliday : Option Time := none
  errs     : Tab SymErr := []
  sysSet   : List Nat := []
  sysMoved : Tab (Option (Nat × Nat)) := []
  retryAt  : Time := 0
  partnerSet : Option (List Nat) := none
  partnerOk  : Bool := true
  partnerHeard : Bool := false
  rings    : Tab RingCfg := []
  pcs      : Tab Pc := []
  deriving DecidableEq, Repr, Inhabited

end Sys2Proof.Machine
end

