-- ==== Sys2Proof/Machine/StateFab.lean ====
section
/-! DEFINITION. State of routing and frame synchronisation (chapter 8). -/

namespace Sys2Proof.Machine

/-- A ring's layout (R237, R244, R245): the in-service set and key it was made under, its depth and ancillary granules,
granules per slot, and its extents. -/
structure Layout where
  set     : List Nat := []
  key     : BitVec 128 := 0
  depth   : Nat := 4
  anc     : Nat := 16
  g       : Nat := 0
  extents : List Nat := []
  epoch   : Nat := 0
  deriving DecidableEq, Repr, Inhabited

/-- A slot of a ring (R282): state 0 FREE, 1 WRITING, 2 READY, 3 ABANDONED; its index within the layout it was written
under, whether that is the old layout of a migration, its frame's number, START, ready time, RTP timestamp and
ancillary packets with the words they take. -/
structure Slot where
  state : Nat := 0
  index : Nat := 0
  old   : Bool := false
  num   : Nat := 0
  start : Time := 0
  ready : Time := 0
  ts    : Nat := 0
  anc   : List AncPacket := []
  words : Nat := 0
  deriving DecidableEq, Repr, Inhabited

/-- An ingress stream and its ring, named by its first ingress slot (R236, R276, R281): `n` is 0 where no ring exists,
`bound` says whether the binding stands; the layouts, the slots, the frames begun (the next frame's number), the STARTs
of the newest frames and the last start-to-ready times (R288), newest first, when the newest frame was begun, the
frame numbers abandoned that a reader may still ask for, and the ring's ANC_OVERFLOW. -/
structure Stream where
  bound    : Bool := false
  n        : Nat := 0
  kind     : Nat := 0
  id       : Nat := 0
  format   : Nat := 0xFF
  sampling : Nat := 0xF
  lay      : Layout := {}
  old      : Option Layout := none
  slots    : List Slot := []
  next     : Nat := 0
  starts   : List Time := []
  rs       : List Time := []
  begunAt  : Time := 0
  overflow : BitVec 48 := 0
  ctrs     : Ctrs := []
  deriving DecidableEq, Repr, Inhabited

/-- A timing group (R279, R280), with the output frame last planned, the one last confirmed and the boundary last passed. -/
structure TimGroup where
  format : Nat := 0xFF
  hyst   : Nat := 1
  phase  : Nat := 0
  frac   : Nat := 0
  plannedK : Nat := 0
  confK    : Nat := 0
  bK       : Nat := 0
  deriving DecidableEq, Repr, Inhabited

/-- A member of an alignment group (R291): kind 1 ring, 2 ancillary flow, 3 audio range. -/
structure AlignMember where
  kind     : Nat
  id       : Nat
  channels : Nat
  deriving DecidableEq, Repr

/-- An explicit alignment group (R291): state 0 unused, 1 host-defined, 2 multi-link. -/
structure AlignGroup where
  state   : Nat := 0
  members : List AlignMember := []
  ctrs    : Ctrs := []
  deriving DecidableEq, Repr, Inhabited

/-- A route (R285 to R299). -/
structure Route where
  srcKind : Nat := 0
  src     : Nat := 0
  locked  : Bool := false
  vdelay  : Nat := 0
  llWin   : Nat := 8
  base    : Nat := 0xFFFF
  count   : Nat := 0
  av      : Int := 0
  deriving DecidableEq, Repr, Inhabited

/-- A frame of a group that a raster holds: the reference frame's number, the frames read by ring and number, and the
reference START. -/
structure GroupFrame where
  num   : Nat
  parts : List (Nat × Nat)
  start : Time
  deriving DecidableEq, Repr

/-- The plan for an output frame (R289): the output frame, whether it is a take frame, its position and the
frame that the position and VDELAY name. -/
structure Plan where
  k      : Nat
  take   : Bool
  repeats : Bool
  pos    : Nat
  parts  : List (Nat × Nat)
  deriving DecidableEq, Repr

/-- A take that waits for its frame, or that has been tried and waits for a frame of the new source (R301, R302). -/
structure Take where
  route : Route
  k     : Nat
  armed : Bool
  deriving DecidableEq, Repr

/-- A ledger plan (R304, R467): output frame, START named, take and hold flags, and follow delay. -/
structure LedgerPlan where
  k     : Nat
  start : Nat
  take  : Bool
  hold  : Bool
  d     : Int
  deriving DecidableEq, Repr

/-- A marker (R348). -/
structure Marker where
  en    : Bool := false
  x     : Nat := 0
  y     : Nat := 0
  glyph : Nat := 0
  scale : Nat := 0
  on    : Nat := 0
  off   : Nat := 0
  deriving DecidableEq, Repr, Inhabited

/-- An output raster, named by its first egress slot (R278 to R305, R341 to R349): `n` is 0 where none is bound. The
route in force with the position and the frame shown, the plan, the takes that wait by frame, the follow state (m,
the λ term in samples, d), line-locked misses in a row and the exit, the take record with the take instant (R346), ledger plans, when
the raster starts, the configuration of its picture (`bgSet`: a command has set the background), the frame being sent with its picture, under the markers and as
sent, and the one before as sent, the lines of a line-locked frame that its producer has still to write (R300), whether a line of
it underran, the end of the line at which an immediate stop ends the raster
(R32), and counters. -/
structure Raster where
  n        : Nat := 0
  tg       : Nat := 0
  sampling : Nat := 0
  kind     : Nat := 0
  id       : Nat := 0
  startAt  : Time := 0
  route    : Route := {}
  exited   : Bool := false
  misses   : Nat := 0
  pos      : Option Nat := none
  shown    : Option GroupFrame := none
  plan     : Option Plan := none
  takes    : List Take := []
  m        : Int := 0
  lam      : Int := 0
  delay    : Int := 0
  takeFb   : Time := 0
  takeAt   : Time := 0
  takeStart : Nat := 0
  oldSrc   : Nat := 0
  newSrc   : Nat := 0
  ledger   : List LedgerPlan := []
  keyout   : Bool := false
  bg       : BitVec 48 := 0
  bgSet    : Bool := false
  markers  : Tab Marker := []
  palette  : Tab Nat := []
  frame    : Nat := 0
  pic      : Planes := []
  sent     : Planes := []
  prior    : Planes := []
  toCome   : Nat := 0
  under    : Bool := false
  halted   : Bool := false
  cutAt    : Option Time := none
  ctrs     : Ctrs := []
  outCtrs  : Ctrs := []
  deriving DecidableEq, Repr, Inhabited

/-- The FAB block. `glyphs` is the glyph store and `newGlyphs` the hidden copies that rasters have still to change to, with
the rasters that have not (R347). -/
structure Fab where
  streams  : Tab Stream := []
  rasters  : Tab Raster := []
  tgs      : Tab TimGroup := []
  ags      : Tab AlignGroup := []
  glyphs   : Tab (List Byte) := []
  newGlyphs : List (Nat × List Byte × List Nat) := []
  deriving DecidableEq, Repr, Inhabited

end Sys2Proof.Machine
end

