-- ==== Sys2Proof/Machine/StateCnv.lean ====
section
/-! DEFINITION. State of the conversion pool (chapter 9). -/

namespace Sys2Proof.Machine

/-- A source picture (R319): frame number and field. -/
structure Picture where
  num   : Nat
  field : Nat
  deriving DecidableEq, Repr

/-- A converter ledger entry that has arrived (R321, R467): picture, STARTs of A and B in ns modulo 2^48, weight, and
whether it names no picture. -/
structure LedgerPic where
  j      : Nat
  q      : Nat
  startA : Nat
  startB : Nat
  w      : Nat
  noPic  : Bool
  deriving DecidableEq, Repr

/-- A picture's selection (R319): A, B, the weight, and whether R320 made it. -/
structure Selection where
  a    : Option Picture := none
  b    : Option Picture := none
  w    : Nat := 0
  late : Bool := false
  deriving DecidableEq, Repr, Inhabited

/-- A converter engine (R312 to R340). `conf` is the `CNV_CONFIG` payload in force on the first engine of a gang ([]
none); a member keeps `lead`. `tdelay` is TDELAY in force; the selection state is the last picture's A, B, weight and
LATE, with the START of A's frame. `frames` lists the output frames in progress (frame index, ring, frame number), and
`lastJ`, `lastQ` the last picture begun. `subst` is a substitution that waits: the engine that
takes over, its first output frame, and whether it is automatic; `resume` is the output frame from which the engine
resumes after a contained reset. `sent` is the last selection that went to the ledger, with its picture (R467), `cur` the selection of the last
picture and `lastOut` the last output picture, composed with the free values from number `draw` on; `bad` lists the words that
its reads have since found poisoned (R331). `tokens` is the stock FREE of R334, beside those in FETCH, HELD and OUT. -/
structure Engine where
  conf    : List Byte := []
  lead    : Option Nat := none
  en      : Bool := false
  retired : Bool := false
  tdelay  : Nat := 0
  selA    : Option Picture := none
  selB    : Option Picture := none
  startA  : Option Time := none
  w       : Nat := 0
  late    : Bool := false
  frames  : List (Nat × Nat × Nat) := []
  lastJ   : Option Nat := none
  lastQ   : Nat := 0
  subst   : Option (Nat × Nat × Bool) := none
  resume  : Option Nat := none
  resets  : List Time := []
  fetch   : Nat := 0
  held    : Nat := 0
  out     : Nat := 0
  tokens  : Nat := 48
  ledger  : List LedgerPic := []
  sent    : Option (Nat × Nat × Selection) := none
  cur     : Selection := {}
  lastOut : Planes := []
  draw    : Nat := 0
  bad     : List Nat := []
  ctrs    : Ctrs := []
  deriving DecidableEq, Repr, Inhabited

/-- The conversion pool: engines, the host's coefficient banks and table sets (R325, R329), and SPARE_AUTO. -/
structure Cnv where
  engines   : Tab Engine := []
  spareAuto : Bool := false
  banks     : Tab (List Byte) := []
  luts      : Tab (List Byte) := []
  deriving DecidableEq, Repr, Inhabited

end Sys2Proof.Machine
end

