-- ==== Sys2Proof/Machine/StateAud.lean ====
section
/-! DEFINITION. State of the audio core and its ports (chapter 10). -/

namespace Sys2Proof.Machine

/-- A word of the sample memory at 48 kHz, or the two of a block at 96 kHz (R357): the block number, WRITTEN being that
the word is listed at all, and its samples by position, with the positions that the producer wrote. `bad` says by word which
is uncorrectable: true in the memory, false at the checker's input for the next block mixed (R495). -/
structure SampleBlock where
  n       : Nat
  samples : Tab (Option Sample)
  bad     : Tab (Option Bool) := []
  deriving DecidableEq, Repr

/-- A source channel (R359 to R363): producer kind (0 none, 1 SDI or IPR de-embedder, 2 receive flow, 3 AES3, 4 TDM) with
its number and lead A_c, HOLD, whether it passes through a converter channel and whether its shortage has been posted,
its ring newest first, the fade's progress (R362), the last sample stored with whether the producer wrote it and whether
it was a zero fill, P_c, the FIFO of a de-embedded channel with whether its first sample has been taken and the last
instant served (R550), sample positions filled, the last complete channel-status block with its time, and the lead's alignment entry (R467) with the shift that it has
given to the samples since the last Z, the last rate-converter entry (block, RATIO, PHASE) and the phase that its own converter
goes on from (R468). -/
structure AudSrc where
  kind   : Nat := 0
  id     : Nat := 0
  lead   : Nat := 0
  hold   : Nat := 0
  asrc   : Bool := false
  wantAsrc : Bool := false
  short  : Bool := false
  ring   : List SampleBlock := []
  fade   : Option Nat := none
  last   : Option Sample := none
  written : Bool := false
  zero   : Bool := false
  pages  : Nat := 0
  fifo   : List Sample := []
  started : Bool := false
  instant : Option Nat := none
  blocks : Nat := 0
  cs     : List Byte := []
  csAt   : Time := 0
  align  : Option Nat := none
  shift  : Int := 0
  ratio  : Option (Nat × Nat × Nat) := none
  phase  : Nat := 0
  ctrs   : Ctrs := []
  deriving DecidableEq, Repr, Inhabited

/-- A ramp on a cell (R380): the source and gain it starts from, the source and gain it goes to, its first block, and
its length in blocks. -/
structure Ramp where
  srcA  : Nat
  gA    : Int
  srcB  : Nat
  gB    : Int
  first : Nat
  len   : Nat
  deriving DecidableEq, Repr

/-- A change of a cell and the block from whose first sample it applies (R378). -/
structure CellChange where
  n     : Nat
  cell  : Nat
  word  : Nat
  deriving DecidableEq, Repr

/-- One side of a splice: source, gain and follow delay in samples. -/
structure CellRead where
  src   : Nat := 0
  gain  : Nat := 0
  delay : Int := 0
  deriving DecidableEq, Repr, Inhabited

/-- A splice of cell 0 (R297): its first block, the reads before and after, whether it has begun, and whether cell 0 then
returns to host control. -/
structure Splice where
  n     : Nat
  old   : CellRead
  new   : CellRead
  begun : Bool
  back  : Bool
  deriving DecidableEq, Repr

/-- A destination channel (R375 to R384): cells as words in force, ramps by cell, whether it is enabled (and a change of
that which waits for a block), the raster whose route manages cell 0 with the follow delay, the splice and one that
waits behind it, the words of the block last mixed and of the one before, whether the last block was transparent and the one before it,
MIXED and spb × B while it is disabled, and while it is enabled what the core's counts have beyond them (R385), counters. `off` counts samples not computed while disabled. -/
structure AudDst where
  cells  : Tab Nat := []
  ramps  : Tab (Option Ramp) := []
  en     : Bool := true
  route  : Option Nat := none
  delay  : Int := 0
  splice : Option Splice := none
  queued : Option Splice := none
  now    : List Sample := []
  out    : List Sample := []
  transp : Bool := false
  outTransp : Bool := false
  off    : Nat := 0
  dueOff : Nat := 0
  ctrs   : Ctrs := []
  deriving DecidableEq, Repr, Inhabited

/-- An audio port direction (R364 to R374): kind 1 AES3 input, 2 AES3 output, 3 TDM input, 4 TDM output, 5 WCLK_OUT. STATE
as the APRT registers code it, the configuration, the measured offset from nominal, since when an input has stayed in
tolerance, when its last valid preamble or FS came, the FIFO by channel (0 or 1, or the slot), whether its first sample has been taken and the last taken, the
last good samples, and the converter channels held. -/
structure AudPort where
  state   : Nat := 0
  set     : Bool := false
  mode    : Nat := 0
  rate    : Nat := 7
  base    : Nat := 0xFFFF
  lockPpm : Nat := 2
  holdoff : Nat := 100
  role    : Nat := 0
  fmt     : Nat := 0
  channels : Nat := 0
  freq    : Int := 0
  since   : Option Time := none
  heard   : Time := 0
  fifo    : Tab (List Sample) := []
  started : Bool := false
  instant : Option Nat := none
  lastOut : Tab Sample := []
  good    : Tab Sample := []
  csBits  : Tab (List Bool) := []
  asrc    : Nat := 0
  csHost  : Bool := false
  cs      : List Byte := []
  csNext  : Option (Bool × List Byte) := none
  parked  : Nat := 0
  ctrs    : Ctrs := []
  deriving DecidableEq, Repr, Inhabited

/-- The audio core: AUD_CFG, AUD_BLOCK, the block from which a new RAMP_BLOCKS is in force, free converter channels and
pages, samples computed since reset for each enabled destination and samples due from the blocks begun (R385), channels, destinations, ports by kind × 256 + port,
cell changes that wait, the measured word clock, device counters, and the matrix words found uncorrectable that Perby has still
to rewrite, with the INJECTED and COINCIDENT flags of the report it then makes (R382). -/
structure Aud where
  rate96   : Bool := false
  rampBlocks : Nat := 40
  rampNext : Option (Nat × Nat) := none
  block    : Nat := 0
  asrcFree : Nat := 256
  free     : Nat := 262144
  mixed    : Nat := 0
  due      : Nat := 0
  srcs     : Tab AudSrc := []
  dsts     : Tab AudDst := []
  ports    : Tab AudPort := []
  changes  : List CellChange := []
  wclkFreq : Int := 0
  wclkIn   : Bool := false
  ctrs     : Ctrs := []
  badCells : List (Nat × Bool × Bool) := []
  deriving DecidableEq, Repr, Inhabited

end Sys2Proof.Machine
end

