-- ==== Sys2Proof/Machine/State.lean ====
section
/-! DEFINITION. The machine's state: HBM, the device, and the queue of waiting commands; its faults and refusals; and
the state right after a power-on reset asserts. -/

namespace Sys2Proof.Machine

/-- Everything but HBM and the queue. `house` is house time (R41), `up` the time since power-on on XTAL that timers
count on, `free` numbers the next free value (log entry 6), `mode` is DEV_MODE.MODE (R4), `served` the house time from
which media outputs may run after entry to service (R512). -/
structure Dev where
  house  : Time := 0
  up     : Time := 0
  free   : Nat := 0
  mode   : Nat := 1
  served : Time := 0
  host   : HostIf := {}
  cfg    : Cfg := {}
  drains : List Drain := []
  flt    : Flt := {}
  rst    : Rst := {}
  boot   : Boot := {}
  flash  : Flash := {}
  upd    : Upd := {}
  pins   : Pins := {}
  twn    : Twn := {}
  tim    : Tim := {}
  octets : Tab Octet := []
  lanes  : Tab Lane := []
  sdiRx  : Tab SdiRx := []
  sdiTx  : Tab SdiTx := []
  mlinks : Tab MultiLink := []
  ports  : Tab Port := []
  macs   : Tab Mac := []
  flows  : Flows := {}
  memc   : Memc := {}
  fab    : Fab := {}
  cnv    : Cnv := {}
  aud    : Aud := {}
  deriving DecidableEq, Repr, Inhabited

/-- The machine. -/
structure State where
  hbm     : Mem
  dev     : Dev
  pending : List Instr
  deriving DecidableEq, Repr

/-- The device never stops with a fault of the model: a fatal fault is the SAFE mode (R489), a next state. This one
reason stands for a machine that could not go on; no meaning raises it (safe). -/
inductive Fault where
  | halted
  deriving DecidableEq, Repr

/-- Why a command has no meaning. -/
inductive Refusal where
  /-- Raised by an arm of `exec` whose command has no meaning yet (safe). -/
  | notModelled (mnemonic : String)
  deriving DecidableEq, Repr

/-- The machine right after the power-on reset asserts: mode HELD (R4), every field at its reset value, HBM and the
queue listing nothing. -/
def State.reset : State := { hbm := [], dev := {}, pending := [] }

end Sys2Proof.Machine
end

