-- ==== Sys2Proof/Machine/Ops.lean ====
section
/-! DEFINITION. The named operations over the state that every chapter shares: events and MSI-X (R409 to R412),
completion events (R33, R408), the mode (R511), free values, and times. -/

namespace Sys2Proof.Machine

abbrev Out := Host.Outcome State Fault Refusal

/-- A meaning that changes the device alone. -/
def onDev (f : Dev → Dev) (s : State) : Out := .next { s with dev := f s.dev }

/-- A meaning that changes the device when its condition holds; otherwise the event does not come about and the state
stands (log entry 2). -/
def onDevIf (c : Dev → Bool) (f : Dev → Dev) (s : State) : Out := onDev (fun d => if c d then f d else d) s

/-! ### Events and vectors -/

/-- Vector `v` is sent, or set pending while it is masked (R412). -/
def signal (v : Nat) (d : Dev) : Dev :=
  if d.host.msix.masked.getLsbD v then
    { d with host.msix.pending := d.host.msix.pending ||| BitVec.ofNat 64 (2 ^ v) }
  else { d with host.msix.sent := tupd d.host.msix.sent v (· + 1) }

/-- Entries present in the event ring (R409). -/
def Events.present (e : Events) : Nat := (e.prod + 16384 - e.cons) % 16384

/-- One entry is written at EVT_PROD, and its class's vector is sent if armed (R409, R411, R412). -/
def writeEntry (e : EventEntry) (d : Dev) : Dev :=
  let ev := d.host.evt
  let c := e.code / 256 % 16
  let entry := { e with phase := bitOf ev.prod 13, loss := ev.lossPending }
  let d := { d with
    host.evt :=
    { ev with ring := tset ev.ring (ev.prod % 8192) entry, prod := (ev.prod + 1) % 16384, lossPending := false } }
  if ev.armed.getLsbD c then
    signal (16 + c)
      { d with host.evt.armed := ev.armed &&& ~~~ (BitVec.ofNat 16 (2 ^ c)) }
  else d

/-- An event raised at the device's present house time (R409, R410): a disabled class is discarded, and an event other
than of class 0 that finds fewer than 257 free entries is lost. -/
def postEntry (e : EventEntry) (d : Dev) : Dev :=
  let ev := d.host.evt
  let c := e.code / 256 % 16
  if c ≠ 0 ∧ ev.enabled.getLsbD c = false then { d with host.evt.discard := ev.discard + 1 }
  else if c ≠ 0 ∧ 8192 - ev.present < 257 then
    { d with host.evt.lost := ev.lost + 1, host.evt.lossPending := true }
  else writeEntry e d

/-- An event with the given CODE, OBJECT and DATA. -/
def postEvent (code object : Nat) (data : List Byte) (d : Dev) : Dev :=
  postEntry { code := code, object := object, data := data, time := ns48 d.house } d

/-- The completion event of a command answered 0x0001 (R33, R404, R409). The mailbox number 0xFF stands for a command
that came from a bank or the mirror, to which no completion is owed. During a hitless restart the event waits for the
restart's end (R393). -/
def complete (mbx : Nat) (tag : Word) (opcode status outcome : Nat) (d : Dev) : Dev :=
  if mbx = 0xFF then d
  else
    let e : EventEntry := { code := 0x0001, object := mbx, tag := tag, time := ns48 d.house,
                            data := le 2 opcode ++ le 2 status ++ le 4 outcome }
    if d.host.restarting then { d with host.late := d.host.late ++ [e] } else postEntry e d

/-- One more completion event is owed (R408). -/
def owe (d : Dev) : Dev := { d with host.evt.owed := d.host.evt.owed + 1 }

/-! ### Mode and role -/

/-- The operating modes (R4, the table of operating modes). -/
abbrev HELD := 0x1
abbrev TRIM := 0x2
abbrev LOADER := 0x3
abbrev READY := 0x4
abbrev SOLO := 0x5
abbrev LEAD := 0x6
abbrev SHADOW := 0x7
abbrev HANDOVER := 0x8
abbrev DEGRADED := 0x9
abbrev MAINTENANCE := 0xA
abbrev SAFE := 0xB

/-- The device is in service: SOLO, LEAD, SHADOW, HANDOVER or DEGRADED (R511, R22). -/
def inService (d : Dev) : Bool := decide (SOLO ≤ d.mode ∧ d.mode ≤ DEGRADED)

/-- The mode whose behaviour applies: in DEGRADED that of the role held, role none meaning SOLO (R574). -/
def roleMode (d : Dev) : Nat :=
  if d.mode = DEGRADED then
    (if d.twn.role = 1 then LEAD else if d.twn.role = 2 then SHADOW else SOLO)
  else d.mode

/-- The claim that the unit supplies to its outputs (R458); 0 is none. A shadow taken from service keeps its own claim
until T_s (R469). -/
def claimSupplied (d : Dev) : Word :=
  let mk (role : Nat) : Word := BitVec.ofNat 32 (d.twn.e * 65536 + role * 16384 + d.twn.unit)
  if d.mode = HANDOVER ∨ (d.twn.pair = 1 ∧ d.twn.isShadow = true ∧ inService d = true) then d.twn.held
  else match roleMode d with
  | 0x5 => if d.twn.soloClaim then mk 3 else 0
  | 0x6 => mk 3
  | 0x7 => mk 1
  | _ => 0

/-- The claim supplied has changed: event 0x0702 with the new and the old claim (R483). -/
def noteClaim (d : Dev) : Dev :=
  let c := claimSupplied d
  if c = d.twn.lastClaim then d
  else postEvent 0x0702 0 (le 4 c.toNat ++ le 4 d.twn.lastClaim.toNat) { d with twn.lastClaim := c }

/-- The twin counters (R479). -/
abbrev tLINK_DOWN := 0x00
abbrev tLANE_DROP := 0x08
abbrev tRETRANSMIT := 0x10
abbrev tWORD_UE := 0x18
abbrev tHB_LOST := 0x20
abbrev tCLAIMS_TAKEN := 0x28
abbrev tHANDOVERS := 0x30
abbrev tUNACKED := 0x38
abbrev tLEDGER_SENT := 0x40
abbrev tLEDGER_RECV := 0x48
abbrev tLINES_COMPARED := 0x50
abbrev tLINES_MISMATCH := 0x58
abbrev tAUDIO_MISMATCH := 0x60
abbrev tRESYNCS := 0x68
def twnBump (k n : Nat) (d : Dev) : Dev := { d with twn.ctrs := bumpBy d.twn.ctrs k n }

/-- The unit sends the ledger (R467): in LEAD, and from T_m of its pairing on the unit that is to lead (R469 step 5). -/
def ledgerLead (d : Dev) : Bool :=
  decide (roleMode d = LEAD) || (decide (d.twn.pair = 1) && !d.twn.isShadow && d.twn.ledgerOn)

/-- A choice was made without the lead's ledger entry (R304, R321, R477 V3): `key` is the raster, or 4,096 and the
engine. -/
def ledgerMiss (key : Nat) (d : Dev) : Dev :=
  { d with twn.lastMiss := some d.up, twn.missRun := tset d.twn.missRun key (tget d.twn.missRun key + 1) }

/-- A ledger entry was applied. -/
def ledgerHit (key : Nat) (d : Dev) : Dev := twnBump tLEDGER_RECV 1 { d with twn.missRun := tset d.twn.missRun key 0 }

/-- DEV_MODE.MODE changes and event 0x0601 is posted (R511); leaving MAINTENANCE relocks debug (R417). Entry to
service starts the 200 us of R512. -/
def setMode (m : Nat) (d : Dev) : Dev :=
  if d.mode = m then d
  else
    let old := d.mode
    let d := { d with mode := m }
    let d := if old = MAINTENANCE then { d with host.debug := false } else d
    let d := if old = READY ∧ (m = SOLO ∨ m = LEAD ∨ m = SHADOW) then { d with served := d.house + 200 * us } else d
    noteClaim (postEvent 0x0601 0 (le 1 old ++ le 1 m) d)

/-- Media outputs run: the device is in service and R512's 200 us after entry have passed. -/
def outputsRun (d : Dev) : Bool := inService d && decide (d.served ≤ d.house)

/-- Receivers, rings, flows, time bases and the selector run: from READY onward, except in SAFE (R512). -/
def blocksRun (d : Dev) : Bool := decide (READY ≤ d.mode ∧ d.mode ≤ MAINTENANCE)

/-- Firmware serves: Perby is up and no restart is in progress (R392, R576). -/
def perbyServes (d : Dev) : Bool := d.host.perbyUp && !d.host.restarting && !d.host.stopped

/-! ### Free values -/

/-- The next free value (log entry 6). -/
def freeNat (d : Dev) : Nat := (Config.freeValue d.free).toNat

/-- The free-value counter moves on. -/
def useFree (d : Dev) : Dev := { d with free := d.free + 1 }

/-- A crossbar master that is hardware makes the accesses that its work takes (R414): how many beats that is, is a free value
(R9). -/
def masterWorks (m : Nat) (d : Dev) : Dev :=
  useFree { d with host.masters := tupd d.host.masters m fun x => { x with ctrs := bumpBy x.ctrs 0 (freeNat d % 2 ^ 16) } }

/-! ### Drains (R29 to R36) -/

/-- The drain of a function, if it is draining. -/
def drainOf (f : Func) (d : Dev) : Option Drain := d.drains.find? fun x => decide (x.func = f)

/-- A drain ends with an outcome: its completion events are posted (R33, R34), but for a command that still waits for
another function it disabled. -/
def endDrain (f : Func) (outcome : Nat) (d : Dev) : Dev :=
  match drainOf f d with
  | none => d
  | some x =>
    let rest := d.drains.filter fun y => decide (y.func ≠ f)
    (x.owed.filter fun c => !(rest.any fun y => y.owed.contains c)).foldl
      (fun d c => complete c.1 c.2.1 c.2.2 0 outcome d) { d with drains := rest }

/-- A timer that runs from now unless it already runs. -/
def startTimer (o : Option Time) (now : Time) : Option Time := some (o.getD now)

/-- A timer has run for at least `span`. -/
def timerPast (o : Option Time) (span now : Time) : Bool :=
  match o with
  | some t => decide (t + span ≤ now)
  | none => false

/-! ### Rounding -/

/-- The nearest integer, halves away from zero (R69). -/
def roundAway (q : Rat) : Int := if 0 ≤ q then (q + 1 / 2).floor else -((-q + 1 / 2).floor)

/-- `q` limited to `lo … hi`. -/
def clampQ (q lo hi : Rat) : Rat := if q < lo then lo else if hi < q then hi else q

/-- The sign of a rational as -1, 0 or 1. -/
def signQ (q : Rat) : Rat := if 0 < q then 1 else if q < 0 then -1 else 0

/-- The magnitude of a rational. -/
def absQ (q : Rat) : Rat := if 0 ≤ q then q else -q

/-- `q` modulo `p`, in (-p/2, p/2] (R60). -/
def wrapHalf (q p : Rat) : Rat :=
  if p ≤ 0 then q
  else
    let r := q - p * ((q / p).floor : Rat)
    if p / 2 < r then r - p else r

/-- The nearest multiple of `step`, halves up (R73). -/
def onGrid (step t : Rat) : Rat := step * ((t / step + 1 / 2).floor : Rat)

/-- The step of timestamps and pulse edges: 250 ps, or 20 ns while synthesiser CT is in bypass (R46, R50, R73). -/
def timStep (d : Dev) : Time := if (tget d.tim.synths 0).bypass then 20 else 1 / 4

/-- A stamp of an instant (R46, R50). -/
def stamped (t : Time) (d : Dev) : Time := onGrid (timStep d) t

/-- A time cut to house time's 64-bit binary fraction of a nanosecond (R41). -/
def cut64 (t : Time) : Time := ((t * 18446744073709551616).floor : Rat) / 18446744073709551616

/-- The least multiple of `p` plus `o` at or after `t`, as its index (p > 0). -/
def indexAtOrAfter (t o p : Rat) : Nat := if p ≤ 0 then 0 else ((t - o) / p).ceil.toNat

end Sys2Proof.Machine
end

