-- ==== Sys2Proof/Machine/EthOps.lean ====
section
/-! DEFINITION. Shared operations of the MAC: port numbers (R156), buffer cells (R168), and what the loss of a port does
(R159 to R161). -/

namespace Sys2Proof.Machine

def port (p : Nat) (d : Dev) : Port := tget d.ports p
def updPort (p : Nat) (f : Port → Port) (d : Dev) : Dev := { d with ports := tupd d.ports p f }
def updMac (o : Nat) (f : Mac → Mac) (d : Dev) : Dev := { d with macs := tupd d.macs o f }
def rxFlow (n : Nat) (d : Dev) : RxFlow := tget d.flows.rx n
def txFlow (n : Nat) (d : Dev) : TxFlow := tget d.flows.tx n
def updRxFlow (n : Nat) (f : RxFlow → RxFlow) (d : Dev) : Dev := { d with flows.rx := tupd d.flows.rx n f }
def updTxFlow (n : Nat) (f : TxFlow → TxFlow) (d : Dev) : Dev := { d with flows.tx := tupd d.flows.tx n f }
def rxfBump (n k m : Nat) (d : Dev) : Dev := updRxFlow n (fun f => { f with ctrs := bumpBy f.ctrs k m }) d
def txfBump (n k m : Nat) (d : Dev) : Dev := updTxFlow n (fun f => { f with ctrs := bumpBy f.ctrs k m }) d
def portBump (p k m : Nat) (d : Dev) : Dev := updPort p (fun x => { x with ctrs := bumpBy x.ctrs k m }) d

/-- Port counters (R179). -/
abbrev pRX_ENTERED := 0x100
abbrev pRX_DELIVERED := 0x108
abbrev pRX_BYTES := 0x110
abbrev pRX_RUNT := 0x118
abbrev pRX_FCS := 0x120
abbrev pRX_OVERSIZE := 0x128
abbrev pRX_ADDR_DROP := 0x130
abbrev pRX_FILTER_DROP := 0x138
abbrev pRX_QUEUE_FULL := 0x140
abbrev pRX_RING_DROP := 0x148
abbrev pRX_ABORT := 0x150
abbrev pRX_PAUSE := 0x158
abbrev pRX_PAUSE_IGNORED := 0x160
abbrev pTX_ENQUEUED := 0x168
abbrev pTX_FRAMES := 0x170
abbrev pTX_BYTES := 0x178
abbrev pTX_DISCARD := 0x180
abbrev pTX_PAUSE := 0x188
abbrev pFEC_CORR := 0x190
abbrev pFEC_UNCORR := 0x198
abbrev pLINK_DOWN := 0x1A0
abbrev pHOST_DROP := 0x1A8

/-- Send-flow counters (R225). -/
abbrev tTX_PKTS := 0x40
abbrev tSENT := 0x48
abbrev tDROP := 0x58
abbrev tSUPPRESSED := 0x68

/-- Ports that an octet's mode creates (R85, R156). -/
def numPorts (o : Nat) (d : Dev) : Nat :=
  match (tget d.octets o).mode with
  | 1 => 8 | 2 => 4 | 3 => 2 | 4 => 1 | _ => 0

/-- The port exists (R156). -/
def portExists (p : Nat) (d : Dev) : Bool := decide (p < 128) && decide (p % 8 < numPorts (p / 8) d)

/-- A port's rate in Gb/s, which is also bits per ns. -/
def portGbps (p : Nat) (d : Dev) : Nat :=
  match (tget d.octets (p / 8)).mode with
  | 2 => 100 | 3 => 200 | 4 => 400 | _ => 25

/-- The lanes of a port (R85). -/
def lanesOfPort (p : Nat) (d : Dev) : List Nat :=
  let w := match (tget d.octets (p / 8)).mode with
    | 2 => 2 | 3 => 4 | 4 => 8 | _ => 1
  (List.range w).map (p / 8 * 8 + p % 8 * w + ·)

/-- Every lane of the port is UP (R158 step 2). -/
def portLanesUp (p : Nat) (d : Dev) : Bool := (lanesOfPort p d).all fun n => decide ((tget d.lanes n).rxState = 4)

/-- MAC_PORT_STATUS.LINK: 0 OFF, 1 DOWN, 2 ALIGNING once every lane is UP, 3 UP, 4 REMOTE_FAULT (R158). -/
def portLink (p : Nat) (d : Dev) : Nat :=
  let l := (port p d).link
  if l = 1 ∧ portLanesUp p d then 2 else l

/-- A queue of a port: direction 1 receive, 2 transmit. -/
def queueOf (p dir q : Nat) (d : Dev) : Queue := if dir = 1 then tget (port p d).rxq q else tget (port p d).txq q

def updQueue (p dir q : Nat) (f : Queue → Queue) (d : Dev) : Dev :=
  updPort p (fun x => if dir = 1 then { x with rxq := tupd x.rxq q f } else { x with txq := tupd x.txq q f }) d

/-- A queue's configuration, by default that of R169's table. -/
def queueCfg (p dir q : Nat) (d : Dev) : QueueCfg :=
  let n := numPorts (p / 8) d
  ((queueOf p dir q d).cfg).getD
    { min := (if q = 6 then 1024 else 32) / n, max := if q = 6 then 4096 else 1024, fc := false, tag := false,
      xoff := 0, xon := 0, vid := 0, pcp := 0 }

/-- A queue's reservation (R168). -/
def reservation (dir q : Nat) (c : QueueCfg) : Nat := if dir = 1 ∧ q ≤ 5 ∧ c.fc then c.max else c.min

/-- Cells of a frame (R168). -/
def cellsOf (len : Nat) : Nat := (len + 255) / 256

/-- Cells that a queue holds. -/
def held (p dir q : Nat) (d : Dev) : Nat :=
  let x := queueOf p dir q d
  x.rx.foldl (fun n f => n + cellsOf f.frame.len) 0 + x.tx.foldl (fun n f => n + cellsOf f.len) 0

/-- Every queue of an octet's ports: port, direction, queue. -/
def queuesOf (o : Nat) (d : Dev) : List (Nat × Nat × Nat) :=
  ((List.range (numPorts o d)).map fun j =>
    ((List.range 8).map fun q => (8 * o + j, 1, q)) ++ (List.range 8).map fun q => (8 * o + j, 2, q)).flatten

/-- Sum of the reservations on a MAC (R169); with no port the defaults reserve 2,496. -/
def reserved (o : Nat) (d : Dev) : Nat :=
  if numPorts o d = 0 then 2496
  else (queuesOf o d).foldl (fun n x => n + reservation x.2.1 x.2.2 (queueCfg x.1 x.2.1 x.2.2 d)) 0

/-- Free cells of a MAC (R168). -/
def freeCells (o : Nat) (d : Dev) : Nat := 4096 - (tget d.macs o).cells

/-- A frame takes cells of its MAC's buffer, or returns them. -/
def takeCells (p n : Nat) (d : Dev) : Dev := updMac (p / 8) (fun m => { m with cells := m.cells + n }) d
def giveCells (p n : Nat) (d : Dev) : Dev := updMac (p / 8) (fun m => { m with cells := m.cells - n }) d

/-- Free cells in the shared part: the pool less every reservation and less what queues hold beyond theirs. -/
def sharedCells (o : Nat) (d : Dev) : Nat :=
  4096 - reserved o d - (queuesOf o d).foldl (fun n x =>
    n + (held x.1 x.2.1 x.2.2 d - reservation x.2.1 x.2.2 (queueCfg x.1 x.2.1 x.2.2 d))) 0

/-- The queue can take `n` further cells (R168). -/
def canTake (p dir q n : Nat) (d : Dev) : Bool :=
  let c := queueCfg p dir q d
  let h := held p dir q d
  let r := reservation dir q c
  decide (h + n ≤ c.max) && decide ((h + n - r) - (h - r) ≤ sharedCells (p / 8) d) && decide (n ≤ freeCells (p / 8) d)

/-- A transmit frame is discarded: it counts in TX_DISCARD, and a media packet in its path's DROP counter (R161, R215). -/
def discardTx (p : Nat) (f : TxHeld) (d : Dev) : Dev :=
  let d := portBump p pTX_DISCARD 1 d
  match f.media with
  | some m => txfBump m.flow (tDROP + 8 * m.path) 1 d
  | none => d

/-- Every frame held in a transmit queue is discarded. -/
def flushTx (p q : Nat) (d : Dev) : Dev :=
  (queueOf p 2 q d).tx.foldl (fun d f => giveCells p (cellsOf f.len) (discardTx p f d)) (updQueue p 2 q (fun x => { x with tx := [] }) d)

/-- Entry to DOWN or REMOTE_FAULT (R161). -/
def portFlush (p : Nat) (d : Dev) : Dev := (List.range 8).foldl (fun d q => flushTx p q d) d

/-- A port loses its lanes, its lock or its error rate (R159, R161): it returns to step 1 of R158; an UP port counts
LINK_DOWN. The link fault report is the caller's. -/
def portDown (p : Nat) (highSer : Bool) (d : Dev) : Dev :=
  let x := port p d
  if x.link = 0 then d
  else
    let d := if x.link = 3 then portBump p pLINK_DOWN 1 d else d
    portFlush p (updPort p (fun x => { x with link := 1, aligned := false, rf := false, hiSer := highSer }) d)

/-- The port that a lane belongs to. -/
def portOfLane (n : Nat) (d : Dev) : Option Nat :=
  (List.range (numPorts (n / 8) d)).findSome? fun j => if (lanesOfPort (n / 8 * 8 + j) d).contains n then some (n / 8 * 8 + j) else none

/-- A lane of a port leaves UP (R159). -/
def portLaneLost (n : Nat) (d : Dev) : Dev :=
  match portOfLane n d with
  | some p => portDown p false d
  | none => d

/-- A port's client data reaches its transmitters (R91): an enabled port sends Remote Fault, idles or frames (R158). -/
def portDelivers (n : Nat) (d : Dev) : Bool :=
  match portOfLane n d with
  | some p => (port p d).en
  | none => false

/-- Default FEC option of an octet mode (R156). -/
def defaultFec (mode : Nat) : Nat := if mode = 1 then 2 else 3

/-- A mode change of an octet creates new ports with every setting at its default (R181); counters stay. -/
def resetPortConfigs (o : Nat) (d : Dev) : Dev :=
  let fec := defaultFec (tget d.octets o).mode
  let d := (List.range 8).foldl (fun d j =>
    updPort (8 * o + j) (fun x =>
      { fec := fec, ctrs := x.ctrs,
        rxq := tmap x.rxq (fun _ q => { q with cfg := none, stopped := false, above := false }),
        txq := tmap x.txq (fun _ q => { q with cfg := none, stopped := false, paused := none }) })
      (portFlush (8 * o + j) d)) d
  updMac o (fun m => { m with filter := [] }) d

/-- The port carries client data of its own: its MAC is enabled (R114). -/
def macEnabledOn (n : Nat) (d : Dev) : Bool :=
  match portOfLane n d with
  | some p => (port p d).en
  | none => false

/-- The VID and PCP of the tag that a queue's configuration adds to a frame; a media packet brings its flow's (R167). -/
def txTag (p q : Nat) (d : Dev) : Option (Nat × Nat) :=
  let c := queueCfg p 2 q d
  if q ≠ 6 ∧ c.tag then some (c.vid, c.pcp) else none

/-- The bytes that the queue's tag adds. -/
def queueTag (p q : Nat) (d : Dev) : Nat := if (txTag p q d).isSome then 4 else 0

/-- A frame of `f.len` bytes without a tag is offered to a transmit queue (R161, R167, R168): in TQ0 to TQ5 it is refused beyond
CTRL_MTU; with the port not UP, the queue stopped, or no cells, it is discarded at once; otherwise the queue holds it, with its
tag. A media packet's length has its tag in it. -/
def offer (p q : Nat) (f : TxHeld) (d : Dev) : Dev :=
  if q ≤ 5 ∧ (port p d).ctrlMtu < f.len then d
  else
    let f := { f with len := f.len + queueTag p q d, tag := txTag p q d }
    let d := portBump p pTX_ENQUEUED 1 d
    if (port p d).link ≠ 3 ∨ (queueOf p 2 q d).stopped ∨ !canTake p 2 q (cellsOf f.len) d then discardTx p f d
    else takeCells p (cellsOf f.len) (updQueue p 2 q (fun x => { x with tx := x.tx ++ [f] }) d)

/-- A flow-controlled queue at or below XON. -/
def atXon (p q : Nat) (d : Dev) : Bool := decide (held p 1 q d ≤ (queueCfg p 1 q d).xon)

/-- The port's flow control after a queue's holding has changed (R173): reaching XOFF calls for a pause, falling to XON
for its release. -/
def flowControl (p q : Nat) (d : Dev) : Dev :=
  let c := queueCfg p 1 q d
  let x := queueOf p 1 q d
  if (port p d).fc = 0 ∨ !c.fc ∨ 5 < q then d
  else if !x.above ∧ c.xoff ≤ held p 1 q d then
    updPort p (fun y => { y with pauseFor := y.pauseFor.filter (· ≠ q) ++ [q] })
      (updQueue p 1 q (fun x => { x with above := true, pauseAt := d.up }) d)
  else
    -- In mode 1 the release waits for every flow-controlled queue to be at or below its XON.
    let falls := x.above && atXon p q d
    let d := if falls then updPort p (fun y => { y with releaseDue := true }) (updQueue p 1 q (fun x => { x with above := false }) d)
             else d
    if !(port p d).releaseDue ∨ ((port p d).fc = 2 ∧ !falls)
        ∨ ((port p d).fc = 1 ∧ (List.range 6).any (fun k => (queueCfg p 1 k d).fc && !atXon p k d)) then d
    else updPort p (fun y => { y with pauseFor := y.pauseFor.filter (· ≠ q) ++ [q], releaseDue := false }) d

/-- The period in ns of a cycle of the PKT domain, 425 MHz. -/
def pktCycle : Time := 40 / 17

/-- PKT cycles of MAC, PCS and FEC encoding (R544). -/
def encodeCycles (p : Nat) (d : Dev) : Nat :=
  match (tget d.octets (p / 8)).mode with
  | 4 => 24 | 3 => 22 | 2 => 20
  | _ => if (port p d).fec = 2 then 16 else if (port p d).fec = 1 then 10 else 4

/-- From the start of a frame to the instant at which the first bit after its SFD crosses the ball of the port's logical lane 0
(R544, R547): the encoder, the crossing at the depth that bring-up measured, the serialiser, and the preamble's 64 bits. -/
def departLag (p : Nat) (d : Dev) : Time :=
  let pam4 := decide (2 ≤ (tget d.octets (p / 8)).mode)
  let ltx : Time := if pam4 then 128 / (53125 / 1000) else 64 / (2578125 / 100000)
  let ser : Nat := if pam4 then 8 else 6
  (encodeCycles p d : Rat) * pktCycle + (((port p d).depth + ser : Nat) : Rat) * ltx + 64 / (portGbps p d : Rat)

/-- Perby takes the PTP ring's oldest frame of a port when it processes a message received there. -/
def ptpTake (p : Nat) (d : Dev) : Dev :=
  updMac (p / 8) (fun m => match findIdx? (fun f : RxHeld => decide (f.port = p)) m.ptp with
    | some (i, _) => { m with ptp := m.ptp.eraseIdx i }
    | none => m) d

end Sys2Proof.Machine
end

