-- ==== Sys2Proof/Machine/Codes.lean ====
section
/-! DEFINITION. The codes the manual names: CRC-32 of R443, CRC-16 of R149, the RS(36,32) check symbols of R23, the
XYZ protection of R120, and SipHash-2-4. -/

namespace Sys2Proof.Machine

/-- A big-endian number. -/
def beNat (l : List Byte) : Nat := l.foldl (fun n b => n * 256 + b.toNat) 0

/-- One bit of a reflected CRC-32 register. -/
def crc32Bit (c : BitVec 32) : BitVec 32 := if c.getLsbD 0 then (c >>> 1) ^^^ 0xEDB88320 else c >>> 1

/-- One byte into the CRC-32 register. -/
def crc32Byte (c : BitVec 32) (b : Byte) : BitVec 32 :=
  let c := c ^^^ (b.setWidth 32)
  crc32Bit (crc32Bit (crc32Bit (crc32Bit (crc32Bit (crc32Bit (crc32Bit (crc32Bit c)))))))

/-- CRC-32 of the IEEE 802.3 FCS: reflected 0x04C1_1DB7, initial and final value 0xFFFF_FFFF (R443). -/
def crc32 (bs : List Byte) : BitVec 32 := bs.foldl crc32Byte 0xFFFFFFFF ^^^ 0xFFFFFFFF

/-- One bit of the CRC-16 register, most significant bit first. -/
def crc16Bit (c : BitVec 16) : BitVec 16 := if c.getLsbD 15 then (c <<< 1) ^^^ 0x1021 else c <<< 1

/-- One byte into the CRC-16 register. -/
def crc16Byte (c : BitVec 16) (b : Byte) : BitVec 16 :=
  let c := c ^^^ ((b.setWidth 16) <<< 8)
  crc16Bit (crc16Bit (crc16Bit (crc16Bit (crc16Bit (crc16Bit (crc16Bit (crc16Bit c)))))))

/-- CRC-16 with generator x^16 + x^12 + x^5 + 1, initial value 0xFFFF, unreflected, no final inversion (R149). -/
def crc16 (bs : List Byte) : BitVec 16 := bs.foldl crc16Byte 0xFFFF

/-- Multiplication by x in GF(2^8) modulo x^8 + x^4 + x^3 + x^2 + 1 (R23). -/
def gfX (a : Byte) : Byte := if a.getLsbD 7 then (a <<< 1) ^^^ 0x1D else a <<< 1

/-- Multiplication in GF(2^8); the fuel is the number of bits. -/
def gfMulFuel : Nat → Byte → Byte → Byte
  | 0, _, _ => 0
  | f + 1, a, b => (if b.getLsbD 0 then a else 0) ^^^ gfMulFuel f (gfX a) (b >>> 1)

/-- Multiplication in GF(2^8). -/
def gfMul (a b : Byte) : Byte := gfMulFuel 8 a b

/-- One data symbol into the four-symbol remainder of the RS(36,32) code, the generator polynomial being
(x + 1)(x + α)(x + α^2)(x + α^3) = x^4 + 0x0F x^3 + 0x36 x^2 + 0x78 x + 0x40. -/
def rsStep (r : Byte × Byte × Byte × Byte) (s : Byte) : Byte × Byte × Byte × Byte :=
  let f := s ^^^ r.1
  (r.2.1 ^^^ gfMul f 0x0F, r.2.2.1 ^^^ gfMul f 0x36, r.2.2.2 ^^^ gfMul f 0x78, gfMul f 0x40)

/-- The 32 check bits of a 256-bit word given as 32 data symbols, the highest power first (R23). -/
def rsCheck (symbols : List Byte) : Byte × Byte × Byte × Byte := symbols.foldl rsStep (0, 0, 0, 0)

/-- The three outcomes of a checker (R26). -/
inductive Outcome where
  | clean
  | corrected
  | poisoned
  deriving DecidableEq, Repr

/-- A word in error as its 36 code symbols: each the sum of the values named for it. -/
def errVector (e : SymErr) : List Byte :=
  (List.range 36).map fun k => e.foldl (fun a x => if x.1 = k then a ^^^ x.2 else a) 0

/-- The remainder that a checker forms of a received word: the check symbols it received against those of the data symbols it
received (R23). The code is linear, so that this is the remainder of the word's errors alone. -/
def rsRemainder (v : List Byte) : Byte × Byte × Byte × Byte :=
  let c := rsCheck (v.take 32)
  (c.1 ^^^ v.getD 32 0, c.2.1 ^^^ v.getD 33 0, c.2.2.1 ^^^ v.getD 34 0, c.2.2.2 ^^^ v.getD 35 0)

/-- A remainder at a point of the field. -/
def rsAt (r : Byte × Byte × Byte × Byte) (x : Byte) : Byte :=
  gfMul (gfMul (gfMul r.1 x ^^^ r.2.1) x ^^^ r.2.2.1) x ^^^ r.2.2.2

/-- α to the power of `p`. -/
def alphaPow : Nat → Byte
  | 0 => 1
  | p + 1 => gfX (alphaPow p)

/-- The one symbol whose error explains a remainder, where there is one: its syndromes at α^0 to α^3 stand in the ratio of the
symbol's place (R24). -/
def rsLocate (r : Byte × Byte × Byte × Byte) : Option Nat :=
  let s (j : Nat) := rsAt r (alphaPow j)
  (List.range 36).find? fun k =>
    let a := alphaPow (35 - k)
    s 0 != 0 && s 1 == gfMul a (s 0) && s 2 == gfMul a (s 1) && s 3 == gfMul a (s 2)

/-- The outcome of a check by the symbols in error (R24, R26); errors in four or more symbols lie outside the code's guarantee,
and what the checker finds there is a free value (log entry 6). -/
def checkOutcome (e : SymErr) : Outcome :=
  let v := errVector e
  if e = [] then .clean
  else if 4 ≤ (v.filter (· ≠ 0)).length then
    (match Config.beyondCode e % 3 with
     | 0 => .clean
     | 1 => .corrected
     | _ => .poisoned)
  else
    let r := rsRemainder v
    if r = (0, 0, 0, 0) then .clean else if (rsLocate r).isSome then .corrected else .poisoned

/-- The symbol that a checker corrects. -/
def correctedSymbol (e : SymErr) : Nat := (rsLocate (rsRemainder (errVector e))).getD 0x3F

/-- Poisoned is worse than corrected, and corrected than clean (R497). -/
def worse (a b : Outcome) : Outcome :=
  if a = .poisoned ∨ b = .poisoned then .poisoned else if a = .corrected ∨ b = .corrected then .corrected else .clean

/-- The outcome delivered under an injection that inverts check symbols: the worse of the word's own and the injected one
(R495, R497). -/
def injectedOutcome (own inj : SymErr) : Outcome := worse (checkOutcome own) (checkOutcome (own ++ inj))

/-- The poison signature: check symbols 33, 34 and 35 inverted (R233). -/
def poisonSig : SymErr := [(33, 0xFF), (34, 0xFF), (35, 0xFF)]

/-- Inverted check bits, as symbols in error (R495). -/
def checkErrs (c : BitVec 32) : SymErr :=
  (List.range 4).filterMap fun m =>
    let b := c.extractLsb' (8 * m) 8
    if b = 0 then none else some (32 + m, b)

/-! ### Link words of the twin link (R453) -/

/-- The 36 symbols of a word: its data symbols, then its check symbols (R23). -/
def codeWord (w : BitVec 256) : BitVec 288 :=
  let c := rsCheck ((List.range 32).map fun k => w.extractLsb' (8 * k) 8)
  (c.2.2.2 ++ c.2.2.1 ++ c.2.1 ++ c.1 ++ w).setWidth 288

/-- One bit through the self-synchronising scrambler x^58 + x^39 + 1: the register's bit `i` is the bit sent `i + 1` before. -/
def scrambleBit (r : BitVec 58) (b : Bool) : Bool × BitVec 58 :=
  let o := b ^^ r.getLsbD 57 ^^ r.getLsbD 38
  (o, (r <<< 1) ||| (if o then 1 else 0))

/-- The 72 payload bits of a block, bit 0 first, and the register after them. -/
def scramble72 (r : BitVec 58) (p : BitVec 72) : BitVec 72 × BitVec 58 :=
  (List.range 72).foldl (fun (a : BitVec 72 × BitVec 58) i =>
    let o := scrambleBit a.2 (p.getLsbD i)
    (a.1 ||| (if o.1 then (1 : BitVec 72) <<< i else 0), o.2)) (0, r)

/-- A block of 74 bits: the header, 0b01 for data and 0b10 for control, in bits 73 and 72 over the scrambled payload. -/
def linkBlock (control : Bool) (r : BitVec 58) (p : BitVec 72) : BitVec 74 × BitVec 58 :=
  let o := scramble72 r p
  (((if control then 0b10#2 else 0b01#2) ++ o.1).setWidth 74, o.2)

/-- The four blocks of a link word, block b carrying bits [72b + 71 : 72b] of the code word. -/
def linkBlocks (r : BitVec 58) (w : BitVec 256) : List (BitVec 74) × BitVec 58 :=
  (List.range 4).foldl (fun (a : List (BitVec 74) × BitVec 58) b =>
    let o := linkBlock false a.2 ((codeWord w).extractLsb' (72 * b) 72)
    (a.1 ++ [o.1], o.2)) ([], r)

/-- The eight XYZ words: bit 9 set, F, V, H, and the protection bits P3 to P0 (R120). -/
def xyzWord (f v h : Bool) : Nat :=
  512 + 256 * b2n f + 128 * b2n v + 64 * b2n h + 32 * b2n (v != h) + 16 * b2n (f != h) + 8 * b2n (f != v)
    + 4 * b2n ((f != v) != h)

def xyzWords : List Nat :=
  [xyzWord false false false, xyzWord false false true, xyzWord false true false, xyzWord false true true,
   xyzWord true false false, xyzWord true false true, xyzWord true true false, xyzWord true true true]

/-- Bits in which two 10-bit words differ. -/
def distance10 (a b : Nat) : Nat := (List.range 10).foldl (fun n i => n + b2n (bitOf a i != bitOf b i)) 0

/-- The check of an XYZ word (R120): clean, corrected with the word used, or not correctable. -/
def checkXyz (w : Nat) : Outcome × Nat :=
  if xyzWords.contains w then (.clean, w)
  else match xyzWords.find? fun x => decide (distance10 x w = 1) with
  | some x => (.corrected, x)
  | none => (.poisoned, w)

/-! ### SipHash-2-4, 64-bit output -/

structure Sip where
  v0 : BitVec 64
  v1 : BitVec 64
  v2 : BitVec 64
  v3 : BitVec 64

def sipRound (s : Sip) : Sip :=
  let v0 := s.v0 + s.v1
  let v1 := s.v1.rotateLeft 13 ^^^ v0
  let v0 := v0.rotateLeft 32
  let v2 := s.v2 + s.v3
  let v3 := s.v3.rotateLeft 16 ^^^ v2
  let v0 := v0 + v3
  let v3 := v3.rotateLeft 21 ^^^ v0
  let v2 := v2 + v1
  let v1 := v1.rotateLeft 17 ^^^ v2
  let v2 := v2.rotateLeft 32
  ⟨v0, v1, v2, v3⟩

/-- One 8-byte message word. -/
def sipWord (s : Sip) (m : BitVec 64) : Sip :=
  let s := sipRound (sipRound { s with v3 := s.v3 ^^^ m })
  { s with v0 := s.v0 ^^^ m }

/-- The message as 8-byte words, the last one padded and carrying the length in its top byte. -/
def sipWords (n : Nat) : Nat → List Byte → List (BitVec 64)
  | 0, _ => []
  | f + 1, bs =>
    if bs.length < 8 then [BitVec.ofNat 64 (leNat bs + n % 256 * 2 ^ 56)]
    else BitVec.ofNat 64 (leNat (bs.take 8)) :: sipWords n f (bs.drop 8)

/-- SipHash-2-4 of a message under a 128-bit key, the key's bytes read little-endian. -/
def sipHash (key : BitVec 128) (bs : List Byte) : BitVec 64 :=
  let k0 := key.extractLsb' 0 64
  let k1 := key.extractLsb' 64 64
  let s : Sip := ⟨k0 ^^^ 0x736f6d6570736575, k1 ^^^ 0x646f72616e646f6d, k0 ^^^ 0x6c7967656e657261, k1 ^^^ 0x7465646279746573⟩
  let s := (sipWords bs.length (bs.length + 1) bs).foldl sipWord s
  let s := sipRound (sipRound (sipRound (sipRound { s with v2 := s.v2 ^^^ 0xff })))
  s.v0 ^^^ s.v1 ^^^ s.v2 ^^^ s.v3

end Sys2Proof.Machine
end

