-- ==== Sys2Proof/Machine/FlowOps.lean ====
section
/-! DEFINITION. Shared operations of the flows: packet rates and merge windows (R204), the merge itself, and the flow
table's placement (R191 to R196). -/

namespace Sys2Proof.Machine

/-- Receive-flow counters (R225). -/
abbrev fRX_PKTS := 0x40
abbrev fACCEPTED := 0x50
abbrev fDUPLICATE := 0x58
abbrev fREPEAT := 0x60
abbrev fLATE := 0x68
abbrev fREJECT_RTP := 0x70
abbrev fREJECT_FORMAT := 0x78
abbrev fREJECT_CLAIM := 0x80
abbrev fDISABLED := 0x88
abbrev fSEQ_BOTH := 0x90
abbrev fSEQ_A := 0x98
abbrev fSEQ_B := 0xA0
abbrev fSEQ_LOST := 0xA8
abbrev fRESYNC := 0xB0
abbrev fPATH_LOSS := 0xB8
abbrev fREADY := 0xC8
abbrev fPATCHED := 0xD0
abbrev fABANDON := 0xD8
abbrev fSAMPLES_OUT := 0xE0
abbrev fWITNESSED := 0xE8

/-! ### Packet rates (R204, R211) -/

/-- A sampling's pixel group (R185, R211): bytes, pixels, and rows of the raster that a row of groups covers. -/
def pixelGroup (s : Nat) : Nat × Nat × Nat :=
  match s with
  | 0 => (5, 2, 1) | 1 => (6, 2, 1) | 2 | 4 => (15, 4, 1) | 3 | 5 => (9, 2, 1) | 6 => (15, 8, 2) | 7 => (9, 4, 2) | _ => (6, 1, 1)

/-- Bits per pixel (R186). -/
def bitsPerPixel (s : Nat) : Nat :=
  match s with
  | 0 => 20 | 1 => 24 | 2 | 4 => 30 | 3 | 5 => 36 | 6 => 15 | 7 => 18 | _ => 48

/-- Interlaced and segmented formats are carried field by field (R185). -/
def byField (f : Nat) : Bool := interlaced f || segmented f

/-- The frame or field period of a flow (TFRAME of R212). -/
def fieldPeriod (f : Nat) : Time := if byField f then framePeriod f / 2 else framePeriod f

def ceilDiv (a b : Nat) : Nat := if b = 0 then 0 else (a + b - 1) / b

/-- NPACKETS of a GPM or BPM sender (R211): packets per frame or field. -/
def nPackets (f s payload : Nat) (bpm : Bool) : Nat :=
  let g := pixelGroup s
  let rows := activeLines f / g.2.2 / (if byField f then 2 else 1)
  let groups := activeWidth f * g.2.2 / g.2.1
  if bpm then ceilDiv (rows * groups * g.1) 1260
  else rows * ceilDiv groups (max 1 (payload / g.1))

/-- Bit rate of a mapping's lane rate code in bits per ns (R87), for ST 2022-6. -/
def mappingBitRate (m f : Nat) : Time :=
  let r : Time := match m with
    | 0 => 27 / 100
    | 1 => 1485 / 1000
    | _ => 297 / 100
  if m ≠ 0 ∧ fractionalRate f then r * 1000 / 1001 else r

/-- The part of a frame or field in which a sender schedules its video packets: TFRAME × RACTIVE (R212). -/
def activeSpan (f : Nat) : Time := fieldPeriod f * (activeLines f : Rat) / (totalLines f : Rat)

/-- P of R204 in packets per ns; a video sender's packets keep their distance over the active period. -/
def packetRate (type f s payload ptime : Nat) : Time :=
  match type with
  | 1 => (nPackets f s payload false : Rat) / activeSpan f
  | 4 => (totalLines f : Rat) / framePeriod f
  | 5 => mappingBitRate s f / (1376 * 8)
  | _ => if ptime = 1 then 1 / (125 * us) else 1 / ms

/-- Nb of R204: window blocks of a merged flow. -/
def windowBlocks (x : RxFlow) : Nat :=
  let pay := if x.minPayload = 0 then 1200 else x.minPayload
  max 1 (packetRate x.type x.format x.sampling pay x.ptime * (x.skew : Rat) * us / 1024).ceil.toNat

/-- Both paths are configured (R204). -/
def merged (x : RxFlow) : Bool := x.pathA.isSome && x.pathB.isSome

/-- Window blocks that a configuration needs: none on one path, and none for a witness flow (R204, R220). -/
def blocksNeeded (x : RxFlow) : Nat := if merged x ∧ x.type ≠ 6 ∧ x.type ≠ 0 then windowBlocks x else 0

/-! ### The merge (R203, R204) -/

/-- Bits of a flow's sequence number (R203). -/
def seqBits (x : RxFlow) : Nat := if x.type = 1 then 32 else 16

/-- The signed difference of two sequence numbers. -/
def seqDiff (x : RxFlow) (a b : Nat) : Int := signed (seqBits x) (twos (seqBits x) ((a : Int) - (b : Int)))

/-- Sequence numbers whose difference to H lies in `a … b` leave the window under exit(q). -/
def exitRange (x : RxFlow) (h : Nat) (a b : Int) : RxFlow :=
  let inside := x.win.filter fun e => decide (a ≤ seqDiff x e.1 h ∧ seqDiff x e.1 h ≤ b)
  let count (k : Nat) := (inside.filter fun e => decide (e.2 = k)).length
  let total := (b - a + 1).toNat
  { x with
    win := x.win.filter fun e => !decide (a ≤ seqDiff x e.1 h ∧ seqDiff x e.1 h ≤ b),
    ctrs := bumpBy (bumpBy (bumpBy (bumpBy x.ctrs fSEQ_BOTH (count 3)) fSEQ_A (count 1)) fSEQ_B (count 2))
      fSEQ_LOST (total - inside.length) }

/-- Every number from L to H exits, in ascending order, and the window is empty. -/
def exitAll (x : RxFlow) : RxFlow :=
  match x.top with
  | some h => if merged x then exitRange x h (seqDiff x x.low h) 0 else x
  | none => x

/-- The flow forgets what it has accepted: its window exits first, so that the laws of R224 hold (R40), and the next
packet is treated as the first. -/
def restartMerge (x : RxFlow) : RxFlow :=
  let x := exitAll x
  { x with top := none, win := [], lateRun := 0, held := none }

/-- A flow stops (R222): what it has accepted leaves its window, and its waiting packets count as a disabled flow's. -/
def stoppedFlow (x : RxFlow) : RxFlow :=
  let x := restartMerge x
  { x with en := false, frames := [], closed := [], grams := [], nextGram := none, waiting := [],
           ctrs := bumpBy x.ctrs fDISABLED x.waiting.length }

/-- Sixteen LATE in a row (R204): every number from L to H exits and the window clears; the next packet is the first. -/
def resync (x : RxFlow) : RxFlow :=
  let x := restartMerge x
  { x with ctrs := bump x.ctrs fRESYNC }

/-- The window after a change of paths or size: `old` is the flow before. A flow that stops merging lets its window exit; one
that starts merging has nothing in its window yet; a narrower window drops what lies behind it. -/
def rewindow (old x : RxFlow) : RxFlow :=
  match old.top with
  | none => x
  | some h =>
    if old.type ≠ x.type then { x with top := none, win := [], lateRun := 0, held := none, ctrs := (restartMerge old).ctrs }
    else if merged old ∧ !merged x then { x with win := [], ctrs := (exitAll old).ctrs }
    else if !merged old ∧ merged x then { x with win := [], low := (h + 1) % 2 ^ seqBits x }
    else if merged x ∧ x.blocks < old.blocks then
      let a := max (seqDiff x x.low h) (1 - 1024 * (old.blocks : Int))
      let w : Int := 1024 * x.blocks
      let y := exitRange x h a (-w)
      { y with low := if seqDiff y y.low h < 1 - w then twos (seqBits y) ((h : Int) + 1 - w) else y.low }
    else x

/-- One packet LATE. -/
def countLate (x : RxFlow) : RxFlow :=
  let x := { x with lateRun := x.lateRun + 1, ctrs := bump x.ctrs fLATE }
  if 16 ≤ x.lateRun then resync x else x

/-- A packet accepted with sequence number `s` as the new highest or to fill a gap. -/
def accepted (x : RxFlow) : RxFlow := { x with lateRun := 0, ctrs := bump x.ctrs fACCEPTED }

/-- The merge of R204: the flow after packet `s` on path `p` (0 A, 1 B), and whether it was accepted. -/
def merge (x : RxFlow) (s p : Nat) : RxFlow × Bool :=
  let bit := 2 ^ p
  if !merged x then
    match x.top with
    | none => (accepted { x with top := some s, low := s, ctrs := bump x.ctrs fSEQ_A }, true)
    | some h =>
      let dd := seqDiff x s h
      if 0 < dd then
        (accepted { x with top := some s, ctrs := bumpBy (bump x.ctrs fSEQ_A) fSEQ_LOST (dd - 1).toNat }, true)
      else (countLate x, false)
  else
    let w : Int := 1024 * x.blocks
    match x.top with
    | none => (accepted { x with top := some s, low := s, win := tset x.win s bit }, true)
    | some h =>
      let dd := seqDiff x s h
      if 0 < dd then
        let a := max (seqDiff x x.low h) (1 - w)
        let x := exitRange x h a (dd - w)
        let edge := twos (seqBits x) ((s : Int) + 1 - w)
        let low := if 0 < seqDiff x edge x.low then edge else x.low
        (accepted { x with top := some s, low := low, win := tset x.win s bit }, true)
      else if -w < dd then
        let seen := tget x.win s
        if seen / bit % 2 = 1 then ({ x with ctrs := bump x.ctrs fREPEAT }, false)
        else if seen ≠ 0 then ({ x with win := tset x.win s 3, ctrs := bump x.ctrs fDUPLICATE }, false)
        else
          (accepted { x with win := tset x.win s bit, low := if seqDiff x s x.low < 0 then s else x.low }, true)
      else (countLate x, false)

/-- The merge-window checker's built-in reaction: the flow resyncs (R204). -/
def flowResync (n : Nat) (d : Dev) : Dev := updRxFlow n resync d

/-! ### The flow table (R191 to R196) -/

/-- The 72-bit lookup key (R191). -/
def flowKey (p : RxPath) : Nat := fld p.port 65 7 + fld p.vid 53 12 + fld p.dst 21 32 + fld p.udp 5 16

/-- SipHash of a key, key byte 0 being bits [71:64] (R192). -/
def flowHash (key : BitVec 128) (k : Nat) : Nat := (sipHash key (le 9 k).reverse).toNat

/-- The candidate entries of a key, in ascending way order (R192). -/
def candidates (key : BitVec 128) (k : Nat) : List Nat :=
  let h := flowHash key k
  (List.range 4).map fun w => w * 16384 + h / 2 ^ (14 * w) % 16384

abbrev Half := Tab (Option TblEntry)

/-- One level of the breadth-first search of R195: chains of places, the last one occupied. -/
def growChains (key : BitVec 128) (t : Half) (chains : List (List Nat)) : List (List Nat) :=
  (chains.map fun c =>
    match tget t (c.getLastD 0) with
    | none => []
    | some e => ((candidates key (flowKey e.path)).filter fun q => !c.contains q).map fun q => c ++ [q]).flatten

/-- The first chain that ends at an empty place, of at most `n` displacements. -/
def findChain (key : BitVec 128) (t : Half) : Nat → List (List Nat) → Option (List Nat)
  | 0, _ => none
  | n + 1, chains =>
    let next := growChains key t chains
    match next.find? fun c => decide (tget t (c.getLastD 0) = none) with
    | some c => some c
    | none => findChain key t n next

/-- Entries move along a chain, the last move first, and `e` takes the first place. -/
def applyChain (t : Half) (e : TblEntry) : List Nat → Half
  | [] => t
  | [p] => tset t p (some e)
  | p :: q :: rest =>
    match tget t p with
    | some x => tset (applyChain t x (q :: rest)) p (some e)
    | none => tset t p (some e)

/-- A new entry placed under R195; none where the placement fails. -/
def placeEntry (key : BitVec 128) (t : Half) (e : TblEntry) : Option Half :=
  let cs := candidates key (flowKey e.path)
  match cs.find? fun c => decide (tget t c = none) with
  | some c => some (tset t c (some e))
  | none =>
    match findChain key t 3 (cs.map fun c => [c]) with
    | some chain => some (applyChain t e chain)
    | none =>
      match (List.range 128).find? fun i => decide (tget t (65536 + i) = none) with
      | some i => some (tset t (65536 + i) (some e))
      | none => none

/-- The entry at a place is removed, and a stash entry may take the freed position (R195). -/
def removeAt (key : BitVec 128) (t : Half) (place : Nat) : Half :=
  let t := tset t place none
  if 65536 ≤ place then t
  else
    match (List.range 128).find? fun i => match tget t (65536 + i) with
        | some e => (candidates key (flowKey e.path)).contains place
        | none => false with
    | some i => tset (tset t place (tget t (65536 + i))) (65536 + i) none
    | none => t

/-- Places whose entry satisfies `p`. -/
def placesOf (t : Half) (p : TblEntry → Bool) : List Nat :=
  tfind t fun o => match o with
    | some e => p e
    | none => false

/-- Every entry that satisfies `p` is removed. -/
def removeEntries (key : BitVec 128) (t : Half) (p : TblEntry → Bool) : Half :=
  (List.range (placesOf t p).length).foldl (fun t _ =>
    match placesOf t p with
    | place :: _ => removeAt key t place
    | [] => t) t

/-- Every entry changed by `f`. -/
def mapEntries (t : Half) (f : TblEntry → TblEntry) : Half := tmap t fun _ o => o.map f

/-- Entries in the stash. -/
def stashCount (t : Half) : Nat := (t.filter fun e => decide (65536 ≤ e.1) && e.2.isSome).length

/-- Valid entries of a half. -/
def entryCount (t : Half) : Nat := (t.filter fun e => e.2.isSome).length

/-- The 128 bits of an entry (R193). -/
def entryBits (e : Option TblEntry) : Nat :=
  match e with
  | none => 0
  | some e => fld 1 127 1 + fld e.path.port 120 7 + fld e.path.vid 108 12 + fld e.path.dst 76 32 + fld e.path.udp 60 16
      + fld e.path.src 28 32 + fld e.flow 15 13 + fld e.leg 14 1 + fld (b2n e.pending.isSome) 13 1 + fld (b2n e.retire.isSome) 12 1

/-- A protected word of a half: entries 2i and 2i + 1 of its ways, and behind the ways the stash, two to a word (R193). -/
def tableWord (t : Half) (i : Nat) : BitVec 256 := BitVec.ofNat 256 (entryBits (tget t (2 * i)) + 2 ^ 128 * entryBits (tget t (2 * i + 1)))

/-- The words that a lookup reads: the four candidates' and the whole stash's (R194). -/
def wordsRead (key : BitVec 128) (k : Nat) : List Nat :=
  (candidates key k).map (· / 2) ++ (List.range 64).map (32768 + ·)

/-- The active entry that matches a key (R194): PENDING entries do not match, nor those of the words `bad`. -/
def lookupKey (t : Half) (k : Nat) (bad : List Nat) : Option TblEntry :=
  t.findSome? fun x => match x.2 with
    | some e => if e.pending.isNone ∧ flowKey e.path = k ∧ !bad.contains (x.1 / 2) then some e else none
    | none => none

/-- A table change applied to the active half and, during a re-key whose placement has ended, to the other half under the
other key too (R200 step 2). -/
def changeTable (f : BitVec 128 → Half → Half) (d : Dev) : Dev :=
  let b := d.flows.tbl
  { d with
    flows.tbl :=
      { b with active := f b.key b.active,
               spare := if b.state = 2 ∧ b.placed ∧ b.switched.isNone then f b.newKey b.spare else b.spare } }

/-- The key in use is drawn (R198): a fresh draw of the entropy source. -/
def drawKey (d : Dev) : BitVec 128 := (Config.entropy d.free).extractLsb' 0 128

/-- A re-key starts (R200 step 1). -/
def startRekey (d : Dev) : Dev :=
  let b := d.flows.tbl
  useFree { d with
    flows.tbl := { b with state := 2, newKey := drawKey d, spare := [], placed := false, switchAt := none,
                          switched := none } }

/-- A re-key starts by itself when the active stash passes STASH_TH; not in SHADOW (R199). -/
def rekeyIfFull (d : Dev) : Dev :=
  let b := d.flows.tbl
  if b.state = 1 ∧ b.stashTh < stashCount b.active ∧ roleMode d ≠ SHADOW then startRekey d else d

/-- The flow's places are given back and window blocks follow its configuration (R204, R222). -/
def setBlocks (n need : Nat) (d : Dev) : Dev :=
  let old := (rxFlow n d).blocks
  updRxFlow n (fun x => { x with blocks := need }) { d with flows.free := d.flows.free + old - need }

/-- The path of a flow. -/
def rxPath (x : RxFlow) (leg : Nat) : Option RxPath := if leg = 0 then x.pathA else x.pathB

/-! ### Multicast groups (R221) -/

/-- The memberships that the enabled flows' entries call for, pending and active: with IGMPv3 the required source is
included, else any source. -/
def wantedGroups (d : Dev) : List McGroup :=
  (d.flows.tbl.active.filterMap fun x => match x.2 with
    | some e =>
      if (rxFlow e.flow d).en ∧ e.path.dst / 2 ^ 28 = 0xE ∧ portExists e.path.port d then
        some (⟨e.path.port, e.path.dst, if (port e.path.port d).igmp = 3 then e.path.src else 0⟩ : McGroup)
      else none
    | none => none).dedup

/-- Perby sends an IGMP frame that reports `gs` on a port: with IGMPv2 one frame for each, with IGMPv3 one for all (log
entry 14). -/
def sendIgmp (p : Nat) (gs : List McGroup) (d : Dev) : Dev :=
  let one (len : Nat) (d : Dev) : Dev :=
    offer p 5 { len := max 64 len } { d with flows.igmpSent := tupd d.flows.igmpSent p (· + 1) }
  if (port p d).igmp = 3 then
    one (50 + (gs.map fun g => if g.src = 0 then 8 else 12).sum) d
  else gs.foldl (fun d _ => one 64 d) d

/-- Perby joins the groups that are wanted and leaves those that are not. -/
def syncGroups (d : Dev) : Dev :=
  if !perbyServes d || !blocksRun d then d
  else
    let want := wantedGroups d
    let old := d.flows.groups
    let change := (old.filter fun g => !want.contains g) ++ want.filter fun g => !old.contains g
    change.foldl (fun d g => sendIgmp g.port [g] d) { d with flows.groups := want }

/-- The groups joined on a port that a query asks for; group 0 is the general query. -/
def queriedGroups (p group : Nat) (d : Dev) : List McGroup :=
  d.flows.groups.filter fun g => decide (g.port = p ∧ (group = 0 ∨ g.group = group))

end Sys2Proof.Machine
end

