-- ==== Sys2Proof/Machine/FabOps.lean ====
section
/-! DEFINITION. Shared operations of the frame store's rings and of routing: slot sizes (R237 to R241), placement (R244),
slots and their holders (R282, R286, R318), predictions and group frames (R288 to R294). -/

namespace Sys2Proof.Machine

/-! ### Counters (R308, R350) -/

abbrev isSTARTED := 0x40
abbrev isREADY := 0x48
abbrev isABANDONED := 0x50
abbrev isNO_SLOT := 0x58
abbrev esOUT := 0x40
abbrev esNEW := 0x48
abbrev esREPEAT := 0x50
abbrev esDROP := 0x58
abbrev esLATE := 0x60
abbrev esTAKES := 0x68
abbrev esAUD_SLIP := 0x70
abbrev esAUD_RESET := 0x78
abbrev esLL_SUBST := 0x80
abbrev esLL_EXIT := 0x88
abbrev esLEDGER_MISS := 0x90
abbrev outUNDERRUN := 0x40
abbrev outPOISON := 0x48
abbrev outLATE := 0x50

def stream (r : Nat) (d : Dev) : Stream := tget d.fab.streams r
def updStream (r : Nat) (f : Stream → Stream) (d : Dev) : Dev := { d with fab.streams := tupd d.fab.streams r f }
def sBump (r k : Nat) (d : Dev) : Dev := updStream r (fun x => { x with ctrs := bump x.ctrs k }) d
def raster (e : Nat) (d : Dev) : Raster := tget d.fab.rasters e
def updRaster (e : Nat) (f : Raster → Raster) (d : Dev) : Dev := { d with fab.rasters := tupd d.fab.rasters e f }
def rBump (e k n : Nat) (d : Dev) : Dev := updRaster e (fun x => { x with ctrs := bumpBy x.ctrs k n }) d
def oBump (e k n : Nat) (d : Dev) : Dev := updRaster e (fun x => { x with outCtrs := bumpBy x.outCtrs k n }) d
def timGroup (g : Nat) (d : Dev) : TimGroup := tget d.fab.tgs g
def engine (e : Nat) (d : Dev) : Engine := tget d.cnv.engines e
def updEngine (e : Nat) (f : Engine → Engine) (d : Dev) : Dev := { d with cnv.engines := tupd d.cnv.engines e f }
def eBump (e k n : Nat) (d : Dev) : Dev := updEngine e (fun x => { x with ctrs := bumpBy x.ctrs k n }) d

/-- The streams whose ring exists. -/
def rings (d : Dev) : List Nat := tfind d.fab.streams fun x => decide (x.n ≠ 0)
/-- The rasters that are bound. -/
def rasters (d : Dev) : List Nat := tfind d.fab.rasters fun x => decide (x.n ≠ 0)

/-! ### Timing groups (R279) -/

/-- Φ of a timing group. -/
def tgPhase (g : TimGroup) : Time := (g.phase : Rat) + (g.frac : Rat) / 65536
/-- Frame boundary T_k. -/
def tgTime (g : TimGroup) (k : Nat) : Time := tgPhase g + (k : Rat) * framePeriod g.format
/-- The index of the last boundary at or before a house time. -/
def tgIndex (g : TimGroup) (t : Time) : Nat :=
  if framePeriod g.format ≤ 0 then 0 else ((t - tgPhase g) / framePeriod g.format).floor.toNat
/-- The first boundary at or after a house time. -/
def tgNext (g : TimGroup) (t : Time) : Nat := indexAtOrAfter t (tgPhase g) (framePeriod g.format)

/-! ### Slot sizes (R237 to R241) -/

/-- Samples in a word (R238). -/
def wordSamples (sampling : Nat) : Nat := if sampling = 8 then 16 else if sampling % 2 = 0 then 24 else 20

/-- The planes of a sampling as (samples a line, lines) of a W × H raster (R238). -/
def planes (sampling w h : Nat) : List (Nat × Nat) :=
  if sampling ≤ 1 then [(w, h), (w, h)]
  else if sampling = 6 ∨ sampling = 7 then [(w, h), (w, h / 2)]
  else [(w, h), (w, h), (w, h)]

/-- Granules of one slot: each plane rounded up to whole granules, then the ancillary area of ANC × n (R237); a
multi-link part holds a quarter of the raster (R241). -/
def slotGranules (format sampling n anc : Nat) (part : Bool) : Nat :=
  let w := activeWidth format / (if part then 2 else 1)
  let h := activeLines format / (if part then 2 else 1)
  (planes sampling w h).foldl (fun g p => g + ceilDiv (ceilDiv p.1 (wordSamples sampling) * p.2) 64) (anc * n)

/-! ### Placement (R244, R245) -/

/-- Elements `i` and `j` of a list exchanged. -/
def swapAt (l : List Nat) (i j : Nat) : List Nat :=
  let a := l.getD i 0
  let b := l.getD j 0
  (l.set i b).set j a

/-- One step of the keyed permutation of R244. -/
def permStep (key : BitVec 128) (ring n : Nat) (pi : List Nat) (i : Nat) : List Nat :=
  let h := sipHash key (le 1 (ring % 256) ++ le 1 (ring / 256) ++ le 1 n ++ le 1 i ++ [0, 0, 0, 0])
  swapAt pi i (h.toNat % (i + 1))

/-- The keyed permutation of 0 … N − 1 for a ring (R244). -/
def permutation (key : BitVec 128) (ring n : Nat) : List Nat :=
  ((List.range (n - 1)).map (fun k => n - 1 - k)).foldl (permStep key ring n) (List.range n)

/-- q of R244. -/
def layoutQ (l : Layout) : Nat := ceilDiv l.g l.set.length

/-- Granules of each slot on each pseudo-channel of a set, in the set's order: the first G mod N entries of the
permutation receive q granules and the others one fewer (R244). -/
def placedCounts (key : BitVec 128) (ring g : Nat) (set : List Nat) : List Nat :=
  let n := set.length
  let pi := permutation key ring n
  let q := ceilDiv g n
  let full := if g % n = 0 then pi else pi.take (g % n)
  (List.range n).map fun i => if full.contains i then q else g / n

/-- Extents of a ring's area (R245). -/
def areaExtents (depth g n : Nat) : Nat := ceilDiv (depth * ceilDiv g n) 64

/-- Extents of each pseudo-channel's data region (R230). -/
def extentLimit : Nat := if Config.otpCapacity = .gib24 then 6080 else 4032
/-- Granules of each pseudo-channel's data region (R230). -/
def dataGranules : Nat := 64 * extentLimit
/-- Capacity of a pseudo-channel in bytes (R230). -/
def pcBytes : Nat := (dataGranules + 4096) * 2048

/-- Every extent that a ring holds, under its layouts old and new. -/
def heldExtents (x : Stream) : List Nat := x.lay.extents ++ (match x.old with
  | some l => l.extents
  | none => [])

def usedExtents (d : Dev) : List Nat := d.fab.streams.flatMap fun e => heldExtents e.2

/-- The lowest-numbered free extents, `count` of them, looking at `fuel` extents from `e` on. -/
def lowestFree (used : List Nat) : Nat → Nat → Nat → List Nat
  | 0, _, _ => []
  | f + 1, e, count =>
    if count = 0 then []
    else if used.contains e then lowestFree used f (e + 1) count
    else e :: lowestFree used f (e + 1) (count - 1)

/-- The parameters of a slot's ring. -/
def ringCfg (r : Nat) (d : Dev) : RingCfg := tget d.memc.rings r

/-- A stream's ring belongs to a multi-link part. -/
def isPart (x : Stream) : Bool := decide (x.kind = 2)

/-- The layout that a ring should have now. -/
def wantedLayout (r : Nat) (x : Stream) (d : Dev) : Layout :=
  let c := ringCfg r d
  { set := d.memc.set, key := d.memc.key, depth := c.depth, anc := c.anc,
    g := slotGranules x.format x.sampling x.n c.anc (isPart x), epoch := d.memc.epoch }

/-- A ring's layout differs from the one it should have: it migrates, or waits to (R246). -/
def needsMove (r : Nat) (x : Stream) (d : Dev) : Bool :=
  let w := wantedLayout r x d
  decide (x.n ≠ 0) && decide (w.set ≠ x.lay.set ∨ w.key ≠ x.lay.key ∨ w.depth ≠ x.lay.depth ∨ w.g ≠ x.lay.g)

/-- The wanted layout with its extents, the lowest-numbered free ones. -/
def allocLayout (r : Nat) (x : Stream) (d : Dev) : Layout :=
  let w := wantedLayout r x d
  { w with extents := lowestFree (usedExtents d) extentLimit 0 (areaExtents w.depth w.g w.set.length) }

/-- FREE slots up to a depth. -/
def freeSlots (n : Nat) : List Slot := List.replicate n {}

/-! ### Readers of a ring (R262, R286, R318) -/

/-- Fields of a `CNV_CONFIG` payload (R351). -/
def cvGang (p : List Byte) : Nat := u8 p 1
def cvTg (p : List Byte) : Nat := u8 p 2
def cvSampling (p : List Byte) : Nat := u8 p 3
def cvSrcKind (p : List Byte) : Nat := u8 p 4
def cvSrc (p : List Byte) : Nat := u16 p 6
def cvDeint (p : List Byte) : Nat := u8 p 8
def cvTmode (p : List Byte) : Nat := u8 p 9

/-- The rings of a multi-link receive group's four parts, in link order. -/
def partRings (group : Nat) (d : Dev) : List Nat :=
  [0, 1, 2, 3].flatMap fun k => tfind d.fab.streams fun x => decide (x.n ≠ 0 ∧ x.kind = 2 ∧ x.id = group * 4 + k)

/-- The receiver of an ingress producer: SDI receivers by lane, framers from 192. -/
def receiverOf (kind id : Nat) (d : Dev) : Option Nat :=
  match kind with
  | 1 => some (id % 256)
  | 2 => (tget d.mlinks (id / 4)).lanes.find? fun n => decide ((tget d.sdiRx n).link = id % 4 + 1)
  | 4 => some (192 + id)
  | _ => none

/-- The source channels that a receiver's stream de-embeds, in channel order. -/
def deembedded (n stream : Nat) (d : Dev) : List Nat :=
  ((tget d.sdiRx n).audio.filter fun e => decide (e.1 / 32 = stream)).map fun e => e.2 - 1

/-- An explicit alignment group (R291). Groups 0 to 47 follow the multi-link receive groups: the part rings, link 1's
ancillary and link 1's de-embedded audio. -/
def alignGroup (a : Nat) (d : Dev) : AlignGroup :=
  let g := tget d.fab.ags a
  if a < 48 then
    let m := tget d.mlinks a
    if !m.used then { g with state := 0, members := [] }
    else
      let audio := match receiverOf 2 (4 * a) d with
        | some n => (deembedded n 0 d).map fun c => (⟨3, c, 1⟩ : AlignMember)
        | none => []
      { g with state := 2, members := ((partRings a d).map fun r => ⟨1, r, 0⟩) ++ audio }
  else g

/-- The explicit group that a ring belongs to. -/
def groupOfRing (r : Nat) (d : Dev) : Option Nat :=
  let x := stream r d
  if x.kind = 2 ∧ x.n ≠ 0 then some (x.id / 4)
  else (d.fab.ags.find? fun e => decide (e.2.state = 1) && e.2.members.any fun m => decide (m.kind = 1 ∧ m.id = r)).map (·.1)

/-- The video members of a route's source, the reference first (R285, R292). -/
def videoRings (kind src : Nat) (d : Dev) : List Nat :=
  match kind with
  | 1 => [src]
  | 2 => (((alignGroup src d).members.filter fun m => decide (m.kind = 1)).map (·.id)).mergeSort fun a b => decide (a ≤ b)
  | _ => []

/-- The ancillary flows of a route's source (R293). -/
def ancFlows (kind src : Nat) (d : Dev) : List Nat :=
  if kind = 2 then ((alignGroup src d).members.filter fun m => decide (m.kind = 2)).map (·.id) else []

/-- The source channels of a route's audio members, in member order (R291, R295). -/
def routeAudio (kind src : Nat) (d : Dev) : List Nat :=
  match kind with
  | 1 =>
    let x := stream src d
    (match receiverOf x.kind x.id d with
     | some n => if x.kind = 2 then [] else deembedded n (if x.kind = 1 then x.id / 256 else 0) d
     | none => [])
  | 2 => (alignGroup src d).members.flatMap fun m =>
      if m.kind = 3 then (List.range m.channels).map (m.id + ·) else []
  | _ => []

/-- A raster's routes: the one in force and the one that a waiting take brings. -/
def rasterRoutes (x : Raster) : List Route := x.route :: x.takes.map (·.route)

/-- A raster reads a ring. -/
def readsRing (x : Raster) (r : Nat) (d : Dev) : Bool :=
  decide (x.n ≠ 0) && (rasterRoutes x).any fun t => (videoRings t.srcKind t.src d).contains r

/-- Egress rasters that read a ring (E_n of R262). -/
def readers (r : Nat) (d : Dev) : Nat := (d.fab.rasters.filter fun e => readsRing e.2 r d).length

/-- The rings that a conversion reads (R312). -/
def conversionRings (p : List Byte) (d : Dev) : List Nat :=
  if cvSrcKind p = 2 then partRings (cvSrc p) d else [cvSrc p]

/-- The enabled conversions, by first engine. -/
def conversions (d : Dev) : List Nat := tfind d.cnv.engines fun e => e.en && decide (e.conf ≠ [])

/-- A reader holds frame `num` of a ring (R282, R286, R318): a raster the frames it shows and has planned, an engine every
frame that a later selection can still name. -/
def isHeld (r : Nat) (s : Slot) (d : Dev) : Bool :=
  (d.fab.rasters.any fun e =>
    (match e.2.shown with
     | some f => f.parts.contains (r, s.num)
     | none => false) || (match e.2.plan with
     | some p => p.parts.contains (r, s.num)
     | none => false))
  || (conversions d).any fun e =>
    let x := engine e d
    (conversionRings x.conf d).contains r
      && (match x.startA with
          | some t => decide (t - (if cvDeint x.conf = 1 then framePeriod (stream r d).format else 0) ≤ s.start)
          | none => decide (d.house - (x.tdelay : Rat) * us - framePeriod (stream r d).format ≤ s.start))

/-- ABANDONED slots that no reader holds become FREE, and rings that are unbound and unheld are deleted (R236, R282). -/
def sweep (d : Dev) : Dev :=
  let clean (r : Nat) (x : Stream) : Stream :=
    { x with slots := x.slots.map fun s => if s.state = 3 ∧ isHeld r s d = false then { s with state := 0, anc := [], words := 0 } else s }
  let keep (r : Nat) (x : Stream) : Bool :=
    x.bound || x.slots.any fun s => decide (s.state = 1) || (decide (s.state = 2 ∨ s.state = 3) && isHeld r s d)
  let streams := tmap d.fab.streams clean
  { d with fab.streams := tmap streams fun r x => if x.n ≠ 0 ∧ keep r x = false then { ctrs := x.ctrs, overflow := x.overflow } else x }

/-- A raster no longer shows the old copy of a glyph that is being replaced; when none does, the new copy is the glyph
(R347). -/
def glyphPassed (e : Nat) (d : Dev) : Dev :=
  let l := d.fab.newGlyphs.map fun g => (g.1, g.2.1, g.2.2.filter fun s => decide (s ≠ e))
  let d := { d with fab.newGlyphs := l.filter fun g => decide (g.2.2 ≠ []) }
  (l.filter fun g => decide (g.2.2 = [])).foldl (fun d g => { d with fab.glyphs := tset d.fab.glyphs g.1 g.2.1 }) d

/-- A glyph is loaded (R347): at once where no raster is bound, else when the last raster has changed to it. -/
def loadGlyph (g : Nat) (bytes : List Byte) (d : Dev) : Dev :=
  if rasters d = [] then { d with fab.glyphs := tset d.fab.glyphs g bytes }
  else { d with fab.newGlyphs := (d.fab.newGlyphs.filter fun x => decide (x.1 ≠ g)) ++ [(g, bytes, rasters d)] }

/-! ### Slots (R282 to R284) -/

/-- The slot of a frame that is being written or is READY. -/
def slotOf (x : Stream) (num : Nat) : Option Slot :=
  x.slots.find? fun s => decide ((s.state = 1 ∨ s.state = 2) ∧ s.num = num)

/-- A raster reads its frame line-locked while its producer is still writing it, or has abandoned it (R299, R300). -/
def readsUnready (x : Raster) (d : Dev) : Bool :=
  x.route.locked && !x.exited && (match x.shown with
    | some f => f.parts.any fun p => (slotOf (stream p.1 d) p.2).all fun s => decide (s.state ≠ 2)
    | none => false)

/-- A slot of a ring changed. -/
def updSlot (r num : Nat) (f : Slot → Slot) (d : Dev) : Dev :=
  updStream r (fun x => { x with slots := x.slots.map fun s => if s.state ≠ 0 ∧ s.num = num then f s else s }) d

/-- Lines substituted when the frame that a line-locked raster reads is abandoned: those the producer had not yet
written (R300). -/
def substituteLines (r num : Nat) (d : Dev) : Dev :=
  (rasters d).foldl (fun d e =>
    let x := raster e d
    match x.shown with
    | some f =>
      if x.route.locked ∧ !x.exited ∧ f.parts.contains (r, num) then
        updRaster e (fun x => { x with toCome := 0 }) (rBump e esLL_SUBST x.toCome d)
      else d
    | none => d) d

/-- An output frame of a converter engine leaves progress, done or abandoned (R334). -/
def engineFrameGone (r num counter : Nat) (d : Dev) : Dev :=
  match tfind d.cnv.engines fun e => e.frames.any fun f => decide (f.2 = (r, num)) with
  | [] => d
  | e :: _ => eBump e counter 1 (updEngine e (fun x =>
      let fs := x.frames.filter fun f => decide (f.2 ≠ (r, num))
      { x with
        frames := fs, fetch := if fs = [] then 0 else x.fetch, held := if fs = [] then 0 else x.held,
        out := if fs = [] then 0 else x.out,
        tokens := if fs = [] then x.tokens + x.fetch + x.held + x.out else x.tokens }) d)

/-- A frame being written is abandoned (R282): its slot goes to ABANDONED while a reader holds it, else to FREE. -/
def abandonFrameAt (r num : Nat) (d : Dev) : Dev :=
  match (stream r d).slots.find? fun s => decide (s.state = 1 ∧ s.num = num) with
  | none => d
  | some s =>
    let held := isHeld r s d
    engineFrameGone r num 0x50 (substituteLines r num (updSlot r num (fun s =>
      if held then { s with state := 3 } else { s with state := 0, anc := [], words := 0 }) (sBump r isABANDONED d)))

/-- The newest or the oldest frame that a ring's producer is writing. -/
def writingFrame (r : Nat) (newest : Bool) (d : Dev) : Option Nat :=
  let ws := ((stream r d).slots.filter fun s => decide (s.state = 1)).map (·.num)
  match ws with
  | [] => none
  | w :: rest => some (rest.foldl (fun a b => if newest then max a b else min a b) w)

/-- Every frame that a ring's producer is writing is abandoned. -/
def abandonWriting (r : Nat) (d : Dev) : Dev :=
  (((stream r d).slots.filter fun s => decide (s.state = 1)).map (·.num)).foldl (fun d n => abandonFrameAt r n d) d

/-- The slot that a new frame takes: a FREE one, else the oldest READY one that no reader holds (R282). A ring whose depth
has shrunk first gives back its oldest unheld slots. -/
def dropExtra (r : Nat) : Nat → Dev → Dev
  | 0, d => d
  | f + 1, d =>
    let x := stream r d
    if x.slots.length ≤ x.lay.depth then d
    else
      let free := x.slots.find? fun s => decide (s.state = 0)
      let old := (x.slots.filter fun s => decide (s.state = 2) && !isHeld r s d).foldl (fun o s =>
        match o with
        | none => some s
        | some (t : Slot) => if s.num < t.num then some s else some t) none
      match free.or old with
      | some s => dropExtra r f (updStream r (fun x => { x with slots := x.slots.erase s }) d)
      | none => d

/-- The place in the slot list that the next frame takes. -/
def takeSlot (r : Nat) (d : Dev) : Option Nat :=
  let x := stream r d
  match findIdx? (fun s : Slot => decide (s.state = 0)) x.slots with
  | some (i, _) => some i
  | none =>
    let c := x.slots.filter fun s => decide (s.state = 2) && !isHeld r s d
    match c with
    | [] => none
    | a :: t =>
      let o := t.foldl (fun a b => if b.num < a.num then b else a) a
      (findIdx? (fun s : Slot => decide (s = o)) x.slots).map (·.1)

/-- The lowest slot index of the layout in force that no slot written under it uses. -/
def freeIndex (x : Stream) : Nat :=
  let used := (x.slots.filter fun s => decide (s.state ≠ 0) && !s.old).map (·.index)
  ((List.range 64).find? fun i => !used.contains i).getD 0

/-- The 90 kHz count of a START, which IP producers take from the RTP timestamp (R208, R281). -/
def rtpOf (t : Time) : Nat := ((roundAway (t * 90000 / 1000000000)) % (2 : Int) ^ 32).toNat

/-- A producer begins a frame (R281, R282): it takes a slot, or F_NO_SLOT counts. -/
def beginFrame (r : Nat) (start : Time) (d : Dev) : Dev :=
  let d := dropExtra r 32 d
  match takeSlot r d with
  | none => sBump r isNO_SLOT d
  | some i =>
    sBump r isSTARTED (updStream r (fun x =>
      { x with
        slots := x.slots.set i { state := 1, index := freeIndex x, num := x.next, start := start, ts := rtpOf start },
        next := x.next + 1, starts := (start :: x.starts).take 17, begunAt := d.house }) d)

/-! ### Predictions (R288) -/

/-- P̂. -/
def pHat (x : Stream) : Time :=
  if x.kind = 3 ∨ x.kind = 4 ∨ x.starts.length < 2 then framePeriod x.format
  else (x.starts.headD 0 - x.starts.getLastD 0) / ((x.starts.length - 1 : Nat) : Rat)

/-- R̂. -/
def rHat (x : Stream) : Time :=
  match x.rs with
  | [] => pHat x
  | r :: t => t.foldl (fun a b => if a < b then b else a) r

/-- START of a frame, predicted for one not yet begun; none for an abandoned one. -/
def startOf (x : Stream) (f : Nat) : Option Time :=
  if f < x.next then (slotOf x f).map (·.start)
  else x.starts.head?.map fun s => s + ((f + 1 - x.next : Nat) : Rat) * pHat x

/-- The predicted ready time r̂_f. -/
def rhat (x : Stream) (f : Nat) : Option Time :=
  if f < x.next then (slotOf x f).map fun s => if s.state = 2 then s.ready else s.start + rHat x
  else (startOf x f).map (· + rHat x)

/-- Frame numbers that may be meant at a time: those in slots and those the cadence brings until then. -/
def knownFrames (x : Stream) (until_ : Time) : List Nat :=
  let begun := (x.slots.filter fun s => decide (s.state = 1 ∨ s.state = 2)).map (·.num)
  let more := match x.starts.head? with
    | some s => if pHat x ≤ 0 then 0 else ((until_ - s) / pHat x).floor.toNat
    | none => 0
  begun ++ (List.range (min more 64)).map (x.next + ·)

/-- The next frame after `cur`: the lowest-numbered above it that has not been abandoned (R284). -/
def nextAfter (x : Stream) (cur : Nat) : Nat :=
  ((x.slots.filter fun s => decide ((s.state = 1 ∨ s.state = 2) ∧ cur < s.num)).map (·.num)).foldl min (max x.next (cur + 1))

/-- The frame `v` frames before `f`, counting frames that were not abandoned (R284, R287). -/
def framesBefore (x : Stream) (f v : Nat) : Option Nat :=
  if v = 0 then some f
  else
    let below := ((x.slots.filter fun s => decide ((s.state = 1 ∨ s.state = 2) ∧ s.num < f)).map (·.num))
      ++ ((List.range (f - x.next)).map (x.next + ·))
    (below.mergeSort fun a b => decide (b ≤ a))[v - 1]?

/-- The frame of a member whose START lies nearest a reference START, within a tolerance (R292). -/
def nearestFrame (x : Stream) (s tol : Time) : Option Nat :=
  let c := (knownFrames x (s + pHat x)).filterMap fun f => (startOf x f).map fun t => (f, absQ (t - s))
  match c with
  | [] => none
  | a :: l =>
    let b := l.foldl (fun a b => if b.2 < a.2 then b else a) a
    if b.2 ≤ tol then some b.1 else none

/-- The pairing tolerance of a group (R132, R292): the multi-link window, or a quarter of P̂. -/
def pairTol (kind src : Nat) (ref : Stream) (d : Dev) : Time :=
  if kind = 2 ∧ src < 48 then
    let m := tget d.mlinks src
    (m.window : Rat) * linePeriod (linkFormat m.mapping ref.format)
  else pHat ref / 4

/-- A group frame (R292): its parts by ring and number; none where a member lacks a partner. -/
def groupFrame (kind src f : Nat) (d : Dev) : Option (List (Nat × Nat)) :=
  match videoRings kind src d with
  | [] => none
  | r :: rest =>
    let x := stream r d
    match startOf x f with
    | none => none
    | some s =>
      rest.foldl (fun o m => match o with
        | none => none
        | some ps => (nearestFrame (stream m d) s (pairTol kind src x d)).map fun g => ps ++ [(m, g)]) (some [(r, f)])

/-- The latest predicted ready time of a group frame's parts. -/
def groupRhat (parts : List (Nat × Nat)) (d : Dev) : Option Time :=
  parts.foldl (fun o p => match o, rhat (stream p.1 d) p.2 with
    | some a, some b => some (if a < b then b else a)
    | _, _ => none) (some 0)

/-- An ancillary flow is running (R293). -/
def flowRunning (n : Nat) (f : Nat) (d : Dev) : Bool :=
  let x := tget d.flows.rx n
  x.en && decide (x.lastTs.isSome ∧ (d.up - 2 * framePeriod f ≤ x.lastA ∨ d.up - 2 * framePeriod f ≤ x.lastB))

/-- An ancillary flow's frame of a timestamp has closed (R189, R293). -/
def flowClosed (n ts : Nat) (d : Dev) : Bool :=
  let x := tget d.flows.rx n
  !(x.frames.any fun f => decide (f.ts = ts)) && (match x.lastTs with
    | some t => decide (0 ≤ signed 32 (twos 32 ((t : Int) - ts)))
    | none => false)

/-- Every part of a group frame, and every gating ancillary flow's frame, is READY (R289, R293). -/
def groupReady (kind src : Nat) (parts : List (Nat × Nat)) (d : Dev) : Bool :=
  decide (parts ≠ []) && parts.all (fun p => match slotOf (stream p.1 d) p.2 with
    | some s => decide (s.state = 2)
    | none => false)
  && (match parts with
      | p :: _ =>
        let x := stream p.1 d
        (ancFlows kind src d).all fun n => !flowRunning n x.format d || (match slotOf x p.2 with
          | some s => flowClosed n s.ts d
          | none => false)
      | [] => false)

/-- The newest group frame, among those numbered above `above`, predicted ready by a time (R289). -/
def newestReady (kind src above : Nat) (by_ : Time) (d : Dev) : Option Nat :=
  match videoRings kind src d with
  | [] => none
  | r :: _ =>
    let x := stream r d
    let c := (knownFrames x by_).filter fun f => decide (above ≤ f) && (match groupFrame kind src f d with
      | some ps => (match groupRhat ps d with
        | some t => decide (t ≤ by_)
        | none => false)
      | none => false)
    match c with
    | [] => none
    | a :: l => some (l.foldl max a)

/-! ### Ancillary records (R240) -/

/-- Words of a stored packet's record. -/
def ancWords (p : AncPacket) : Nat := 1 + ceilDiv p.udw.length 24

/-- A packet is stored with the frame in a slot, or does not fit and counts (R240). -/
def storeAnc (r num : Nat) (p : AncPacket) (d : Dev) : Dev :=
  let x := stream r d
  match slotOf x num with
  | none => d
  | some s =>
    if s.words + ancWords p ≤ 64 * x.lay.anc * x.n then
      updSlot r num (fun s => { s with anc := s.anc ++ [p], words := s.words + ancWords p }) d
    else updStream r (fun x => { x with overflow := x.overflow + 1 }) d

end Sys2Proof.Machine
end

