-- ==== Sys2Proof/Machine/MemcOps.lean ====
section
/-! DEFINITION. Shared operations of MEMC: admission (R262 to R267, R336, R337), memory tags (R247), what becomes of
requests at a pseudo-channel in reset (R251), migration and retirement (R246, R268 to R271), and where the system region
lies (R234). -/

namespace Sys2Proof.Machine

/-! ### Admission -/

/-- Frames per second of a format (R262). -/
def framesPerSecond (f : Nat) : Rat := if framePeriod f ≤ 0 then 0 else 1000000000 / framePeriod f

/-- v_n: bytes per second of one granule of a ring's slot (R262). -/
def granuleRate (f : Nat) : Rat := 2048 * framesPerSecond f * 1001 / 1000

/-- Output pictures per second of a conversion (R336). -/
def picturesPerSecond (f : Nat) : Rat := framesPerSecond f * (if byField f then 2 else 1)

/-- The read factor a (R314). -/
def readFactor (srcFormat deint tmode : Nat) : Rat :=
  if !interlaced srcFormat then (if tmode = 0 then 1 else 2)
  else if deint = 0 then (if tmode = 0 then 1 / 2 else 1) else (if tmode = 0 then 3 / 2 else 3)

/-- Bytes per second that a conversion reads of each granule of ring `r` (R336). -/
def convRate (p : List Byte) (r : Nat) (d : Dev) : Rat :=
  2048 * picturesPerSecond (timGroup (cvTg p) d).format * (1001 / 1000)
    * readFactor (stream r d).format (cvDeint p) (cvTmode p)

/-- Bytes per second that each granule of ring `r` costs: its producer, its rasters and its conversions. -/
def ringWeight (r : Nat) (d : Dev) : Rat :=
  granuleRate (stream r d).format * ((1 + readers r d : Nat) : Rat)
    + (conversions d).foldl (fun a e =>
        if (conversionRings (engine e d).conf d).contains r then a + convRate (engine e d).conf r d else a) 0

/-- Granules of a ring's slot on each pseudo-channel of a set: exactly where its layout is settled, also on the partner's
set (R267), and the larger ⌈G ÷ N⌉ of the old and the new one while it migrates or waits to (R262, R264). -/
def ringCounts (r : Nat) (x : Stream) (set : List Nat) (d : Dev) : List Nat :=
  let w := wantedLayout r x d
  if needsMove r x d = false ∧ x.old = none then placedCounts d.memc.key r x.lay.g set
  else
    let ceil (g n : Nat) := ceilDiv g n
    let a := max (ceil x.lay.g x.lay.set.length) (ceil w.g set.length)
    let b := match x.old with
      | some o => ceil o.g o.set.length
      | none => 0
    set.map fun _ => max a b

/-- L_j for every pseudo-channel of a set (R262). -/
def loadsOn (set : List Nat) (d : Dev) : List Rat :=
  (rings d).foldl (fun (acc : List Rat) r =>
    let w := ringWeight r d
    List.zipWith (fun (a : Rat) (c : Nat) => a + (c : Rat) * w) acc (ringCounts r (stream r d) set d))
    (set.map fun _ => (250000000 : Rat))

/-- B of R263. -/
def loadBound (d : Dev) : Rat :=
  (rings d).foldl (fun a r =>
    let x := stream r d
    a + ((ceilDiv (wantedLayout r x d).g d.memc.set.length : Nat) : Rat) * ringWeight r d) 250000000

/-- Extents of all rings under the layouts they hold, or would take where that is not yet allocated (R265). -/
def extentsNeeded (d : Dev) : Nat :=
  (rings d).foldl (fun a r => a + (heldExtents (stream r d)).length) 0

/-- Reads and writes through a converter port (R337). -/
def portReads (p : Nat) (d : Dev) : Rat :=
  (conversions d).foldl (fun a e =>
    if e / 3 = p then
      (conversionRings (engine e d).conf d).foldl (fun a r => a + ((stream r d).lay.g : Rat) * convRate (engine e d).conf r d) a
    else a) 0

def portWrites (p : Nat) (d : Dev) : Rat :=
  (rings d).foldl (fun a r =>
    let x := stream r d
    if x.kind = 5 ∧ x.id / 3 = p ∧ (engine x.id d).en then a + (x.lay.g : Rat) * granuleRate x.format else a) 0

/-- Every converter port stays within 35.2 GB/s (R337). -/
def portsAdmitted (d : Dev) : Bool :=
  (List.range 16).all fun p => decide (portReads p d ≤ 35200000000) && decide (portWrites p d ≤ 35200000000)

/-- Every L_j on a set is at most 25 GB/s (R262). -/
def loadsAdmitted (set : List Nat) (d : Dev) : Bool := (loadsOn set d).all fun l => decide (l ≤ 25000000000)

/-- A configuration is admitted (R262, R265, R337), in a pair for both units' sets (R267). -/
def admitted (d : Dev) : Bool :=
  loadsAdmitted d.memc.set d && decide (extentsNeeded d ≤ extentLimit) && portsAdmitted d
    && (match d.memc.partnerSet with
        | some s => decide (s = d.memc.set) || loadsAdmitted s d
        | none => true)

/-- A change from `a` to `b` adds load (R266, R271). -/
def addsLoad (a b : Dev) : Bool :=
  ((loadsOn a.memc.set a).zip (loadsOn b.memc.set b)).any (fun p => decide (p.1 < p.2))
    || decide (extentsNeeded a < extentsNeeded b)
    || (List.range 16).any fun p => decide (portReads p a < portReads p b ∨ portWrites p a < portWrites p b)

/-- A change is refused by admission: it adds load and the configuration after it is not admitted. -/
def overAdmission (a b : Dev) : Bool := !admitted b && addsLoad a b

/-- A load in MB/s, rounded up and saturating at 65,534 (R272, R273). -/
def loadMB (l : Rat) : Nat := min 65534 (l / 1000000).ceil.toNat

/-! ### Pseudo-channels and tags (R247) -/

def pc (k : Nat) (d : Dev) : Pc := tget d.memc.pcs k
def updPc (k : Nat) (f : Pc → Pc) (d : Dev) : Dev := { d with memc.pcs := tupd d.memc.pcs k f }
abbrev mRD := 0x40
abbrev mWR := 0x48
abbrev mCE := 0x50
abbrev mUE := 0x58
abbrev mPOISON_RD := 0x60
abbrev mPOISON_WR := 0x68
abbrev mSCRUB_WORDS := 0x70
abbrev mSCRUB_FIX := 0x78
abbrev mWR_DISCARD := 0x80
abbrev mHOLIDAY := 0x88
abbrev mHOLIDAY_FORCED := 0x90
abbrev mTAG_WAIT := 0x98
def pcBump (k c n : Nat) (d : Dev) : Dev := updPc k (fun x => { x with ctrs := bumpBy x.ctrs c n }) d

/-- Free tags of a pseudo-channel. -/
def tagsFree (x : Pc) : Nat := 512 - x.taken

/-- Tags reserved for a requester (R247). -/
def tagReserve (q : Nat) : Nat := if q < 64 then 6 else if q = 64 then 16 else if q = 65 then 4 else 0

/-- Tags that a requester holds. -/
def tagsHeld (x : Pc) (q : Nat) : Nat := ((x.queue ++ x.issued ++ x.returning).filter fun t => decide (t.req.requester = q)).length

/-- Shared tags in use. -/
def sharedHeld (x : Pc) : Nat := (List.range 66).foldl (fun n q => n + (tagsHeld x q - tagReserve q)) 0

/-- A requester can take one more tag: of its reservation, or one of the 108 shared tags of which it holds at most 64. -/
def canTag (x : Pc) (q : Nat) : Bool :=
  let h := tagsHeld x q
  decide (h < tagReserve q) || (decide (sharedHeld x < 108) && decide (h - tagReserve q < 64))

/-- A word's number in the device address space: its pseudo-channel and word (R230). -/
def wordKey (k w : Nat) : Nat := k * 2 ^ 25 + w

/-- The symbols in error with which a word stands in HBM. -/
def wordErrs (key : Nat) (d : Dev) : SymErr := tget d.memc.errs key

/-- A word is written: with the check bits of its data (none), those that its encoder formed and the fabric changed, or the
poison signature (R25, R233). -/
def setErrs (key : Nat) (e : SymErr) (d : Dev) : Dev := { d with memc.errs := tset d.memc.errs key e }

/-- A word reads exactly as the poison signature (R233). -/
def readsSig (e : SymErr) : Bool := decide (e ≠ []) && decide (errVector e = errVector poisonSig)

/-- What the MEMC checker finds of a word (R26): the poison signature is no error (R233). -/
def wordOutcome (e : SymErr) : Outcome := if readsSig e then .clean else checkOutcome e

/-- A word as it stands passes poisoned: it bears the signature or its errors cannot be corrected (R27). -/
def standsBad (key : Nat) (d : Dev) : Bool :=
  let e := wordErrs key d
  decide (e ≠ []) && (readsSig e || decide (checkOutcome e = .poisoned))

/-- The ring and slot index to whose layout a word belongs, and whether under the old layout. -/
def ringOfWord (w : Nat) (d : Dev) : Option (Nat × Nat × Bool) :=
  let g := w / 64
  let e := g / 64
  let within (l : Layout) : Option Nat :=
    (findIdx? (fun x => decide (x = e)) l.extents).map fun p => (p.1 * 64 + g % 64) / max 1 (layoutQ l)
  (rings d).findSome? fun r =>
    let x := stream r d
    match within x.lay with
    | some t => some (r, t, false)
    | none => match x.old with
      | some o => (within o).map fun t => (r, t, true)
      | none => none

/-- The words of frame `n` of a ring, just begun, stand with the check bits of their new data until an error comes to them (R25, R27). -/
def freshSlot (r n : Nat) (d : Dev) : Dev :=
  match slotOf (stream r d) n with
  | none => d
  | some s => { d with memc.errs := d.memc.errs.filter fun e => decide (ringOfWord (e.1 % 2 ^ 25) d ≠ some (r, s.index, s.old)) }

/-- A producer begins a frame, in a slot whose words it writes anew (R281, R282). -/
def beginWriting (r : Nat) (start : Time) (d : Dev) : Dev :=
  let n := (stream r d).next
  let u := beginFrame r start d
  if (stream r u).next = n then u else freshSlot r n u

/-- A frame that loses a write never becomes ready and is abandoned (R251). -/
def loseWrite (w : Nat) (d : Dev) : Dev :=
  match ringOfWord w d with
  | none => d
  | some (r, t, old) =>
    match (stream r d).slots.find? fun s => decide (s.state = 1 ∧ s.index = t ∧ s.old = old) with
    | some s => abandonFrameAt r s.num d
    | none => d

/-- A write that a pseudo-channel in reset or failure discards (R251, R261). -/
def discardWrite (k : Nat) (q : MemReq) (d : Dev) : Dev := loseWrite q.word (pcBump k mWR_DISCARD 1 d)

/-- Requests answered badly: in the reset of R251 and from FAILED onward. -/
def pcBad (x : Pc) : Bool := decide (x.state = 1 ∨ x.state = 5)

/-- A Holiday in progress on a pseudo-channel ends with its reset or failure. -/
def cutHoliday (k : Nat) (d : Dev) : Dev :=
  if (pc k d).holiday.isSome then updPc k (fun x => { x with holiday := none }) { d with memc.lastHoliday := some d.up } else d

/-- A stopped requester's queued requests are removed and their tags freed; issued ones complete (R250). -/
def dropQueued (p : MemReq → Bool) (d : Dev) : Dev :=
  { d with
    memc.pcs := tmap d.memc.pcs fun _ x =>
      { x with queue := x.queue.filter fun t => !p t.req, waiting := x.waiting.filter fun q => !p q,
               taken := x.taken - (x.queue.filter fun t => p t.req).length } }

/-- The requests of a stopped writer of rings, or of one of their readers, are dropped (R31, R32, R250): those of its requester
whose words lie in the rings. -/
def dropClient (requester : Nat) (rs : List Nat) (d : Dev) : Dev :=
  dropQueued (fun q => decide (q.requester = requester) && match ringOfWord q.word d with
    | some x => rs.contains x.1
    | none => false) d

/-! ### Migration and retirement -/

/-- Rings that migrate now (R246). -/
def migrating (d : Dev) : List Nat := (rings d).filter fun r => (stream r d).old.isSome

/-- MIGRATING (R268, R272). -/
def anyMigration (d : Dev) : Bool :=
  d.memc.retire.isSome || (rings d).any fun r => (stream r d).old.isSome || needsMove r (stream r d) d

/-- The device after a ring has begun to migrate (R246): new extents, every slot being of the old layout. -/
def migrate (r : Nat) (d : Dev) : Dev :=
  let l := allocLayout r (stream r d) d
  let d := updStream r (fun x => { x with
    old := some x.lay, lay := l,
    slots := (x.slots.map fun s => { s with old := decide (s.state ≠ 0) }) ++ freeSlots (l.depth - x.slots.length) }) d
  dropExtra r 32 d

/-- A ring can start to migrate: it waits for a new layout, admission passes, and its new extents fit (R246, R264,
R265). A forced retirement proceeds whatever the loads (R271). -/
def canMigrate (r : Nat) (d : Dev) : Bool :=
  let x := stream r d
  let w := wantedLayout r x d
  let need := areaExtents w.depth w.g w.set.length
  needsMove r x d && x.old.isNone && decide (extentsNeeded d + need ≤ extentLimit)
    && decide ((allocLayout r x d).extents.length = need)
    && ((match d.memc.retire with
      | some q => q.forced
      | none => false) || loadsAdmitted d.memc.set (migrate r d))

/-- N or the placement key changes: PLACE_EPOCH increments, and CFG_EPOCH with it (R272, R431). -/
def newPlaceEpoch (d : Dev) : Dev := { d with memc.epoch := (d.memc.epoch + 1) % 2 ^ 15, cfg.epoch := d.cfg.epoch + 1 }

/-- The retirement of pseudo-channels starts (R268 step 1, R270). -/
def startRetire (pcs : List Nat) (forced : Bool) (mbx : Nat) (tag : Word) (d : Dev) : Dev :=
  let d := pcs.foldl (fun d k => updPc k (fun x => { x with state := if x.state = 5 then 5 else if x.state = 1 then 1 else 3 }) d) d
  let r : Retire := match d.memc.retire with
    | some r => { r with pcs := r.pcs ++ pcs, forced := r.forced || forced, copied := false, since := d.up }
    | none => ⟨pcs, forced, false, d.up, mbx, tag⟩
  newPlaceEpoch { d with memc.retire := some r, memc.set := d.memc.set.filter fun k => !pcs.contains k }

/-- The check of R268 step 1: loads with N − 1, and room for every ring's extents beside the largest ring's. -/
def retireOk (k : Nat) (d : Dev) : Bool :=
  let d' := startRetire [k] false 0xFF 0 d
  let need := (rings d').foldl (fun a r =>
    let w := wantedLayout r (stream r d') d'
    a + areaExtents w.depth w.g w.set.length) 0
  let largest := (rings d).foldl (fun a r => max a (stream r d).lay.extents.length) 0
  decide (d'.memc.set ≠ []) && loadsAdmitted d'.memc.set d' && decide (need + largest ≤ extentLimit)

/-- A forced retirement (R261, R270). -/
def forceRetire (k : Nat) (d : Dev) : Dev :=
  if (match d.memc.retire with
      | some r => r.pcs.contains k
      | none => false) then
    { d with memc.retire := d.memc.retire.map fun r => { r with forced := true } }
  else startRetire [k] true 0xFF 0 d

/-- A configuration in force that is not admitted after a forced retirement (R271). -/
def overAdmitted (d : Dev) : Bool := !loadsAdmitted d.memc.set d

/-! ### The system region (R234) -/

/-- Pseudo-channel and system granule of a logical granule. -/
def sysPlace (s : Nat) (d : Dev) : Nat × Nat :=
  match tget d.memc.sysMoved s with
  | some p => p
  | none =>
    let n := d.memc.sysSet.length
    if n = 0 then (s % 64, s / 64) else (d.memc.sysSet.getD (s % n) 0, s / n)

/-- The device physical address of a byte of the system region (R230, R234). -/
def sysAddr (a : Nat) (d : Dev) : Nat :=
  let p := sysPlace (a / 2048) d
  p.1 * 2 ^ 30 + (dataGranules + p.2) * 2048 + a % 2048

/-- Bytes of the staging region (R234). -/
def stagingBytes : Nat := 67108864

/-- `n` bytes of the staging region. -/
def stagingRead (m : Mem) (d : Dev) (off n : Nat) : List Byte := (List.range n).map fun i => Mem.read m (sysAddr (off + i) d)

/-- A word of the system region bears the poison signature. -/
def sysPoisoned (a : Nat) (d : Dev) : Bool := standsBad (sysAddr a d / 32) d

end Sys2Proof.Machine
end

