-- ==== Sys2Proof/Machine/Pixels.lean ====
section
/-! DEFINITION. Pictures in the frame store: native components (R16), the words of planes and ancillary records (R238 to
R240), where a slot's words lie (R230, R244), multi-link division (R241), and the marker layer (R347, R348). A picture is a
list of planes, each a list of rows of native 16-bit component values. -/

namespace Sys2Proof.Machine

/-- Bits of a sampling's codes (R117, R185). -/
def codeBits (sampling : Nat) : Nat := if sampling = 8 then 16 else if sampling % 2 = 0 then 10 else 12

/-- A code as a native component, and back (R16). -/
def toNative (b c : Nat) : Nat := c * 2 ^ (16 - b)
def toCode (b v : Nat) : Nat := v / 2 ^ (16 - b)

/-- A component of a native pixel word (R16). -/
def nativeComp (w : BitVec 48) (c : Nat) : Nat := w.toNat / 2 ^ (16 * c) % 65536

/-- The component that sample `i` of a plane carries (R238). -/
def planeComp (sampling p i : Nat) : Nat :=
  if p = 1 ∧ (sampling ≤ 1 ∨ sampling = 6 ∨ sampling = 7) then 1 + i % 2 else p

/-- The black of a sampling (R344). -/
def blackOf (sampling : Nat) : BitVec 48 :=
  if sampling = 8 then 0 else if sampling = 4 ∨ sampling = 5 then 0x100010001000 else 0x800080001000

/-! ### Where a slot's words lie -/

/-- The frame row with which the first field begins (R322): row 1 on 525i, else row 0. -/
def firstRow (f : Nat) : Nat := if rasterCode f = 0 then 1 else 0

/-- The row of a plane of `h` rows at which a frame row is stored: first-field rows, then second-field rows (R239). -/
def storedRow (f h y : Nat) : Nat := if byField f then (if y % 2 = firstRow f then y / 2 else h / 2 + y / 2) else y

/-- The planes of a ring's slot as (samples a line, lines); a multi-link part holds a quarter of the raster (R237, R241). -/
def slotPlanes (x : Stream) : List (Nat × Nat) :=
  let q := if isPart x then 2 else 1
  planes x.sampling (activeWidth x.format / q) (activeLines x.format / q)

/-- P: words of a plane's line (R238). -/
def linePitch (sampling w : Nat) : Nat := ceilDiv w (wordSamples sampling)

/-- The first word of plane `p` in a slot; the ancillary area follows the last plane (R237). -/
def planeWord (x : Stream) (p : Nat) : Nat :=
  64 * (((slotPlanes x).take p).map fun q => ceilDiv (linePitch x.sampling q.1 * q.2) 64).sum

/-- The device physical address of word `w` of slot `t` of ring `r` under a layout, `pi` being the ring's keyed permutation
(R230, R244). -/
def slotAddr (l : Layout) (pi : List Nat) (t w : Nat) : Nat :=
  let n := l.set.length
  let g := w / 64
  let a := t * layoutQ l + g / n
  l.set.getD (pi.getD (g % n) 0) 0 * 2 ^ 30 + (64 * l.extents.getD (a / 64) 0 + a % 64) * 2048 + w % 64 * 32

/-- The layout under which a slot was written (R246). -/
def slotLayout (x : Stream) (s : Slot) : Layout := if s.old then x.old.getD x.lay else x.lay

/-- The permutation of a ring's layout. -/
def layoutPi (r : Nat) (l : Layout) : List Nat := permutation l.key r l.set.length

/-! ### Words of samples and of ancillary records -/

/-- A word of samples of `b` bits, the first in the lowest bits (R238). -/
def packWord (b : Nat) (codes : List Nat) : List Byte := le 32 (codes.foldr (fun c n => c % 2 ^ b + 2 ^ b * n) 0)

/-- The samples of a word. -/
def unpackWord (b n : Nat) (bytes : List Byte) : List Nat :=
  let v := leNat bytes
  (List.range n).map fun i => v / 2 ^ (b * i) % 2 ^ b

/-- A row of native components written to a slot. -/
def writeRow (r : Nat) (x : Stream) (s : Slot) (p y : Nat) (row : List Nat) (m : Mem) : Mem :=
  let l := slotLayout x s
  let pi := layoutPi r l
  let b := codeBits x.sampling
  let n := wordSamples x.sampling
  let (w, h) := (slotPlanes x).getD p (0, 0)
  if h ≤ y then m
  else
    let at_ := planeWord x p + storedRow x.format h y * linePitch x.sampling w
    let row := row.take w
    (List.range (ceilDiv row.length n)).foldl (fun m k =>
      Mem.writeN m (slotAddr l pi s.index (at_ + k)) (packWord b (((row.drop (k * n)).take n).map (toCode b)))) m

/-- A picture written to a slot, row by row. -/
def writePicture (r : Nat) (x : Stream) (s : Slot) (pic : Planes) (m : Mem) : Mem :=
  pic.zipIdx.foldl (fun m p => p.1.zipIdx.foldl (fun m row => writeRow r x s p.2 row.2 row.1 m) m) m

/-- The 10-bit Data_Count word: the count, its even parity, and the inverse of that. -/
def countWord (n : Nat) : Nat :=
  let c := n % 256
  let par := (List.range 8).foldl (fun a i => a + c / 2 ^ i) 0 % 2
  c + 256 * par + 512 * (1 - par)

/-- The header word of a packet's record (R240). -/
def ancHeader (p : AncPacket) : Nat :=
  fld 1 255 1 + fld (b2n p.c) 254 1 + fld p.line 243 11 + fld p.hoff 231 12 + fld (b2n p.s) 230 1 + fld p.stream 223 7
    + fld p.link 220 3 + fld (b2n p.field) 219 1 + fld p.did 209 10 + fld p.sdid 199 10 + fld p.dc 189 10
    + fld p.checksum 179 10

/-- The words of a slot's ancillary area: its packets' records, and the word that ends the list unless the area is full. -/
def ancArea (ps : List AncPacket) (room : Nat) : List (List Byte) :=
  let words := ps.flatMap fun p =>
    le 32 (ancHeader p) :: (List.range (ceilDiv p.udw.length 24)).map fun k => packWord 10 ((p.udw.drop (24 * k)).take 24)
  if words.length < room then words ++ [le 32 0] else words.take room

/-- A slot's ancillary records written behind its planes (R237, R240). -/
def writeAnc (r : Nat) (x : Stream) (s : Slot) (m : Mem) : Mem :=
  let l := slotLayout x s
  let pi := layoutPi r l
  (ancArea s.anc (64 * l.anc * x.n)).zipIdx.foldl (fun m w =>
    Mem.writeN m (slotAddr l pi s.index (planeWord x (slotPlanes x).length + w.2)) w.1) m

/-- A word that a read delivers poisoned: it bears the signature, or its pseudo-channel is in reset or failure (R233,
R251). -/
def badAddr (a : Nat) (d : Dev) : Bool := standsBad (a / 32) d || pcBad (pc (a / 2 ^ 30) d)

/-- The picture of a slot, `word` giving the samples of the word at an address by plane, first sample on the row and address. -/
def readSlot (r : Nat) (x : Stream) (s : Slot) (word : Nat → Nat → Nat → List Nat) : Planes :=
  let l := slotLayout x s
  let pi := layoutPi r l
  let n := wordSamples x.sampling
  (slotPlanes x).zipIdx.map fun p =>
    (List.range p.1.2).map fun y =>
      let at_ := planeWord x p.2 + storedRow x.format p.1.2 y * linePitch x.sampling p.1.1
      ((List.range (linePitch x.sampling p.1.1)).flatMap fun k =>
        word p.2 (k * n) (slotAddr l pi s.index (at_ + k))).take p.1.1

/-- A slot's picture as its readers see it; the samples of a poisoned word are those of `sub` (R331, R343). -/
def readPicture (r : Nat) (x : Stream) (s : Slot) (sub : BitVec 48) (d : Dev) (m : Mem) : Planes :=
  let b := codeBits x.sampling
  let n := wordSamples x.sampling
  readSlot r x s fun p i a =>
    if badAddr a d then (List.range n).map fun j => nativeComp sub (planeComp x.sampling p (i + j))
    else (unpackWord b n (Mem.readN m a 32)).map (toNative b)

/-! ### Multi-link division (R241) -/

/-- Pictures side by side, and one over the other. -/
def beside (a b : Planes) : Planes := List.zipWith (fun p q => List.zipWith (· ++ ·) p q) a b
def stacked (a b : Planes) : Planes := List.zipWith (· ++ ·) a b

/-- Two rows whose two-sample groups alternate. -/
def weaveRow : List Nat → List Nat → List Nat
  | a :: b :: t, c :: e :: u => a :: b :: c :: e :: weaveRow t u
  | _, _ => []

/-- Rows taken in turn from two planes. -/
def weaveRows : List (List Nat) → List (List Nat) → List (List Nat)
  | a :: t, b :: u => a :: b :: weaveRows t u
  | _, _ => []

/-- The full raster of four parts in link order. -/
def assembleParts (mapping : Nat) (p1 p2 p3 p4 : Planes) : Planes :=
  if mapping = 7 then stacked (beside p1 p2) (beside p3 p4)
  else
    let even := List.zipWith (fun p q => List.zipWith weaveRow p q) p1 p2
    let odd := List.zipWith (fun p q => List.zipWith weaveRow p q) p3 p4
    List.zipWith weaveRows even odd

/-- The picture of a group frame (R285, R341): the four parts of a multi-link group assembled, otherwise the reference
member's; `read` reads a slot. -/
def groupWith (parts : List (Nat × Nat)) (read : Nat → Stream → Slot → Planes) (d : Dev) : Planes :=
  let pic (p : Nat × Nat) : Planes :=
    match slotOf (stream p.1 d) p.2 with
    | some s => read p.1 (stream p.1 d) s
    | none => []
  match parts with
  | [] => []
  | p :: _ =>
    let x := stream p.1 d
    if isPart x then
      let link (k : Nat) : Planes := match parts.find? fun q => decide ((stream q.1 d).id % 4 = k) with
        | some q => pic q
        | none => []
      assembleParts (tget d.mlinks (x.id / 4)).mapping (link 0) (link 1) (link 2) (link 3)
    else pic p

def groupPicture (parts : List (Nat × Nat)) (sub : BitVec 48) (d : Dev) (m : Mem) : Planes :=
  groupWith parts (fun r x s => readPicture r x s sub d m) d

/-- 1 at the samples of a group frame that come from one word of HBM, 0 elsewhere. -/
def groupMask (parts : List (Nat × Nat)) (key : Nat) (d : Dev) : Planes :=
  groupWith parts (fun r x s => readSlot r x s fun _ _ a =>
    List.replicate (wordSamples x.sampling) (b2n (decide (a / 32 = key)))) d

/-! ### Output rasters (R341, R343, R344, R347, R348) -/

/-- A picture of one native pixel word (R344). -/
def plainPicture (format sampling : Nat) (w : BitVec 48) : Planes :=
  (planes sampling (activeWidth format) (activeLines format)).zipIdx.map fun p =>
    List.replicate p.1.2 ((List.range p.1.1).map fun i => nativeComp w (planeComp sampling p.2 i))

/-- The glyph that a raster shows: the new copy once the raster has changed to it (R347). -/
def glyphFor (e g : Nat) (d : Dev) : List Byte :=
  match d.fab.newGlyphs.find? fun n => decide (n.1 = g) && !n.2.2.contains e with
  | some n => n.2.1
  | none => tget d.fab.glyphs g

/-- The palette index of a glyph's pixel (R347). -/
def glyphPixel (b : List Byte) (x y : Nat) : Nat :=
  let v := (b.getD (64 * y + x / 2) 0).toNat
  if x % 2 = 0 then v % 16 else v / 16

/-- A marker is shown in output frame `k` (R348). -/
def markerShown (k : Marker) (frame : Nat) : Bool := k.en && (decide (k.on = 0) || decide (frame % (k.on + k.off) < k.on))

/-- A native component with a palette code over it (R348), rounded down to the raster's depth. -/
def blendPalette (bits_ : Nat) (alpha code p : Nat) : Nat :=
  toNative bits_ (toCode bits_ ((alpha * toNative 10 code + (255 - alpha) * p + 127) / 255))

/-- A raster's marker over one component at full-frame column `x` and row `y`. -/
def markerOver (e : Nat) (x : Raster) (k : Marker) (c px py v : Nat) (d : Dev) : Nat :=
  let s := 2 ^ k.scale
  if px < k.x ∨ py < k.y ∨ 128 * s ≤ px - k.x ∨ 32 * s ≤ py - k.y then v
  else
    let w := tget x.palette (glyphPixel (glyphFor e k.glyph d) ((px - k.x) / s) ((py - k.y) / s))
    blendPalette (codeBits x.sampling) (w % 256) (bits w (25 + 16 * c) (16 + 16 * c)) v

/-- The picture with the raster's markers drawn over it, in order 0 to 3; none on a KEYOUT raster (R348). Chroma takes the
co-sited even column and, for 4:2:0, the upper row of the pair. -/
def drawMarkers (e : Nat) (pic : Planes) (d : Dev) : Planes :=
  let x := raster e d
  let ms := ((List.range 4).map fun i => tget x.markers i).filter fun k => markerShown k x.frame
  if x.keyout ∨ ms = [] then pic
  else
    pic.zipIdx.map fun p => p.1.zipIdx.map fun row => row.1.zipIdx.map fun v =>
      let c := planeComp x.sampling p.2 v.2
      let half := decide (p.2 = 1) && decide (c ≠ p.2 ∨ x.sampling ≤ 1 ∨ x.sampling = 6 ∨ x.sampling = 7)
      let px := if half then v.2 / 2 * 2 else v.2
      let py := if half ∧ (x.sampling = 6 ∨ x.sampling = 7) then 2 * row.2 else row.2
      ms.foldl (fun n k => markerOver e x k c px py n d) v.1

/-- The picture that a raster reads for its output frame, under the markers: its frame's, the key plane's code 64 with
KEYOUT, or the background (R239, R341, R344). -/
def fetchedPicture (e : Nat) (d : Dev) (m : Mem) : Planes :=
  let x := raster e d
  let f := (timGroup x.tg d).format
  match x.shown with
  | none => plainPicture f x.sampling x.bg
  | some s => if x.keyout then plainPicture f x.sampling 0x800080001000 else groupPicture s.parts x.bg d m

/-- A raster begins to send its output frame (R341); of a frame that is still being written it has the lines of the frame
before until they come (R299, R300). -/
def sendPicture (e : Nat) (m : Mem) (d : Dev) : Dev :=
  let pic := if readsUnready (raster e d) d then (raster e d).pic else fetchedPicture e d m
  updRaster e (fun x => { x with pic := pic, sent := drawMarkers e pic d, prior := x.sent }) d

end Sys2Proof.Machine
end

