-- ==== Sys2Proof/Machine/SdiWords.lean ====
section
/-! DEFINITION. The words of SDI: line coding and TRS (R119), line numbers and CRC-18 (R123, R124), EDH, ancillary words (R134),
the lines of a format, how data streams carry pictures (R128, R129), and the frames that a transmitter generates (R137 to R149). -/

namespace Sys2Proof.Machine

/-! ### Line coding (R119) -/

/-- NRZI undone: a 1 is a change of level. -/
def nrziUndo : List Bool → List Bool
  | a :: b :: t => (a != b) :: nrziUndo (b :: t)
  | _ => []

/-- The self-synchronising scrambler G(x) = x^9 + x^4 + 1 undone, x being the delay of one bit. -/
def descramble (s : List Bool) : List Bool :=
  (List.range (s.length - 9)).map fun i => (s.getD (i + 9) false != s.getD (i + 5) false) != s.getD i false

/-- Bits as 10-bit words, the least significant bit first. -/
def words10 (s : List Bool) : List Nat :=
  (List.range (s.length / 10)).map fun k => (List.range 10).foldl (fun n i => n + b2n (s.getD (10 * k + i) false) * 2 ^ i) 0

/-- The words that coded bits carry, the first ten bits being what the decoders held. -/
def serialWords (coded : List Bool) : List Nat := words10 (descramble (nrziUndo coded))

/-- A TRS among the interleaved channels of a lane (R119): how many channels there are, and the XYZ word of each. -/
def trsOf (ws : List Nat) : Option (Nat × List Nat) :=
  let k := (ws.takeWhile fun w => decide (w = 0x3FF)).length
  if ([1, 2, 4, 8].contains k && decide (4 * k ≤ ws.length) && ((ws.drop k).take (2 * k)).all fun w => decide (w = 0)) = true then
    some (k, (ws.drop (3 * k)).take k)
  else none

/-- A data stream is a Y and a C channel in the HD form, one channel in level A and 12G (log entry 12). -/
def pairedChannels (mapping : Nat) : Bool := decide (mapping = 1 ∨ mapping = 3 ∨ mapping = 4 ∨ mapping = 5)

/-- The channels of a data stream, C before Y. -/
def channelsOf (mapping stream : Nat) : List Nat := if pairedChannels mapping then [2 * stream, 2 * stream + 1] else [stream]

/-- Interleaved channels of a mapping's lane. -/
def mappingWays (mapping : Nat) : Nat := dataStreams mapping * (if pairedChannels mapping then 2 else 1)

/-! ### Line words (R123, R124) -/

/-- One bit of the CRC-18 of ST 292-1, x^18 + x^5 + x^4 + 1, the least significant bit first. -/
def crc18Bit (c : Nat) (b : Bool) : Nat := Nat.xor (c / 2) (if (c % 2 == 1) != b then 0x23000 else 0)

/-- One 10-bit word. -/
def crc18Word (c w : Nat) : Nat := (List.range 10).foldl (fun c i => crc18Bit c (bitOf w i)) c

/-- The CRC-18 of words, from 0. -/
def crc18 (ws : List Nat) : Nat := ws.foldl crc18Word 0

/-- A word of nine bits with bit 9 the inverse of bit 8. -/
def word9 (v : Nat) : Nat := v % 512 + 512 * (1 - v / 256 % 2)

/-- The CRC words of a CRC-18. -/
def crcWords (c : Nat) : List Nat := [word9 c, word9 (c / 512)]

/-- LN0 and LN1. -/
def lnWords (l : Nat) : List Nat := [word9 (l % 128 * 4), word9 (l / 128 % 16 * 4)]

/-- The line that LN0 and LN1 name. -/
def lnOf (a b : Nat) : Nat := bits a 8 2 + 128 * bits b 5 2

/-- The active words of one channel of a received line, from the first after SAV to the CRC words that follow the next EAV. -/
def activeOf (ws : List Nat) : List Nat := ws.take (ws.length - 8)

/-- The line-number words at the end of a line, as the number they give. -/
def lineNumberOf (ws : List Nat) : Nat := lnOf (ws.getD (ws.length - 4) 0) (ws.getD (ws.length - 3) 0)

/-- The CRC words of a received line agree with its words (R124). -/
def lineCrcOk (ws : List Nat) : Bool := decide (crcWords (crc18 (ws.take (ws.length - 2))) = ws.drop (ws.length - 2))

/-! ### Lines of a format -/

/-- The frame row that a line of a data stream carries; none in the vertical blanking interval (R239, R346). -/
def rowOfLine (f line : Nat) : Option Nat :=
  let fields (a b n : Nat) (first : Nat) : Option Nat :=
    if a ≤ line ∧ line < a + n then some (2 * (line - a) + first)
    else if b ≤ line ∧ line < b + n then some (2 * (line - b) + (1 - first))
    else none
  match rasterCode f with
  | 0 => fields 21 283 243 1
  | 1 => fields 23 336 288 0
  | 2 => if 26 ≤ line ∧ line < 746 then some (line - 26) else none
  | 3 | 4 => fields 21 584 540 0
  | _ => if 42 ≤ line ∧ line < 1122 then some (line - 42) else none

/-- The F bit of a line. -/
def secondField (f line : Nat) : Bool :=
  match rasterCode f with
  | 0 => decide (line < 4 ∨ 266 ≤ line)
  | 1 => decide (313 ≤ line)
  | 3 | 4 => decide (564 ≤ line)
  | _ => false

/-- The switching lines of both fields (RP 168). -/
def switchLines (f : Nat) : List Nat :=
  match rasterCode f with
  | 0 => [10, 273] | 1 => [6, 319] | 3 | 4 => [7, 569] | _ => [7]

/-- The lines of the payload identifier (R138). -/
def pidLines (f : Nat) : List Nat :=
  match rasterCode f with
  | 0 => [13, 276] | 1 => [9, 322] | 3 | 4 => [10, 572] | _ => [10]

/-- Samples of a line S (R346). -/
def lineSamples (f : Nat) : Nat :=
  let r := rateCode f
  match rasterCode f with
  | 0 => 858
  | 1 => 864
  | 2 => if r = 5 then 1980 else if r = 2 then 3960 else if r = 3 ∨ r = 4 then 3300 else if r = 0 ∨ r = 1 then 4125 else 1650
  | 6 => if r = 2 ∨ r = 5 ∨ r = 8 then 5280 else if r = 0 ∨ r = 1 then 5500 else 4400
  | 7 => if r = 2 ∨ r = 5 then 10560 else if r = 0 ∨ r = 1 then 11000 else 8800
  | _ => if r = 2 ∨ r = 5 then 2640 else if r = 0 ∨ r = 1 then 2750 else 2200

/-- The raster line of picture row `y` (R346). -/
def rowLine (f y : Nat) : Nat :=
  let fields (first second l : Nat) : Nat := if y % 2 = l then first + y / 2 else second + y / 2
  match rasterCode f with
  | 0 => fields 21 283 1
  | 1 => fields 23 336 0
  | 2 => 26 + y
  | 3 | 4 => fields 21 584 0
  | 6 => 83 + y
  | 7 => 165 + y
  | _ => 42 + y

/-- From a frame boundary to active sample `x` of picture row `y` (R346). -/
def sampleOffset (f y x : Nat) : Time :=
  (((rowLine f y : Nat) : Rat) - 1 + (((lineSamples f - activeWidth f + x : Nat) : Rat) / (lineSamples f : Rat))) * linePeriod f

/-- From a frame boundary to the first active sample: the take instant after TAKE_FB (R346). -/
def takeOffset (f : Nat) : Time := sampleOffset f (if rasterCode f = 0 then 1 else 0) 0

/-- Words of vertical ancillary space in a line of one data stream: its active words (log entry 31). -/
def vancRoom (mapping f : Nat) : Nat := if mapping = 0 then 1440 else activeWidth (streamFormat f)

/-! ### EDH (RP 165) -/

/-- One 10-bit word into the EDH CRC-16, x^16 + x^12 + x^5 + 1, the least significant bit first. -/
def edhWord (c w : Nat) : Nat :=
  (List.range 10).foldl (fun c i => Nat.xor (c / 2) (if (c % 2 == 1) != bitOf w i then 0x8408 else 0)) c

/-- The lines that the full-field CRC of each field covers, and those of the active-picture CRC. -/
def edhFields (f : Nat) : List (Nat × Nat) := if rasterCode f = 0 then [(12, 271), (275, 8)] else [(8, 317), (321, 4)]
def edhActive (f : Nat) : List (Nat × Nat) := if rasterCode f = 0 then [(21, 262), (284, 525)] else [(24, 310), (336, 622)]

/-- The lines of the EDH packets. -/
def edhLines (f : Nat) : List Nat := if rasterCode f = 0 then [9, 272] else [5, 318]

/-- A line lies in a range that may pass the end of the frame. -/
def lineIn (l : Nat) (r : Nat × Nat) : Bool :=
  if r.1 ≤ r.2 then decide (r.1 ≤ l ∧ l ≤ r.2) else decide (r.1 ≤ l ∨ l ≤ r.2)

/-- The EAV or SAV of a line. -/
def trsWords (f line : Nat) (h : Bool) : List Nat := [0x3FF, 0, 0, xyzWord (secondField f line) (rowOfLine f line).isNone h]

/-- The running CRCs of a field after a line of SD with its horizontal blanking and active words: full field and active
picture. -/
def edhStep (f line : Nat) (blank active : List Nat) (c : Nat × Nat) : Nat × Nat :=
  let ff := match (edhFields f).find? (lineIn line) with
    | some r =>
      let first := decide (r.1 = line)
      ((if first then [] else trsWords f line true) ++ blank ++ trsWords f line false ++ active).foldl edhWord
        (if first then 0 else c.1)
    | none => c.1
  let ap := match (edhActive f).find? (lineIn line) with
    | some r => active.foldl edhWord (if r.1 = line then 0 else c.2)
    | none => c.2
  (ff, ap)

/-- A 10-bit word with bit 8 the even parity of bits [7:0] and bit 9 its inverse (R149). -/
def parityWord (v : Nat) : Nat := countWord v

/-- A CRC of an EDH packet from its three words: valid, and its value. -/
def edhCrcOf (a b c : Nat) : Bool × Nat := (bitOf c 7, bits a 7 2 + 64 * bits b 7 2 + 4096 * bits c 5 2)

/-- The three words of a valid CRC. -/
def edhCrcWords (v : Nat) : List Nat :=
  [parityWord (v % 64 * 4), parityWord (v / 64 % 64 * 4), parityWord (v / 4096 % 16 * 4 + 128)]

/-- The user data words of an EDH packet with valid CRCs and no error flag. -/
def edhUdw (ff ap : Nat) : List Nat := edhCrcWords ap ++ edhCrcWords ff ++ List.replicate 10 (parityWord 0)

/-- An EDH packet shows an error in its field (R124): a valid CRC that disagrees, or an error flag. -/
def edhError (udw : List Nat) (ff ap : Nat) : Bool :=
  let a := edhCrcOf (udw.getD 0 0) (udw.getD 1 0) (udw.getD 2 0)
  let b := edhCrcOf (udw.getD 3 0) (udw.getD 4 0) (udw.getD 5 0)
  (a.1 && decide (a.2 ≠ ap)) || (b.1 && decide (b.2 ≠ ff)) || ((udw.drop 6).take 3).any fun w => decide (bits w 6 2 ≠ 0)

/-! ### Ancillary words (R134) -/

/-- A word's parity bits are right. -/
def parityOk (w : Nat) : Bool := decide (parityWord (w % 256) = w)

/-- The checksum word of a packet: the sum of the low nine bits of its words, bit 9 the inverse of bit 8. -/
def ancSum (p : AncPacket) : Nat := word9 ((([p.did, p.sdid, p.dc] ++ p.udw).map fun w => w % 512).sum % 512)

/-- A packet's parity bits and checksum are right (R134). -/
def ancOk (p : AncPacket) : Bool := parityOk p.did && parityOk p.sdid && parityOk p.dc && decide (p.checksum = ancSum p)

/-- A packet with its parity and checksum generated anew (R137). -/
def regenerate (p : AncPacket) : AncPacket :=
  let q := { p with did := parityWord p.did, sdid := parityWord p.sdid, dc := parityWord p.udw.length }
  { q with checksum := ancSum q }

/-- A packet that a transmitter generates itself: type 2, in vertical ancillary space of the Y channel. -/
def madePacket (line stream did sdid : Nat) (udw : List Nat) : AncPacket :=
  regenerate ⟨false, line, 0xFFF, false, stream, 0, false, did, sdid, 0, udw, 0⟩

/-- Words of a packet in an ancillary space: ADF, DID, SDID, Data_Count, user data words and checksum. -/
def ancSpan (p : AncPacket) : Nat := 7 + p.udw.length

/-- Those words. -/
def ancWordList (p : AncPacket) : List Nat := [0, 0x3FF, 0x3FF, p.did, p.sdid, p.dc] ++ p.udw ++ [p.checksum]

/-! ### Pictures of data streams (R128, R129) -/

/-- Every second element, from the first or from the second. -/
def everySecond {α : Type} (odd : Bool) (l : List α) : List α :=
  (l.zipIdx.filter fun x => decide (x.2 % 2 = b2n odd)).map (·.1)

/-- Part `k` (0 to 3) of a picture, the inverse of `assembleParts`. -/
def dividePicture (mapping k : Nat) (pic : Planes) : Planes :=
  pic.map fun p =>
    if mapping = 7 then
      let rows := if k / 2 = 0 then p.take (p.length / 2) else p.drop (p.length / 2)
      rows.map fun r => if k % 2 = 0 then r.take (r.length / 2) else r.drop (r.length / 2)
    else (everySecond (decide (k / 2 = 1)) p).map fun r =>
      (r.zipIdx.filter fun x => decide (x.2 / 2 % 2 = k % 2)).map (·.1)

/-- Native components of 10-bit words. -/
def nativeRow (ws : List Nat) : List Nat := ws.map (toNative 10)

/-- The rows of a 4:2:2 image from two functions that give the Y and the C words of each line. -/
def imageOf (f : Nat) (y c : Nat → List Nat) : Planes :=
  let lines := (List.range (activeLines f)).map fun r =>
    ((List.range (totalLines f + 1)).find? fun l => decide (rowOfLine f l = some r)).getD 0
  [lines.map fun l => nativeRow (y l), lines.map fun l => nativeRow (c l)]

/-- The picture that the active words of a frame's lines carry, of one essence (R128, R129). -/
def pictureOf (mapping f sampling essence : Nat) (rows : Tab (List Nat × List Nat)) : Planes :=
  let at_ (s l : Nat) : List Nat × List Nat := tget rows (s * 4096 + l)
  let ds := streamFormat f
  let pair (s : Nat) : Planes := imageOf ds (fun l => (at_ s l).1) (fun l => (at_ s l).2)
  let two (s : Nat) : Planes := imageOf ds (fun l => (at_ (2 * s) l).1) (fun l => (at_ (2 * s + 1) l).1)
  match mapping with
  | 0 => imageOf ds (fun l => everySecond true (at_ 0 l).1) (fun l => everySecond false (at_ 0 l).1)
  | 1 => pair 0
  | 4 => pair essence
  | 5 => assembleParts 8 (pair 0) (pair 1) (pair 2) (pair 3)
  | 6 | 9 => assembleParts 8 (two 0) (two 1) (two 2) (two 3)
  | 3 => Config.sdiUnmap mapping f sampling rows
  | _ => if sampling = 0 then two 0 else Config.sdiUnmap mapping f sampling rows

/-- Row `r` of plane `p` as 10-bit words. -/
def rowWords (pic : Planes) (p r : Nat) : List Nat := ((pic.getD p []).getD r []).map (toCode 10)

/-- The active words of a line that carries row `r`, by channel Y and C, of one data stream of a mapping. -/
def streamWords (mapping f sampling stream line r : Nat) (pic : Planes) : List Nat × List Nat :=
  let both (q : Planes) : List Nat × List Nat := (rowWords q 0 r, rowWords q 1 r)
  let one (q : Planes) : List Nat × List Nat := (rowWords q (stream % 2) r, [])
  match mapping with
  | 0 => ((List.zipWith (fun c y => [c, y]) (rowWords pic 1 r) (rowWords pic 0 r)).flatten, [])
  | 1 | 4 => both pic
  | 5 => both (dividePicture 8 stream pic)
  | 6 | 9 => one (dividePicture 8 (stream / 2) pic)
  | 3 => (Config.sdiMap mapping f sampling stream line pic, [])
  | _ => if sampling = 0 then one pic else (Config.sdiMap mapping f sampling stream line pic, [])

/-- Blanking words of a channel: Y 0x040, C 0x200, in turn on SD. -/
def blankWords (mapping n : Nat) (chroma : Bool) : List Nat :=
  if mapping = 0 then (List.range n).map fun i => if i % 2 = 0 then 0x200 else 0x040
  else List.replicate n (if chroma then 0x200 else 0x040)

/-- A line of blanking with the packets of its vertical ancillary space. -/
def vancWords (mapping f line stream : Nat) (chroma : Bool) (ps : List AncPacket) : List Nat :=
  let ws := (ps.filter fun p => decide (p.line = line ∧ p.stream = stream ∧ p.hoff ≠ 0xFFE) && (decide (mapping = 0) || p.c == chroma)).flatMap ancWordList
  ws ++ (blankWords mapping (vancRoom mapping f) chroma).drop ws.length

/-- One line as the transmitter generates it (R144). -/
def txLine (mapping f sampling stream line : Nat) (pic : Planes) (ps : List AncPacket) : TxLine :=
  let ds := streamFormat f
  let next := if line = totalLines ds then 1 else line + 1
  let ws := match rowOfLine ds line with
    | some r => streamWords mapping f sampling stream line r pic
    | none => (vancWords mapping f line stream false ps, if pairedChannels mapping then vancWords mapping f line stream true ps else [])
  let crc (w : List Nat) : Nat := if mapping = 0 ∨ w = [] then 0 else crc18 (w ++ trsWords ds next true ++ lnWords next)
  { stream := stream, line := line, eav := xyzWord (secondField ds line) (rowOfLine ds line).isNone true,
    sav := xyzWord (secondField ds line) (rowOfLine ds line).isNone false, ln := if mapping = 0 then [] else lnWords line,
    y := ws.1, c := ws.2, crcY := crc ws.1, crcC := crc ws.2 }

/-- The lines of a frame on every data stream of a mapping (R144). -/
def txLines (mapping f sampling : Nat) (pic : Planes) (ps : List AncPacket) : List TxLine :=
  (List.range (totalLines (streamFormat f))).flatMap fun l =>
    (List.range (dataStreams mapping)).map fun s => txLine mapping f sampling s (l + 1) pic ps

/-! ### Placing ancillary packets (R137, R146) -/

/-- Words that packets already placed take in the vertical space of a line and channel. -/
def vancUsed (out : List AncPacket) (p : AncPacket) : Nat :=
  ((out.filter fun q => decide (q.line = p.line ∧ q.stream = p.stream ∧ q.c = p.c ∧ q.hoff ≠ 0xFFE)).map ancSpan).sum

/-- The line on which a vertical packet finds room: its own, or a later one of the same blanking interval, but for the switching
lines; `stop` is a line that it may not reach. A packet that passes the frame's last line has line N + 1. -/
def findRoom (mapping f stop : Nat) : Nat → Bool → AncPacket → List AncPacket → Option AncPacket
  | 0, _, _, _ => none
  | fuel + 1, moved, p, out =>
    let ds := streamFormat f
    if p.line = stop ∨ (moved ∧ (rowOfLine ds p.line).isSome) then none
    else if totalLines ds < p.line then some p
    else if !(moved && (switchLines ds).contains p.line) && decide (vancUsed out p + ancSpan p ≤ vancRoom mapping f) then some p
    else findRoom mapping f stop fuel true { p with line := p.line + 1 } out

/-- Packets placed in order after those of `out`: the ones placed, and how many were dropped. A packet of horizontal space stays
on its line, and one whose line the format lacks is dropped. -/
def placePackets (mapping f stop : Nat) (out ps : List AncPacket) : List AncPacket × Nat :=
  ps.foldl (fun acc p =>
    if p.line = 0 ∨ totalLines (streamFormat f) < p.line then (acc.1, acc.2 + 1)
    else if p.hoff = 0xFFE then (acc.1 ++ [regenerate p], acc.2)
    else match findRoom mapping f stop 64 false p acc.1 with
      | some q => (acc.1 ++ [regenerate q], acc.2)
      | none => (acc.1, acc.2 + 1)) (out, 0)

/-! ### Audio (R139, R146, R147) -/

/-- The group of an audio data DID of a mapping, from 1; `kind` 0 data, 1 extended data, 2 control (R139). -/
def audioDid (mapping did : Nat) : Option (Nat × Nat) :=
  let at_ (l : List Nat) (k g : Nat) : Option (Nat × Nat) := (findIdx? (fun x => decide (x = did)) l).map fun x => (k, g + x.1)
  if mapping = 0 then
    at_ [0xFF, 0xFD, 0xFB, 0xF9] 0 1 <|> at_ [0xFE, 0xFC, 0xFA, 0xF8] 1 1 <|> at_ [0xEF, 0xEE, 0xED, 0xEC] 2 1
  else
    at_ [0xE7, 0xE6, 0xE5, 0xE4] 0 1 <|> at_ [0xE3, 0xE2, 0xE1, 0xE0] 2 1
      <|> (if mapping = 1 ∨ mapping = 4 then none else at_ [0xA7, 0xA6, 0xA5, 0xA4] 0 5 <|> at_ [0xA3, 0xA2, 0xA1, 0xA0] 2 5)

/-- The essence whose audio a data stream carries: the stream itself on level B-DS, else data stream 1 alone (R139). -/
def audioStream (mapping stream : Nat) : Option Nat :=
  if mapping = 4 then some (stream % 2) else if stream = 0 then some 0 else none

/-- The line on which the samples of line `l` are embedded: the next line, but for the switching lines and the lines after them
(R146). -/
def embedLine (f l : Nat) : Nat :=
  let ds := streamFormat f
  let wrap (n : Nat) : Nat := if totalLines ds < n then n - totalLines ds else n
  let barred (n : Nat) : Bool := (switchLines ds).any fun s => decide (n = s ∨ n = s + 1)
  let a := wrap (l + 1)
  if !barred a then a else if !barred (wrap (a + 1)) then wrap (a + 1) else wrap (a + 2)

/-! ### A picture that changes while it is sent (R299, R343, R498) -/

/-- The part of a picture that a link carries (R130, R143). -/
def linkPicture (t : SdiTx) (pic : Planes) : Planes :=
  if t.group = 0x3F then pic else dividePicture (if t.cfgMapping = 7 then 7 else 8) (t.link - 1) pic

/-- The transmitters in ACTIVE that send a raster's picture: one, those of a transmit group, or a framer (R286). -/
def txOfRaster (e : Nat) (d : Dev) : List Nat :=
  let x := raster e d
  (match x.kind with
   | 1 => [x.id].filter fun n => decide ((tget d.sdiTx n).group = 0x3F)
   | 2 => (tget d.mlinks (x.id + 64)).lanes
   | 4 => [192 + x.id]
   | _ => []).filter fun n => decide (x.n ≠ 0 ∧ (tget d.sdiTx n).state = 2)

/-- A transmitter's lines follow a change of the picture that it sends. -/
def changeLines (old new : Planes) (t : SdiTx) : SdiTx :=
  let of (pic : Planes) (l : TxLine) : TxLine := txLine t.cfgMapping t.format t.cfgSampling l.stream l.line (linkPicture t pic) t.out
  { t with lines := t.lines.map fun l => if of old l = of new l then l else of new l }

/-- The picture of a raster changes while it is sent, and with it the lines of its transmitters. -/
def resend (e : Nat) (pic sent : Planes) (d : Dev) : Dev :=
  let old := (raster e d).sent
  (txOfRaster e d).foldl (fun d n => { d with sdiTx := tupd d.sdiTx n (changeLines old sent) })
    (updRaster e (fun x => { x with pic := pic, sent := sent }) d)

/-- From sample `i` of line `y` to its end a raster sends the background (R343); its markers are drawn over that too. -/
def underrunLine (e y i : Nat) (d : Dev) : Dev :=
  let x := raster e d
  let up := decide (x.sampling = 6 ∨ x.sampling = 7)
  let pic := x.pic.zipIdx.map fun p =>
    let at_ := if p.2 = 1 ∧ up then (if y % 2 = 0 then some (y / 2) else none) else some y
    p.1.zipIdx.map fun row =>
      if some row.2 = at_ then row.1.zipIdx.map fun v => if i ≤ v.2 then nativeComp x.bg (planeComp x.sampling p.2 v.2) else v.1
      else row.1
  resend e pic (drawMarkers e pic d) d

/-- The rows that a raster sends from the `n`-th on become background, with no marker over them (R498). -/
def blankFrom (e n : Nat) (d : Dev) : Dev :=
  let x := raster e d
  let f := (timGroup x.tg d).format
  let cut (pic : Planes) : Planes := pic.zipIdx.map fun p =>
    let up := decide (p.2 = 1 ∧ (x.sampling = 6 ∨ x.sampling = 7))
    p.1.zipIdx.map fun row =>
      if n ≤ (if up then 2 * row.2 else storedRow f p.1.length row.2) then
        row.1.zipIdx.map fun v => nativeComp x.bg (planeComp x.sampling p.2 v.2)
      else row.1
  resend e (cut x.pic) (cut x.sent) d

/-- The lines of a transmitter from number `n` on carry its raster's background (R498). -/
def blankLines (n m e : Nat) (d : Dev) : Dev :=
  let x := raster e d
  { d with sdiTx := tupd d.sdiTx m fun t => { t with
      lines := t.lines.map fun l =>
        if n ≤ l.line then txLine t.cfgMapping t.format t.cfgSampling l.stream l.line (linkPicture t (plainPicture t.format x.sampling x.bg)) t.out
        else l } }

end Sys2Proof.Machine
end

