-- ==== Sys2Proof/Machine/Poison.lean ====
section
/-! DEFINITION. Poisoned words at their consumers (R27, R331, R343) and the resets of pseudo-channel controllers, which answer
reads poisoned (R251, R261). -/

namespace Sys2Proof.Machine

/-- Samples of a picture that come from a word become the background, the rest standing (R343); `mask` is not 0 where one
does. -/
def maskPicture (sampling : Nat) (sub : BitVec 48) (mask pic : Planes) : Planes :=
  pic.zipIdx.map fun p => p.1.zipIdx.map fun row => row.1.zipIdx.map fun v =>
    if (((mask.getD p.2 []).getD row.2 []).getD v.2 0) = 0 then v.1 else nativeComp sub (planeComp sampling p.2 v.2)

/-- A raster replaces the samples of a poisoned word of the picture that it sends (R343). -/
def poisonRaster (e key : Nat) (d : Dev) : Dev :=
  let x := raster e d
  let d := oBump e outPOISON 1 d
  match x.shown with
  | none => d
  | some f =>
    let pic := if x.keyout then x.pic else maskPicture x.sampling x.bg (groupMask f.parts key d) x.pic
    resend e pic (drawMarkers e pic d) d

/-- A poisoned word that a requester receives is not used (R27): a raster's background replaces it (R343); an engine notes it,
and the picture that it composes has black in its place (R331). -/
def poisonedRead (k : Nat) (q : MemReq) (d : Dev) : Dev :=
  match ringOfWord q.word d with
  | none => d
  | some (r, _, _) =>
    if 16 ≤ q.requester ∧ q.requester < 32 then
      (match (rasters d).find? fun e => decide (e / 72 = q.requester - 16) && (match (raster e d).shown with
          | some f => f.parts.any fun p => decide (p.1 = r)
          | none => false) with
       | some e => poisonRaster e (wordKey k q.word) d
       | none => d)
    else if 32 ≤ q.requester ∧ q.requester < 48 then
      (match (conversions d).find? fun e => decide (e / 3 = q.requester - 32) && (conversionRings (engine e d).conf d).contains r with
       | some e => eBump e 0x68 1 (updEngine e (fun x => { x with bad := x.bad ++ [wordKey k q.word] }) d)
       | none => d)
    else d

/-- A request is answered at a pseudo-channel in reset or failure: a read poisoned, a write discarded (R251). -/
def answerBad (k : Nat) (q : MemReq) (d : Dev) : Dev := if q.write then discardWrite k q d else poisonedRead k q d

/-- Every request at a pseudo-channel is answered so, and its tags return (R251). -/
def pcFlush (k : Nat) (d : Dev) : Dev :=
  let x := pc k d
  let all := (x.queue ++ x.issued).map (·.req) ++ x.waiting
  all.foldl (fun d q => answerBad k q d) (updPc k (fun x => { x with
    queue := [], issued := [], returning := [], waiting := [],
    taken := x.taken - (x.queue.length + x.issued.length + x.returning.length) }) d)

/-- The reset of one pseudo-channel controller begins (R251). -/
def pcReset (k : Nat) (d : Dev) : Dev :=
  let s := (pc k d).state
  if s = 2 ∨ s = 3 ∨ s = 1 then pcFlush k (updPc k (fun x => { x with state := 1, openRow := none }) (cutHoliday k d)) else d

/-- What an unanswered read does (R261): the reset of R251, or FAILED and a forced retirement when it is the second
within 1 s. -/
def pcFault (k : Nat) (d : Dev) : Dev :=
  let x := pc k d
  if x.state ≠ 2 ∧ x.state ≠ 3 then d
  else
    let second := match x.lastUnresp with
      | some t => decide (d.up ≤ t + sec)
      | none => false
    let d := updPc k (fun x => { x with lastUnresp := some d.up }) d
    if second then forceRetire k (pcFlush k (updPc k (fun x => { x with state := 5, openRow := none }) (cutHoliday k d)))
    else pcReset k { d with flt.inReset := d.flt.inReset ++ [(6, k)] }

end Sys2Proof.Machine
end

