-- ==== Sys2Proof/Machine/AudOps.lean ====
section
/-! DEFINITION. Shared operations of the audio core: rates and pages (R354, R359), the sample memory (R357 to R363), FIFOs
(R367), the matrix (R375 to R380) and follow destinations (R295 to R297). -/

namespace Sys2Proof.Machine

/-! ### Rate, channels, pages -/

/-- fs in Hz. -/
def fsHz (d : Dev) : Nat := if d.aud.rate96 then 96000 else 48000
/-- Samples of each channel in a block (R355). -/
def spb (d : Dev) : Nat := if d.aud.rate96 then 12 else 6
/-- Source channels in force (R354). -/
def srcCount (d : Dev) : Nat := if d.aud.rate96 then 16384 else 32768
/-- Destination channels in force (R354). -/
def destCount (d : Dev) : Nat := srcCount d
/-- The media index of a house time (R355). -/
def mediaIndex (t : Time) (d : Dev) : Nat := (t * (fsHz d : Rat) / 1000000000).floor.toNat
/-- The block of a house time (R355). -/
def blockOf (t : Time) : Nat := (t / (125 * us)).floor.toNat

def audSrc (c : Nat) (d : Dev) : AudSrc := tget d.aud.srcs c
def updSrc (c : Nat) (f : AudSrc → AudSrc) (d : Dev) : Dev := { d with aud.srcs := tupd d.aud.srcs c f }
def audDst (c : Nat) (d : Dev) : AudDst := tget d.aud.dsts c
def updDst (c : Nat) (f : AudDst → AudDst) (d : Dev) : Dev := { d with aud.dsts := tupd d.aud.dsts c f }
def audPort (kind p : Nat) (d : Dev) : AudPort := tget d.aud.ports (kind * 256 + p)
def updPort' (kind p : Nat) (f : AudPort → AudPort) (d : Dev) : Dev :=
  { d with aud.ports := tupd d.aud.ports (kind * 256 + p) f }
def srcBump (c k n : Nat) (d : Dev) : Dev := updSrc c (fun x => { x with ctrs := bumpBy x.ctrs k n }) d
def dstBump (c k n : Nat) (d : Dev) : Dev := updDst c (fun x => { x with ctrs := bumpBy x.ctrs k n }) d
def apBump (kind p k n : Nat) (d : Dev) : Dev := updPort' kind p (fun x => { x with ctrs := bumpBy x.ctrs k n }) d
def audBump (k : Nat) (d : Dev) : Dev := { d with aud.ctrs := bump d.aud.ctrs k }

abbrev aWRITTEN := 0x10
abbrev aFILL_REPEAT := 0x18
abbrev aFILL_ZERO := 0x20
abbrev aHIST_SHORT := 0x28
abbrev aSAT := 0x18
abbrev aRAMPS := 0x20
abbrev pARRIVED := 0x40
abbrev pACCEPTED := 0x48
abbrev pDROPPED := 0x50
abbrev pREPEATED := 0x58
abbrev pPARITY := 0x60
abbrev pCS_CRC := 0x68
abbrev pLOSS := 0x70
abbrev pTAKEN := 0x80
abbrev pSENT := 0x88
abbrev pDISCARDED := 0x90

/-- The producer's lead A_c in blocks (R359). -/
def leadOf (kind id : Nat) (d : Dev) : Nat :=
  if kind = 2 then min 128 (ceilDiv ((tget d.flows.rx id).offset + 8000) 125) else 2

/-- P_c (R359): none without a producer. -/
def pagesFor (x : AudSrc) (d : Dev) : Nat :=
  if x.kind = 0 then 0
  else ceilDiv ((x.lead + 3 + ceilDiv x.hold (spb d)) * (if d.aud.rate96 then 2 else 1)) 16

/-- Blocks that a channel's ring holds (R359). -/
def ringBlocks (x : AudSrc) (d : Dev) : Nat := 16 * x.pages / (if d.aud.rate96 then 2 else 1)

/-- A channel's ring is resized (R359): pages come from or return to the pool, and the oldest blocks are lost. -/
def resizeRing (c : Nat) (d : Dev) : Dev :=
  let x := audSrc c d
  let p := pagesFor x d
  let y := { x with pages := p }
  updSrc c (fun _ => { y with ring := y.ring.take (ringBlocks y d) }) { d with aud.free := d.aud.free + x.pages - p }

/-- The pool holds the pages that every ring needs, one page of each channel being kept for its producer (R359, R360). -/
def poolOk (d : Dev) : Bool :=
  let extra := d.aud.srcs.foldl (fun n e => n + (pagesFor e.2 d - 1)) 0
  decide (extra ≤ 262144 - srcCount d)

/-- A channel's producer as AUD_SRC_STATUS.ID names it: a de-embedder by its receiver, lane or 192 + framer. -/
def producerId (x : AudSrc) : Nat := if x.kind = 1 then x.id / 2 else x.id

/-- A source channel is written by another producer (R361). -/
def srcHeldByOther (kind id ch : Nat) (d : Dev) : Bool :=
  let x := audSrc ch d
  decide (x.kind ≠ 0 ∧ (x.kind ≠ kind ∨ x.id ≠ id))

/-- A producer takes a source channel (R359, R361). -/
def takeSource (kind id ch : Nat) (d : Dev) : Dev :=
  let x := audSrc ch d
  if x.kind = kind ∧ x.id = id ∧ x.lead = leadOf kind id d then d
  else resizeRing ch (updSrc ch (fun x =>
    { x with kind := kind, id := id, lead := leadOf kind id d, fifo := [], started := false }) d)

/-- A producer gives up a source channel. -/
def dropSource (kind id ch : Nat) (d : Dev) : Dev :=
  let x := audSrc ch d
  if x.kind = kind ∧ x.id = id then
    resizeRing ch (updSrc ch (fun x =>
      { x with
        kind := 0, id := 0, lead := 0, fifo := [], started := false, fade := none, written := false, zero := false,
        last := none, asrc := false, wantAsrc := false, short := false })
      { d with aud.asrcFree := d.aud.asrcFree + b2n x.asrc })
  else d

/-- A source channel's last complete channel-status block (R141, R364): its 192 bits as 24 bytes, the first bit the least
significant of the first byte. -/
def setSourceCs (ch : Nat) (bits : List Bool) (d : Dev) : Dev :=
  let byte (i : Nat) : Nat := (List.range 8).foldl (fun n k => n + b2n (bits.getD (8 * i + k) false) * 2 ^ k) 0
  updSrc ch (fun x => { x with cs := (List.range 24).map fun i => BitVec.ofNat 8 (byte i), csAt := d.house }) d

/-! ### Writing the sample memory -/

/-- A block takes its place in a ring of `cap` blocks, that of the block `cap` before it (R359); blocks are listed newest first. -/
def placeBlock (b : SampleBlock) (cap : Nat) (ring : List SampleBlock) : List SampleBlock :=
  let rest := ring.filter fun x => decide (x.n % cap ≠ b.n % cap)
  ((rest.filter fun x => decide (b.n < x.n)) ++ [b] ++ rest.filter fun x => decide (x.n < b.n)).take cap

/-- A sample written at a media index of a channel. -/
def putSample (c idx : Nat) (s : Sample) (d : Dev) : Dev :=
  let n := idx / spb d
  let j := idx % spb d
  updSrc c (fun x =>
    match x.ring.find? fun b => decide (b.n = n) with
    | some _ => { x with ring := x.ring.map fun b => if b.n = n then { b with samples := tset b.samples j (some s) } else b }
    | none =>
      { x with ring := placeBlock { n := n, samples := [(j, some s)] } (ringBlocks x d) x.ring }) d

/-- A signed native fraction of 24 + 8 bits. -/
def sampleInt (s : Sample) : Int := s.v24.toInt * 256 + (s.frac.toNat : Int)

/-- A sample scaled by i ÷ n, rounded toward zero (R362). -/
def scaleSample (s : Sample) (i n : Nat) : Sample :=
  let x := (sampleInt s * (i : Int)).tdiv (n : Int)
  { s with v24 := BitVec.ofInt 24 (x / 256), frac := BitVec.ofInt 8 (x % 256) }

/-- One position of the fill rule (R362): the channel so far and the block being filled. -/
def fillStep (fadeLen : Nat) (acc : AudSrc × Tab (Option Sample)) (j : Nat) : AudSrc × Tab (Option Sample) :=
  let x := acc.1
  match tget acc.2 j with
  | some s =>
    let fade := if x.zero then some 1 else x.fade
    let (s, fade) := match fade with
      | some i => (scaleSample s i fadeLen, if fadeLen ≤ i then none else some (i + 1))
      | none => (s, none)
    ({ x with fade := fade, zero := false, written := true, last := some s, ctrs := bump x.ctrs aWRITTEN }, tset acc.2 j (some s))
  | none =>
    match (if x.written then x.last else none) with
    | some s =>
      ({ x with written := false, ctrs := bump x.ctrs aFILL_REPEAT }, tset acc.2 j (some { s with fill := true }))
    | none =>
      ({ x with written := false, zero := true, fade := none, ctrs := bump x.ctrs aFILL_ZERO },
       tset acc.2 j (some { fill := true, v := true }))

/-- A block of a channel with a producer is filled at its write deadline (R362). -/
def fillBlock (n spb fadeLen cap : Nat) (x : AudSrc) : AudSrc :=
  if x.kind = 0 then x
  else
    let cur := match x.ring.find? fun b => decide (b.n = n) with
      | some b => b.samples
      | none => []
    let r := (List.range spb).foldl (fillStep fadeLen) (x, cur)
    { r.1 with ring := placeBlock { n := n, samples := r.2 } cap x.ring, blocks := x.blocks + spb }

/-- A read of sample `idx` of a channel (R361, R363): the sample, and whether the ring was too short, and whether the word
was poisoned. -/
def readSample (c idx : Nat) (d : Dev) : Sample × Bool × Bool :=
  let x := audSrc c d
  if x.kind = 0 then ({ fill := true }, false, false)
  else match x.ring.find? fun b => decide (b.n = idx / spb d) with
  | none => ({ fill := true }, true, false)
  | some b => if (tget b.bad (idx % spb d / 6)).isSome then ({}, false, true)
    else ((tget b.samples (idx % spb d)).getD { fill := true }, false, false)

/-- The words of the sample memory: channel, block and word of the block (R357). -/
def sampleWords (d : Dev) : List (Nat × Nat × Nat) :=
  d.aud.srcs.flatMap fun e => e.2.ring.flatMap fun b => (List.range (spb d / 6)).map fun w => (e.1, b.n, w)

/-- A word of the sample memory is uncorrectable, in the memory (`lasting`) or at the checker's input alone (R357, R495). -/
def spoilWord (lasting : Bool) (x : Nat × Nat × Nat) (d : Dev) : Dev :=
  updSrc x.1 (fun y => { y with
    ring := y.ring.map fun b => if b.n = x.2.1 then { b with bad := tset b.bad x.2.2 (some lasting) } else b }) d

/-- A word of the sample memory, which one is a free value, is uncorrectable. -/
def spoilSample (lasting : Bool) (d : Dev) : Dev :=
  let ws := sampleWords d
  match ws[freeNat d % max 1 ws.length]? with
  | none => d
  | some x => useFree (spoilWord lasting x d)

/-- What was bad at the checker's input alone is so no longer. -/
def unspoil (x : AudSrc) : AudSrc := { x with ring := x.ring.map fun b => { b with bad := b.bad.filter fun e => decide (e.2 = some true) } }

/-! ### FIFOs of synchronous inputs (R367, R550) -/

/-- A sample arrives at a FIFO of 8; answers the FIFO and whether the sample was discarded. -/
def fifoPush (f : List Sample) (s : Sample) : List Sample × Bool := if 8 ≤ f.length then (f, true) else (f ++ [s], false)

/-- A de-embedded channel's FIFO has room (R550). -/
def fifoRoom (ch : Nat) (d : Dev) : Bool := decide ((audSrc ch d).fifo.length < 8)

/-- One de-embedded sample enters its channel's FIFO, or is dropped when it is full (R550). -/
def depositSample (ch : Nat) (v24 : BitVec 24) (v u c z : Bool) (d : Dev) : Dev :=
  updSrc ch (fun x => { x with fifo := (fifoPush x.fifo { v24 := v24, v := v, u := u, c := c, z := z }).1 }) d

/-- A channel marked asynchronous takes a converter channel, or is short of one (R141, R368). -/
def wantConverter (ch : Nat) (asy : Bool) (d : Dev) : Dev :=
  let x := audSrc ch d
  if asy = x.wantAsrc then d
  else if asy then
    (if 0 < d.aud.asrcFree then
      updSrc ch (fun x => { x with wantAsrc := true, asrc := true, short := false }) { d with aud.asrcFree := d.aud.asrcFree - 1 }
     else updSrc ch (fun x => { x with wantAsrc := true }) d)
  else updSrc ch (fun x => { x with wantAsrc := false, asrc := false, short := false })
    { d with aud.asrcFree := d.aud.asrcFree + b2n x.asrc }

/-- The channels of a receiver's de-embedder start afresh when it enters LOCKED (R550). -/
def clearFifos (n : Nat) (d : Dev) : Dev :=
  (tget d.sdiRx n).audio.foldl (fun d e => updSrc (e.2 - 1) (fun x => { x with fifo := [], started := false }) d) d

/-- One bit into the CRCC register of AES3, x^8 + x^4 + x^3 + x^2 + 1, the least significant bit first. -/
def crccBit (c : Nat) (b : Bool) : Nat := Nat.xor (c / 2) (if (c % 2 == 1) != b then 0xB8 else 0)

/-- The CRCC of channel-status bytes 0 to 22, from all ones. -/
def crcc (bs : List Byte) : Nat := bs.foldl (fun c b => (List.range 8).foldl (fun c i => crccBit c (b.getLsbD i)) c) 0xFF

/-- The generated channel-status block without its CRCC (R148): professional use, 48 kHz or 96 kHz, 24-bit words, in the bits that
AES3 gives them. -/
def generatedCs (rate96 : Bool) : List Byte := [if rate96 then 0x01 else 0x81, 0, 0x2C, 0, if rate96 then 0x10 else 0] ++ List.replicate 18 0

/-- A channel-status block as sent: supplied by the host or generated, with its CRCC as byte 23 (R148). -/
def csBlock (host : Bool) (bytes : List Byte) (rate96 : Bool) : List Byte :=
  let b := if host then bytes.take 23 else generatedCs rate96
  b ++ [BitVec.ofNat 8 (crcc b)]

/-- The C bit of a block in frame `i` of its 192. -/
def csBit (block : List Byte) (i : Nat) : Bool := (block.getD (i / 8) 0).getLsbD (i % 8)

/-- The channel-status bits of a channel so far, with one more: a new block starts at the Z flag (R141). -/
def csNext (old : List Bool) (c z : Bool) : List Bool := if z then [c] else if old = [] then [] else old ++ [c]

/-- The channel status of a flow's channel takes the bit of a sample (R188): bits count only in the order of the media index, and a
sample that comes late continues nothing. -/
def flowCs (flow c idx : Nat) (s : Sample) (d : Dev) : Dev :=
  let old := tget (rxFlow flow d).csBits c
  if idx < old.1 then d
  else
    let bits := csNext (if idx = old.1 then old.2 else []) s.c s.z
    let whole := decide (bits.length = 192)
    let d := updRxFlow flow (fun x => { x with csBits := tset x.csBits c (idx + 1, if whole then [] else bits) }) d
    if whole then setSourceCs c bits d else d

/-- Received audio of a flow placed by its RTP timestamp (R187, R188, R208): the samples of a packet, instant by instant. -/
def placeSamples (flow ts : Nat) (samples : List Sample) (d : Dev) : Dev :=
  let x := tget d.flows.rx flow
  let now := mediaIndex d.house d
  let n : Int := (now : Int) + signed 32 (twos 32 ((ts : Int) - now))
  let off : Time := (x.offset : Rat) * us
  samples.zipIdx.foldl (fun d e =>
    let t : Int := n + e.2 / max 1 x.channels
    let idx := ((t : Rat) + off * (fsHz d : Rat) / 1000000000).floor
    let blk := idx / (spb d : Int)
    if blk < (blockOf d.house : Int) ∨ d.house + off + 8 * ms < (blk : Rat) * (125 * us) ∨ idx < 0 then
      rxfBump flow fSAMPLES_OUT 1 d
    else
      let c := x.dest + e.2 % max 1 x.channels
      putSample c idx.toNat e.1 (if x.type = 3 then flowCs flow c idx.toNat e.1 d else d)) d

/-! ### The matrix (R375 to R380) -/

/-- SRC of a cell word. -/
def cellSrc (w : Nat) : Nat := bits w 31 17
/-- GAIN of a cell word. -/
def cellGain (w : Nat) : Int := signed 16 (bits w 16 1)
/-- A cell word of a source and gain, RAMP 0. -/
def cellWord (src : Nat) (gain : Int) : Nat := src * 2 ^ 17 + twos 16 gain * 2

/-- Samples that a ramp lasts: N, or 2N in the two-phase form (R380). -/
def rampSamples (r : Ramp) (spb : Nat) : Nat := r.len * spb * (if r.srcA = r.srcB then 1 else 2)

/-- The source and gain of a ramp at sample `i` (R380). -/
def rampAt (r : Ramp) (spb i : Nat) : Nat × Int :=
  let n := r.len * spb
  if r.srcA = r.srcB then (r.srcB, r.gA + ((r.gB - r.gA) * ((i : Int) + 1)).tdiv (n : Int))
  else if i < n then (r.srcA, r.gA + ((0 - r.gA) * ((i : Int) + 1)).tdiv (n : Int))
  else (r.srcB, (r.gB * (((i - n : Nat) : Int) + 1)).tdiv (n : Int))

/-- A cell's source and gain at media index `idx`: a running ramp's, else the cell's. -/
def cellAt (x : AudDst) (k idx spb : Nat) : Nat × Int :=
  let w := tget x.cells k
  match tget x.ramps k with
  | some r =>
    let i := idx - r.first * spb
    if i < rampSamples r spb then rampAt r spb i else (cellSrc w, cellGain w)
  | none => (cellSrc w, cellGain w)

/-- The native word of a sample (R358). -/
def nativeWord (s : Sample) : Int := s.v24.toInt * 65536 + (s.frac.toNat : Int) * 256

/-- A cell's product (R376). -/
def product (x : Int) (g : Int) : Int := (x * g + 4096) / 8192

/-- A value limited to `lo … hi`. -/
def clampI (x lo hi : Int) : Int := if x < lo then lo else if hi < x then hi else x

/-- One side of cell 0 of a follow destination: its product and whether its read was short (R377). -/
def readSide (c : CellRead) (idx : Nat) (d : Dev) : Int × Bool × Bool :=
  if c.gain = 0 then (0, false, false)
  else
    let i := (idx : Int) - c.delay
    let s := if i < 0 then ({ fill := true }, true, false) else readSample c.src i.toNat d
    (product (nativeWord s.1) (signed 16 c.gain), s.2.1, s.2.2)

/-- Cell 0's read of a destination as a side. -/
def cellSide (x : AudDst) : CellRead :=
  let w := tget x.cells 0
  ⟨cellSrc w, bits w 16 1, if x.route.isSome then x.delay else 0⟩

/-- What one block of a destination's mixing finds short or poisoned: a short channel as (channel, false), a poisoned word as
(2 × channel + its number modulo 2, true). -/
abbrev Short := List (Nat × Bool)

/-- The contribution of cell `k` to sample `idx`, with what was short or poisoned. -/
def cellProduct (x : AudDst) (k idx : Nat) (badWord : Bool) (d : Dev) : Int × Short :=
  let note (c : Nat) (at_ : Int) (r : Int × Bool × Bool) : Short :=
    (if r.2.1 then [(c, false)] else []) ++ (if r.2.2 then [(2 * c + at_.toNat / 6 % 2, true)] else [])
  if badWord then (0, [])
  else if k = 0 ∧ (x.route.isSome ∨ x.splice.isSome) then
    match x.splice with
    | some sp =>
      if sp.begun ∧ sp.n * spb d ≤ idx then
        let n := 16 * spb d
        let i := min n (idx - sp.n * spb d)
        let a := readSide sp.old idx d
        let b := readSide sp.new idx d
        ((a.1 * ((n - i : Nat) : Int) + b.1 * (i : Int)).tdiv (n : Int),
          note sp.old.src (idx - sp.old.delay) a ++ note sp.new.src (idx - sp.new.delay) b)
      else
        let a := readSide sp.old idx d
        (a.1, note sp.old.src (idx - sp.old.delay) a)
    | none =>
      let a := readSide (cellSide x) idx d
      (a.1, note (cellSide x).src (idx - (cellSide x).delay) a)
  else
    let c := cellAt x k idx (spb d)
    if c.2 = 0 then (0, [])
    else
      let s := readSample c.1 idx d
      (product (nativeWord s.1) c.2, note c.1 idx (0, s.2))

/-- One destination sample (R376): Y, whether it was clamped, and what was short. -/
def mixSample (dst : Nat) (x : AudDst) (idx : Nat) (bad : List Nat) (d : Dev) : Int × Bool × Short :=
  let r := (List.range 64).foldl (fun (acc : Int × Short) k =>
    let p := cellProduct x k idx (bad.contains ((64 * dst + k) / 8)) d
    (clampI (acc.1 + p.1) (-(2 ^ 47)) (2 ^ 47 - 1), acc.2 ++ p.2)) (0, [])
  let y := (r.1 + 32768) / 65536
  (clampI y (-8388608) 8388607, decide (y < -8388608 ∨ 8388607 < y), r.2)

/-- The one cell through which a destination is transparent (R379). -/
def transparentCell (x : AudDst) (n spb : Nat) : Option Nat :=
  let splicing := match x.splice with
    | some sp => sp.begun && decide (sp.n ≤ n)
    | none => false
  let busy := splicing || x.ramps.any fun e => match e.2 with
    | some r => decide (r.first ≤ n ∧ n * spb < r.first * spb + rampSamples r spb)
    | none => false
  if busy then none
  else match x.cells.filter fun e => decide (cellGain e.2 ≠ 0) with
  | [e] => if cellGain e.2 = 0x2000 then some e.1 else none
  | _ => none

/-- The samples of block `n` of a destination, each with whether it was clamped and what was short; `bad` lists matrix
words found uncorrectable (R376 to R379, R382). -/
def mixBlock (dst n : Nat) (bad : List Nat) (d : Dev) : List (Sample × Bool × Short) :=
  let x := audDst dst d
  let t := transparentCell x n (spb d)
  (List.range (spb d)).map fun j =>
    let idx := n * spb d + j
    let y := mixSample dst x idx bad d
    let s : Sample := match t with
      | some k =>
        let at_ := (idx : Int) - (if k = 0 ∧ x.route.isSome then x.delay else 0)
        let src := if at_ < 0 then ({ fill := true } : Sample) else (readSample (cellSrc (tget x.cells k)) at_.toNat d).1
        if bad.contains ((64 * dst + k) / 8) then { v24 := BitVec.ofInt 24 y.1 } else { src with frac := 0, fill := false }
      | none => { v24 := BitVec.ofInt 24 y.1 }
    (s, y.2)

/-- A disabled destination's words of a block (R384). -/
def offWords (d : Dev) : List Sample := List.replicate (spb d) { v := true }

/-- Samples clamped among those mixed. -/
def satCount (l : List (Sample × Bool × Short)) : Nat := (l.filter fun r => r.2.1).length

/-- A block of an enabled destination is mixed (R376 to R379). -/
def mixDst (dst n : Nat) (d : Dev) : Dev :=
  let t := transparentCell (audDst dst d) n (spb d)
  let rs := mixBlock dst n (d.aud.badCells.map (·.1)) d
  let short := rs.flatMap fun r => r.2.2
  let d := updDst dst (fun x => { x with out := x.now, now := rs.map (·.1), outTransp := x.transp, transp := t.isSome, ctrs := bumpBy x.ctrs aSAT (satCount rs) }) d
  let d := short.foldl (fun d s => if s.2 then d else srcBump s.1 aHIST_SHORT 1 d) d
  ((short.filter (·.2)).eraseDups).foldl (fun d _ => audBump 0x00 d) d

/-- The words that consumers take of a destination (R356, R384): zero with V = 1 while it is disabled. -/
def destWords (dst : Nat) (d : Dev) : List Sample :=
  let x := audDst dst d
  if x.en then (if x.out = [] then List.replicate (spb d) {} else x.out)
  else offWords d

/-- MIXED of a destination (R385): samples computed while it was enabled. -/
def mixedOf (x : AudDst) (d : Dev) : Nat := if x.en then d.aud.mixed - x.off else x.off

/-- spb × B of a destination (R385): samples due from the blocks for which it was enabled. -/
def dueOf (x : AudDst) (d : Dev) : Nat := if x.en then d.aud.due - x.dueOff else x.dueOff

/-- Ramps running at block `n` (R381). -/
def rampsAt (n : Nat) (d : Dev) : Nat :=
  d.aud.dsts.foldl (fun a e => a + (e.2.ramps.filter fun r => match r.2 with
    | some r => decide (n * spb d < r.first * spb d + rampSamples r (spb d))
    | none => false).length) 0

/-- One change of a cell takes effect at block `n` (R380). -/
def applyCell (n cell word : Nat) (d : Dev) : Dev :=
  let dst := cell / 64
  let k := cell % 64
  let x := audDst dst d
  let len := match d.aud.rampNext with
    | some (m, l) => if m ≤ n then l else d.aud.rampBlocks
    | none => d.aud.rampBlocks
  let w := word / 2 * 2
  if bitOf word 0 then
    let now := if n = 0 then (cellSrc (tget x.cells k), cellGain (tget x.cells k)) else cellAt x k (n * spb d - 1) (spb d)
    updDst dst (fun x => { x with
      cells := tset x.cells k (w + 1), ctrs := bump x.ctrs aRAMPS,
      ramps := tset x.ramps k (some ⟨now.1, now.2, cellSrc word, cellGain word, n, len⟩) }) d
  else updDst dst (fun x => { x with cells := tset x.cells k w, ramps := tset x.ramps k none }) d

/-! ### Follow destinations (R295 to R297) -/

/-- Cell 0 of a destination reads as its splice's new side from now on (R297). -/
def endSplice (dst : Nat) (d : Dev) : Dev :=
  updDst dst (fun x => match x.splice with
    | none => x
    | some sp => { x with
        cells := tset x.cells 0 (cellWord sp.new.src (signed 16 sp.new.gain)), delay := if sp.back then 0 else sp.new.delay,
        route := if sp.back then none else x.route,
        splice := x.queued.map fun q => { q with old := sp.new }, queued := none }) d

/-- Cell 0 of a destination changes its read through a splice that begins at the first block at or after a frame
boundary (R297). A splice that is already running goes on, and the new one follows it. -/
def requestSplice (dst : Nat) (new : CellRead) (back : Bool) (tk : Time) (d : Dev) : Dev :=
  let n := indexAtOrAfter tk 0 (125 * us)
  updDst dst (fun x => match x.splice with
    | none => { x with splice := some ⟨n, cellSide x, new, false, back⟩ }
    | some sp =>
      if sp.begun then { x with queued := some ⟨max n (sp.n + 16), sp.new, new, false, back⟩ }
      else { x with splice := some { sp with new := new, back := back, n := max sp.n n } }) d

/-- The read that a follow destination's cell 0 takes: channel `i` of the source's audio members at unity gain, or gain 0
where there is none (R295). -/
def followRead (route : Route) (i : Nat) (delay : Int) (d : Dev) : CellRead :=
  match (routeAudio route.srcKind route.src d)[i]? with
  | some c => ⟨c, 0x2000, if delay < 0 then 0 else delay⟩
  | none => ⟨0, 0, if delay < 0 then 0 else delay⟩

/-- The destinations of a route's follow set. -/
def followSet (r : Route) : List Nat := if r.base = 0xFFFF then [] else (List.range r.count).map (r.base + ·)

/-- A take changes a raster's follow set in the frame in which it is done (R295). -/
def changeFollow (e : Nat) (old new : Route) (delay : Int) (tk : Time) (d : Dev) : Dev :=
  let leaving := (followSet old).filter fun x => !(followSet new).contains x
  let d := leaving.foldl (fun d dst => requestSplice dst { cellSide (audDst dst d) with gain := 0 } true tk d) d
  (List.range (if new.base = 0xFFFF then 0 else new.count)).foldl (fun d i =>
    let dst := new.base + i
    requestSplice dst (followRead new i delay d) false tk (updDst dst (fun x => { x with route := some e }) d)) d

/-- A raster's follow delay changes: a splice on every destination of its follow set (R297). -/
def changeDelay (r : Route) (delay : Int) (tk : Time) (d : Dev) : Dev :=
  (List.range (if r.base = 0xFFFF then 0 else r.count)).foldl (fun d i =>
    requestSplice (r.base + i) (followRead r i delay d) false tk d) d

/-- After an egress unbind the follow cells revert to host control with their current values (R305). -/
def releaseFollow (r : Route) (d : Dev) : Dev :=
  (followSet r).foldl (fun d dst => updDst dst (fun x => { x with route := none, delay := 0, splice := none, queued := none }) d) d

/-! ### Ports -/

/-- Samples waiting in a port's FIFO or converter that still count as present (R385). -/
def portPresent (x : AudPort) : Nat := x.fifo.foldl (fun n e => n + (e.2.filter fun s => !s.fill).length) 0

/-- Channels of an input port. -/
def inChannels (kind : Nat) (x : AudPort) : Nat := if kind = 1 then 2 else x.channels

/-- An input gives up what its FIFO holds; those samples count as discarded (R40). -/
def flushFifo (kind p : Nat) (d : Dev) : Dev :=
  let x := audPort kind p d
  apBump kind p pDROPPED (portPresent x) (updPort' kind p (fun x => { x with fifo := [], started := false }) d)

/-- Converter channels that a port holds return to the pool. -/
def freeConverters (kind p : Nat) (d : Dev) : Dev :=
  let n := (audPort kind p d).asrc
  updPort' kind p (fun x => { x with asrc := 0 }) { d with aud.asrcFree := d.aud.asrcFree + n }

/-- An input begins to qualify again (R366). -/
def requalify (kind p : Nat) (d : Dev) : Dev :=
  updPort' kind p (fun x => { x with state := if x.state = 0 then 0 else 1, since := none, lastOut := [], instant := none })
    (flushFifo kind p d)

/-- Samples in an output port. -/
def outPresent (x : AudPort) : Nat := x.fifo.foldl (fun n e => n + e.2.length) 0

/-- An audio port direction stops; the block's samples that it holds are discarded and counted. -/
def stopAudioPort (kind p : Nat) (d : Dev) : Dev :=
  if kind = 1 ∨ kind = 3 then
    updPort' kind p (fun x => { x with state := 0, parked := 0, since := none }) (freeConverters kind p (flushFifo kind p d))
  else
    let n := outPresent (audPort kind p d)
    apBump kind p pDISCARDED n (updPort' kind p (fun x => { x with state := 0, parked := 0, fifo := [] }) d)

end Sys2Proof.Machine
end

