-- ==== Sys2Proof/Machine/Blocks.lean ====
section
/-! DEFINITION. What a reset of one instance of a reset domain does to its block (R498), when a block is idle, and the
built-in reactions that the fault collector starts without Perby (R490). -/

namespace Sys2Proof.Machine

/-! ### Twin link frames (R455) -/

/-- A message's TYPE (R456). -/
def TwinMsg.type : TwinMsg → Nat
  | .hello _ => 0x01
  | .heartbeat _ => 0x02
  | .time _ _ => 0x03
  | .keys _ _ _ => 0x04
  | .ledger _ => 0x05
  | .digest _ => 0x06
  | .mirror _ => 0x07
  | .handover _ _ => 0x08
  | .leave _ => 0x09
  | .inset _ _ _ => 0x0A
  | .seq _ => 0x0B

/-- Payload words of a message: a ledger entry fills one (R467); eight digests, 32 bytes of a record's body after a first word, or
four sequence numbers another, and the rest what holds their fields. -/
def TwinMsg.words : TwinMsg → Nat
  | .hello _ | .time _ _ | .handover _ _ | .leave _ | .inset _ _ _ => 1
  | .heartbeat _ => 0
  | .keys _ _ _ => 6
  | .ledger l => l.length
  | .digest m => ceilDiv (m.lines.length + m.lanes.length) 8
  | .mirror m => 1 + ceilDiv m.body.length 32
  | .seq l => ceilDiv l.length 4

/-- A ledger entry in its payload word, the reserved bits 0 (R467). -/
def ledgerWord (x : LedgerEntry) : BitVec 256 :=
  BitVec.ofNat 256 (match x with
    | .route slot k start take hold dly =>
      fld 1 252 4 + fld slot 241 11 + fld k 193 48 + fld start 145 48 + fld (b2n take) 144 1 + fld (b2n hold) 143 1
        + fld (twos 32 dly) 111 32
    | .converter e j q sa sb w corr none_ =>
      fld 2 252 4 + fld e 246 6 + fld j 198 48 + fld q 197 1 + fld sa 149 48 + fld sb 101 48 + fld w 94 7
        + fld (b2n corr) 93 1 + fld (b2n none_) 92 1
    | .alignment kind id index => fld 3 252 4 + fld kind 249 3 + fld id 236 13 + fld index 188 48
    | .rateConverter c n ratio phase => fld 4 252 4 + fld c 237 15 + fld n 189 48 + fld ratio 149 40 + fld phase 109 40)

/-- The ledger entry that a payload word holds; none of another type (R467). -/
def ledgerOf (w : BitVec 256) : Option LedgerEntry :=
  let f (lo n : Nat) : Nat := (w.extractLsb' lo n).toNat
  match f 252 4 with
  | 1 => some (.route (f 241 11) (f 193 48) (f 145 48) (decide (f 144 1 = 1)) (decide (f 143 1 = 1)) (w.extractLsb' 111 32).toInt)
  | 2 => some (.converter (f 246 6) (f 198 48) (f 197 1) (f 149 48) (f 101 48) (f 94 7) (decide (f 93 1 = 1)) (decide (f 92 1 = 1)))
  | 3 => some (.alignment (f 249 3) (f 236 13) (f 188 48))
  | 4 => some (.rateConverter (f 237 15) (f 189 48) (f 149 40) (f 109 40))
  | _ => none

/-- Words that the replay buffer holds: one header word and the payload words of each frame. -/
def replayWords (l : List TwnFrame) : Nat := l.foldl (fun n f => n + 1 + f.msg.words) 0

/-- The link is UP on four or three lanes. -/
def twinUp (d : Dev) : Bool := decide (d.twn.link = 2 ∨ d.twn.link = 3)

/-- The rank in which held frames are released (R455): HEARTBEAT and TIME, then LEDGER, KEYS, SEQ and HANDOVER, then
MIRROR and INSET, then DIGEST. -/
def twinRank (type : Nat) : Nat :=
  if type = 0x02 ∨ type = 0x03 then 0
  else if type = 0x07 ∨ type = 0x0A then 2
  else if type = 0x06 then 3
  else 1

/-- A 256-bit word of free values. -/
def freeWord (k : Nat) : BitVec 256 :=
  (Config.freeValue k ++ Config.freeValue (k + 1) ++ Config.freeValue (k + 2) ++ Config.freeValue (k + 3)).setWidth 256

/-- The words of a link frame (R455): the header word, its message fields being free values, and the payload, of which the manual lays
out ledger entries alone (R467). -/
def frameWords (f : TwnFrame) (ack : Nat) : List (BitVec 256) :=
  BitVec.ofNat 256 (fld f.msg.type 248 8 + fld f.seq 216 32 + fld ack 184 32 + fld f.msg.words 177 7 + (freeWord f.draw).toNat % 2 ^ 177)
    :: (match f.msg with
      | .ledger l => l.map ledgerWord
      | m => (List.range m.words).map fun i => freeWord (f.draw + 4 * (i + 1)))

/-- A TIME frame bears the stamp of its departure (R457). -/
def depart (f : TwnFrame) (d : Dev) : TwnFrame × Dev :=
  match f.msg with
  | .time _ arrival =>
    let t := stamped d.house d
    ({ f with msg := .time t arrival }, { d with twn.timeOut := (d.twn.timeOut.filter fun x => decide (x.1 ≠ f.seq)) ++ [(f.seq, t)] })
  | _ => (f, d)

/-- The logical lanes in use, ascending (R108, R453, R454). -/
def lanesInUse (d : Dev) : List Nat :=
  (List.range 4).filter fun k => d.twn.lanes.any fun l => decide ((tget d.lanes (192 + l)).order = k)

/-- Link words are sent: four blocks each, scrambled, round robin over the lanes in use (R453). -/
def putWords (ws : List (BitVec 256)) (d : Dev) : Dev :=
  let ls := lanesInUse d
  let r := ws.foldl (fun (a : List (BitVec 74) × BitVec 58) w => let b := linkBlocks a.2 w; (a.1 ++ b.1, b.2)) ([], d.twn.scr)
  { d with twn.scr := r.2, twn.turn := d.twn.turn + r.1.length,
           twn.sent := r.1.zipIdx.map fun b => (ls.getD ((d.twn.turn + b.2) % max 1 ls.length) 0, b.1) }

/-- A control block on each lane in use, which names those lanes; its layout is not stated, and its payload a free value (R454). -/
def putControl (d : Dev) : Dev :=
  let r := (lanesInUse d).foldl (fun (a : List (Nat × BitVec 74) × BitVec 58) k =>
    let b := linkBlock true a.2 ((freeWord d.free).setWidth 72)
    (a.1 ++ [(k, b.1)], b.2)) ([], d.twn.scr)
  { d with twn.scr := r.2, twn.turn := 0, twn.sent := r.1, free := d.free + 4 }

/-- The entries of a LEDGER message are counted as they are sent (R467). -/
def countEntries (m : TwinMsg) (d : Dev) : Dev :=
  match m with
  | .ledger l => twnBump tLEDGER_SENT l.length d
  | _ => d

/-- A message enters the replay buffer as a frame and is sent, or is held back while the buffer is full (R455). -/
def sendTwin (m : TwinMsg) (d : Dev) : Dev :=
  if !twinUp d then d
  else if replayWords d.twn.replay + 1 + m.words ≤ 4096 then
    let d := countEntries m d
    let (f, d) := depart ⟨m, d.twn.txSeq, d.free⟩ d
    putWords (frameWords f d.twn.rxSeq)
      { d with twn.replay := d.twn.replay ++ [f], twn.txSeq := (d.twn.txSeq + 1) % 2 ^ 32, free := d.free + 4 * (m.words + 1),
               twn.ackAt := if d.twn.replay = [] then d.up else d.twn.ackAt }
  else { d with twn.holding := d.twn.holding ++ [m] }

/-- Ledger entries as messages, one frame for up to 64 (R455, R467). -/
def sendLedger (l : List LedgerEntry) (d : Dev) : Dev := (chunks 64 l).foldl (fun d c => sendTwin (.ledger c) d) d

/-- INSET (R267, R456): the in-service set, a bit for each pseudo-channel, with a check's verdict. -/
def sendInset (pass : Bool) (d : Dev) : Dev :=
  let v := d.memc.set.foldl (fun n k => n + 2 ^ k) 0
  sendTwin (.inset (BitVec.ofNat 32 v) (BitVec.ofNat 32 (v / 2 ^ 32)) pass) { d with twn.insetSent := d.memc.set }

/-! ### Hitless restart (R392) -/

/-- Crossbar masters are reset (R416): the locks that they hold are released, each locked sequence so cut short being a burst
aborted, and targets parked on them park on no master. -/
def mastersReset (ms : List Nat) (d : Dev) : Dev :=
  let cut := (d.host.targets.map (·.2.lock)).filterMap fun l => l.filter ms.contains
  { d with
    host.targets := tmap d.host.targets fun _ t => { t with
      lock := if (t.lock.filter ms.contains).isSome then none else t.lock, park := if ms.contains t.park then 0xF else t.park },
    host.masters := cut.foldl (fun l m => tupd l m fun x => { x with ctrs := bump x.ctrs 0x18 }) d.host.masters }

/-- The cores reload once every command that Perby has accepted is answered: a register snapshot and an audit wait for their instants (R392
steps 2 and 3), from the Perby part that an activation has put in place, if any (R534). -/
def coresReload (d : Dev) : Dev :=
  if d.host.stopped = true ∧ d.host.restarting = false ∧ d.host.snaps = [] ∧ d.host.asks = [] then
    mastersReset [0, 1, 2, 3] { d with
      host.restarting := true, host.restartAt := d.up, host.version := d.host.nextVersion.getD d.host.version, host.nextVersion := none }
  else d

/-- A hitless restart begins: Perby stops accepting doorbells, answers what it has accepted and reloads (R392 steps 1 to 3). -/
def hitlessBegin (d : Dev) : Dev :=
  if d.host.perbyUp = false ∨ d.host.restarting = true then d else coresReload { d with host.stopped := true }

/-! ### Lanes -/

def updLane (n : Nat) (f : Lane → Lane) (d : Dev) : Dev := { d with lanes := tupd d.lanes n f }
def updOct (n : Nat) (f : Octet → Octet) (d : Dev) : Dev := { d with octets := tupd d.octets n f }
def lane (n : Nat) (d : Dev) : Lane := tget d.lanes n
/-- A lane's octet; lanes 192 to 195 are the twin group, octet 24 (R84). -/
def octetOf (n : Nat) : Nat := n / 8
/-- The lanes of an octet. -/
def lanesOf (o : Nat) : List Nat := if o = 24 then [192, 193, 194, 195] else (List.range 8).map (8 * o + ·)

/-- A lane counter's offset (R111). -/
abbrev cLOS := 0x40
abbrev cLOL := 0x48
abbrev cRESTART := 0x50
abbrev cINVERT := 0x58
abbrev cROVE := 0x60
abbrev cROVE_FAIL := 0x68
abbrev cTEST_BITS := 0x70
abbrev cTEST_ERR := 0x78
def laneBump (n k m : Nat) (d : Dev) : Dev := updLane n (fun l => { l with ctrs := bumpBy l.ctrs k m }) d

/-- LOL asserts: LANE_CNT_LOL counts the transition (R96, R111). -/
def laneUnlocked (n : Nat) (d : Dev) : Dev :=
  if (lane n d).lol then d else laneBump n cLOL 1 (updLane n (fun l => { l with lol := true }) d)

/-- The taps of a lane's DFE (R93). -/
def dfeTaps (l : Lane) : Nat := if l.rate = 0xA then 8 else 12

/-- A rove visit to the lane is aborted and the spare released through step 6 (R106). -/
def abortVisit (o : Nat) (lane : Nat) (d : Dev) : Dev :=
  updOct o (fun x => if x.stage = 1 ∧ x.roveLane = lane then { x with stage := 2, visitAt := d.up - 21100 * us } else x) d

/-- Step 1 of bring-up (R99): ACQUIRE, the CTLE at 8, the VGA from the measured amplitude (a free value), the taps of the
equaliser zero. A visit to the lane is aborted (R106). -/
def laneStep1 (n : Nat) (d : Dev) : Dev :=
  let v := freeNat d % 32
  let d := laneUnlocked n (abortVisit (octetOf n) n d)
  useFree (updLane n (fun l => { l with
    rxState := 1, ctleNow := 8, vgaNow := v, dfe := List.replicate (dfeTaps l) 0,
    good := 0, bad := 0, adapted := false, trueRun := 0, compRun := 0, idents := [], acqAt := d.up, stepAt := d.up,
    search := 0, rateNow := if l.rate = 0xE then 0x6 else l.rate, testLock := false }) d)

/-- A receiver is OFF: no rate is in use and it is not locked (R110). -/
def laneOff (n : Nat) (d : Dev) : Dev :=
  laneUnlocked n (updLane n (fun l => { l with dfe := [], rxEn := false, rxState := 0, rateNow := 0xF, testRx := 0, testLock := false }) d)

/-! ### SDI receivers -/

def updRx (n : Nat) (f : SdiRx → SdiRx) (d : Dev) : Dev := { d with sdiRx := tupd d.sdiRx n f }
def updTx (n : Nat) (f : SdiTx → SdiTx) (d : Dev) : Dev := { d with sdiTx := tupd d.sdiTx n f }
def rxBump (n k : Nat) (d : Dev) : Dev := updRx n (fun r => { r with ctrs := bump r.ctrs k }) d
def txBump (n k m : Nat) (d : Dev) : Dev := updTx n (fun r => { r with ctrs := bumpBy r.ctrs k m }) d

/-- The rings that a receiver writes: its own streams, or its part of a multi-link group, or a framer's. -/
def receiverRings (n : Nat) (d : Dev) : List Nat :=
  tfind d.fab.streams fun x => decide (x.n ≠ 0) && decide (receiverOf x.kind x.id d = some n)

/-- The essences of a receiver: streams 0 and 1 of level B-DS, else one (R128). -/
def essences (r : SdiRx) : List Nat := if r.mapping = 4 then [0, 1] else [0]

/-- The rings that a receiver writes an essence to. -/
def essenceRings (n e : Nat) (d : Dev) : List Nat :=
  (receiverRings n d).filter fun r => let x := stream r d; decide (e = if x.kind = 1 then x.id / 256 else 0)

/-- The frame of an essence that a receiver is writing is abandoned (R282); the newest one, a frame before it that is still
being written being complete. -/
def abandonSdi (n e : Nat) (d : Dev) : Dev :=
  (essenceRings n e d).foldl (fun d r => match writingFrame r true d with
    | some f => abandonFrameAt r f d
    | none => d) d

/-- A received packet is stored with the frame being written, of the ring of its essence; of a multi-link group only link 1's
(R136, R241, R291). -/
def keepAnc (n : Nat) (p : AncPacket) (d : Dev) : Dev :=
  let rs := (essenceRings n (if (tget d.sdiRx n).mapping = 4 then p.stream % 2 else 0) d).filter fun r =>
    let x := stream r d
    decide (x.kind ≠ 2 ∨ x.id % 4 = 0)
  rs.foldl (fun d r => match writingFrame r true d with
    | some f => storeAnc r f p d
    | none => d) d

/-- SDI receiver counters (R152). -/
abbrev rxREADY := 0x40
abbrev rxABANDON := 0x48
abbrev rxCRC_Y := 0x50
abbrev rxCRC_C := 0x58
abbrev rxEDH := 0x60
abbrev rxLN_ERR := 0x68
abbrev rxTRS_FIX := 0x70
abbrev rxTRS_LOST := 0x78
abbrev rxPID := 0x80
abbrev rxML_WINDOW := 0x88
abbrev rxANC_KEPT := 0x90
abbrev rxANC_FILTERED := 0x98
abbrev rxANC_BAD := 0xA0
abbrev rxAUD_SAMPLES := 0xA8
abbrev rxAUD_BAD := 0xB0
abbrev rxCLAIM := 0xB8

/-- The frame that an SDI receiver in LOCKED has begun is abandoned, of each essence (R125, R128). -/
def sdiAbandon (n : Nat) (d : Dev) : Dev :=
  let r := tget d.sdiRx n
  if r.state = 3 ∧ r.began then
    (essences r).foldl (fun d e => abandonSdi n e (rxBump n rxABANDON d)) (updRx n (fun r => { r with began := false }) d)
  else d

/-- A receiver returns to SEARCH (R119, R126): the frame in progress is abandoned and word alignment dropped. -/
def sdiToSearch (n : Nat) (d : Dev) : Dev :=
  let r := tget d.sdiRx n
  if !r.en ∨ r.state ≤ 1 then d
  else rxBump n rxTRS_LOST (updRx n (fun r => { r with
    state := 1, streams := [], measuring := false, began := false,
    format := 0xFF, mapping := 0xF, sampling := 7, hasPid := false, pidLink := 0, rows := [], pairs := [], rateBad := [] }) (sdiAbandon n d))

/-! ### What a lane that leaves UP does to its client (R98) -/

/-- The lane set changes: event 0x0706. -/
def laneSet (ls : List Nat) (d : Dev) : Dev :=
  if ls = d.twn.lanes then d
  else postEvent 0x0706 0 (le 1 (ls.foldl (fun n l => n + 2 ^ l) 0)) (putControl { d with twn.lanes := ls })

/-- The link goes DOWN (R454, R456, R474): the replay buffer and the frames not yet sent are discarded, the ledger stops, and
a pairing that is under way begins again when the link returns. -/
def linkFell (d : Dev) : Dev :=
  if !twinUp d then d
  else twnBump tLINK_DOWN 1 (laneSet [] { d with
    memc.partnerSet := none, memc.partnerHeard := false, twn.link := 4, twn.peerUp := false, twn.replay := [], twn.holding := [], twn.timeOut := [], twn.timeIn := none, twn.insetSent := [], twn.part := [], twn.ledgerOn := false, twn.offline := true, twn.tm := none,
    twn.step := if d.twn.pair = 1 then 0 else d.twn.step, twn.isShadow := if d.twn.pair = 1 then false else d.twn.isShadow,
    twn.mirrored := [] })

/-- A lane of the twin link left UP (R454): both units stripe over the rest, and with fewer than three the link is DOWN. -/
def twinLaneLost (n : Nat) (d : Dev) : Dev :=
  let ls := d.twn.lanes.filter fun l => decide (l ≠ n - 192)
  if !twinUp d || decide (ls = d.twn.lanes) then d
  else
    let d := twnBump tLANE_DROP 1 (laneSet ls { d with twn.link := 3 })
    if ls.length < 3 then linkFell d else d

/-- The client of a lane whose output is not valid (R98). -/
def clientLost (n : Nat) (d : Dev) : Dev :=
  if 192 ≤ n then twinLaneLost n d
  else if (tget d.octets (octetOf n)).mode = 0 then sdiToSearch n d
  else portLaneLost n d

/-- A lane that is UP returns to ACQUIRE (R98): INVERT and order keep their values. -/
def laneDrop (n : Nat) (d : Dev) : Dev :=
  let l := lane n d
  let d := laneStep1 n d
  if l.rxState = 4 then clientLost n d else d

/-! ### Rasters as their consumers see them (R278, R286) -/

/-- The raster that feeds a consumer: kind 1 SDI transmitter, 2 transmit group, 3 send flow, 4 transmit framer. -/
def rasterFeeding (kind id : Nat) (d : Dev) : Option Nat :=
  (tfind d.fab.rasters fun x => decide (x.n ≠ 0 ∧ x.kind = kind ∧ x.id = id)).head?

/-- The raster that feeds an SDI transmitter, alone or in its transmit group; framers are transmitters 192 on. -/
def rasterOfSdiTx (n : Nat) (d : Dev) : Option Nat :=
  if 192 ≤ n then rasterFeeding 4 (n - 192) d
  else
    let t := tget d.sdiTx n
    if t.group = 0x3F then rasterFeeding 1 n d else rasterFeeding 2 t.group d

/-- A raster's timing group. -/
def rasterTg (e : Nat) (d : Dev) : Nat := (raster e d).tg
/-- A timing group's format. -/
def tgFormat (g : Nat) (d : Dev) : Nat := (timGroup g d).format
/-- The last boundary of a timing group at or before now. -/
def tgBoundary (g : Nat) (d : Dev) : Time := tgTime (timGroup g d) (tgIndex (timGroup g d) d.house)

/-- A raster sends frames of its timing group: bound, started, and not stopped (R310, R349). -/
def rasterReads (e : Nat) (d : Dev) : Bool :=
  let x := raster e d
  decide (x.n ≠ 0 ∧ x.startAt ≤ d.house) && !x.halted

/-- The ancillary packets of the frame that a raster shows: those stored in its reference ring (R137, R189, R291). -/
def rasterAnc (e : Nat) (d : Dev) : List AncPacket :=
  match (raster e d).shown with
  | some f => (match f.parts with
    | (r, n) :: _ => (match slotOf (stream r d) n with
      | some s => s.anc
      | none => [])
    | [] => [])
  | none => []

/-! ### Ancillary flows and flow frames (R189, R207) -/

/-- The reference ring of the alignment group that an ancillary flow belongs to. -/
def ancGroupRing (flow : Nat) (d : Dev) : Option Nat :=
  (tfind d.fab.ags fun g => decide (g.state = 1) && g.members.any fun m => decide (m.kind = 2 ∧ m.id = flow)).head?.bind
    fun a => (videoRings 2 a d).head?

/-- A packet's timestamp matches a frame of its group within one frame period (R189). -/
def ancMatches (flow ts : Nat) (d : Dev) : Bool :=
  match ancGroupRing flow d with
  | none => false
  | some r => (stream r d).slots.any fun s => decide ((s.state = 1 ∨ s.state = 2) ∧ s.ts = ts)

/-- An ancillary flow's packets are stored with the video frame of equal timestamp (R189). -/
def ancStore (flow ts : Nat) (ps : List AncPacket) (d : Dev) : Dev :=
  match ancGroupRing flow d with
  | none => d
  | some r => match (stream r d).slots.find? fun s => decide ((s.state = 1 ∨ s.state = 2) ∧ s.ts = ts) with
    | some s => ps.foldl (fun d p => storeAnc r s.num p d) d
    | none => d

/-- A flow's frame or field is a part of the frame in a slot of its ring: the first field, or a whole frame, has the slot's
timestamp, and the second field, which its packets' second-field bit shows, follows it (R185, R281). -/
def ofSlot (format : Nat) (f : IpFrame) (s : Slot) : Bool :=
  if byField format && f.second then decide (f.prev = some s.ts) else decide (f.ts = s.ts)

/-- A flow's frame is abandoned, with the frame of its ring that it is a part of (R202, R207). -/
def flowAbandon (flow : Nat) (f : IpFrame) (d : Dev) : Dev :=
  (tfind d.fab.streams fun x => decide (x.n ≠ 0 ∧ x.kind = 3 ∧ x.id = flow)).foldl (fun d r =>
    match (stream r d).slots.find? fun s => decide (s.state = 1) && ofSlot (stream r d).format f s with
    | some s => abandonFrameAt r s.num d
    | none => d) d

/-! ### Lanes and synthesisers in use -/

/-- A client uses a lane, so no test may run on it (R114): a receiver bound to the fabric, an enabled port, or the twin
link while it is up. -/
def laneInUse (n : Nat) (d : Dev) : Bool :=
  if 192 ≤ n then twinUp d
  else if (tget d.octets (octetOf n)).mode = 0 then (receiverRings n d).any fun r => (stream r d).bound
  else macEnabledOn n d

/-! ### Converter engines (R335, R338, R339) -/

/-- The conversion that an engine takes part in, by first engine. -/
def conversionOf (e : Nat) (d : Dev) : Option Nat :=
  let x := engine e d
  if x.conf ≠ [] then some e else x.lead

/-- The engines of a conversion. -/
def gangOf (e : Nat) (d : Dev) : List Nat := (List.range (max 1 (cvGang (engine e d).conf))).map (e + ·)

/-- An engine is IDLE (R350). -/
def engineIdle (e : Nat) (d : Dev) : Bool :=
  let x := engine e d
  decide (e < 48) && decide (x.conf = [] ∧ x.frames = []) && x.lead.isNone && !x.retired
    && !((tfind d.cnv.engines fun y => match y.subst with
        | some s => decide (s.1 ≤ e ∧ e < s.1 + max 1 (cvGang y.conf))
        | none => false) ≠ [])

/-- The lowest-numbered idle engine, or aligned idle gang of `k` (R339). -/
def spareFor (k : Nat) (d : Dev) : Option Nat :=
  (List.range 48).find? fun f => decide (f % k = 0) && (List.range k).all fun i => engineIdle (f + i) d

/-- W_(j,q): the start of picture q of output frame j (R315). -/
def pictureStart (g : TimGroup) (j q : Nat) : Time :=
  tgTime g j + (q : Rat) * framePeriod g.format / 2 - 8 * linePeriod g.format

/-- The first output frame whose W_(j,0) lies at or after a house time. -/
def nextOutput (g : TimGroup) (t : Time) : Nat := tgNext g (t + 8 * linePeriod g.format)

/-- An engine's output frames in progress are abandoned, its tokens freed and its requests dropped (R335). -/
def abortEngine (e : Nat) (d : Dev) : Dev :=
  let d := (engine e d).frames.foldl (fun d f => abandonFrameAt f.2.1 f.2.2 d) d
  updEngine e (fun x => { x with frames := [], fetch := 0, held := 0, out := 0, tokens := x.tokens + x.fetch + x.held + x.out }) d

/-- A conversion stops: its engine returns to CONFIGURED (R335). -/
def stopEngine (e : Nat) (d : Dev) : Dev :=
  sweep (updEngine e (fun x => { x with en := false, startA := none, selA := none, selB := none, subst := none, resume := none })
    (abortEngine e d))

/-- A conversion whose engine retires moves at once to a spare, or stops; event 0x0B03 (R339, R340). -/
def retireEngine (e c : Nat) (d : Dev) : Dev :=
  let x := engine c d
  let g := timGroup (cvTg x.conf) d
  let spare := if x.en then spareFor (max 1 (cvGang x.conf)) d else none
  let d := updEngine e (fun y => { y with retired := true }) d
  match spare with
  | some f => postEvent 0x0B03 e [1, BitVec.ofNat 8 f] (updEngine c (fun y => { y with subst := some (f, nextOutput g d.house, true) }) d)
  | none => postEvent 0x0B03 e [0, 0xFF] (stopEngine c d)

/-- A contained reset of an engine (R339): the frame it works on is abandoned; it is substituted, or resumes its own
conversion from the next output frame, and the second reset within 10 s retires it. -/
def engineFault (e : Nat) (d : Dev) : Dev :=
  let x := engine e d
  if x.retired then d
  else
    let again := x.resets.any fun t => decide (d.up < t + 10 * sec)
    let d := updEngine e (fun y => { y with resets := (y.resets.filter fun t => decide (d.up < t + 10 * sec)) ++ [d.up] }) d
    let d := { d with flt.inReset := if d.flt.inReset.contains (7, e) then d.flt.inReset else d.flt.inReset ++ [(7, e)] }
    match conversionOf e d with
    | none => if again then postEvent 0x0B03 e [0, 0xFF] (updEngine e (fun y => { y with retired := true }) d) else d
    | some c =>
      let d := abortEngine c d
      if again then retireEngine e c d
      else
        let y := engine c d
        let j := nextOutput (timGroup (cvTg y.conf) d) d.house
        let spare := if d.cnv.spareAuto ∧ y.en then spareFor (max 1 (cvGang y.conf)) d else none
        updEngine c (fun z => match spare with
          | some f => { z with subst := some (f, j, true) }
          | none => { z with resume := if z.en then some j else none }) d

/-- An engine that has just been retired, for the engine-retired source (R339). -/
def engineRetired (e : Nat) (d : Dev) : Bool := (engine e d).retired

/-! ### Twin link -/

/-- A twin lane has trained (R108, R454): training as a whole ends when both units report all four receivers UP, and a
lane that returns alone rejoins. -/
def twinTrained (allUp : Bool) (d : Dev) : Dev :=
  let up := [0, 1, 2, 3].filter fun l => decide ((lane (192 + l) d).rxState = 4)
  let d := { d with twn.peerUp := allUp }
  if twinUp d && (allUp || decide (up.length = 3)) then laneSet up { d with twn.link := if up.length = 4 then 2 else 3 }
  else d

/-- A claim seen on a witness flow (R220, R459, R473): it raises E_max; with the partner's unit number it is the witness's
last word, and in role 0b11 it shows the lead. -/
def witnessClaim (c : Word) (d : Dev) : Dev :=
  let d := { d with twn.eMax := max d.twn.eMax (c.toNat / 65536) }
  if c.toNat % 256 ≠ d.twn.partnerUnit then d
  else { d with
    twn.witClaim := c, twn.witAt := some d.up,
    twn.claimAt := if c.toNat / 16384 % 4 = 3 then some d.up else d.twn.claimAt }

/-! ### Resets of one instance (R498) -/

/-- An output raster stops (R32, R305): its holds are released, its follow cells revert to host control, its slots are
free; the markers, the palette, the background and the counters are kept (R349). -/
def stopRaster (e : Nat) (d : Dev) : Dev :=
  let d := releaseFollow (raster e d).route d
  let d := glyphPassed e d
  sweep (updRaster e (fun x => { keyout := x.keyout, bg := x.bg, bgSet := x.bgSet, markers := x.markers,
                                 palette := x.palette, ctrs := x.ctrs, outCtrs := x.outCtrs }) d)

/-- The rest of the frame that a raster is sending becomes background (R498), from a row that is a free value. -/
def cutPicture (e : Nat) (d : Dev) : Dev :=
  blankFrom e (freeNat d % (activeLines (tgFormat (rasterTg e d) d) + 1)) (useFree d)

/-- The rest of the frame that a transmitter sends becomes background, its line count being kept (R144, R498), from a line that is
a free value. -/
def cutTx (n : Nat) (d : Dev) : Dev :=
  match rasterOfSdiTx n d with
  | some e => if (tget d.sdiTx n).state = 2 then blankLines (freeNat d % (totalLines (streamFormat (tget d.sdiTx n).format) + 1)) n e (useFree d) else d
  | none => d

/-- A reset ends a function's drain on the immediate path: it stops, and its completion events carry 0x5 (R35). -/
def resetDrain (f : Func) (stop : Dev → Dev) (d : Dev) : Dev :=
  if (drainOf f d).isSome then endDrain f 5 (stop d) else d

/-- The instance of a reset domain that a change acts on (R440, R498). -/
def changeDomain (x : Change) : Option (Nat × Nat) :=
  let p := x.payload
  match x.opcode / 256 with
  | 0x02 => some (1, (u16 p (if x.opcode = 0x0203 then 4 else 0)) / 8)
  | 0x03 => if 0x0306 ≤ x.opcode then some (3, u16 p 0) else some (2, u16 p 0)
  | 0x04 => some (4, u8 p 0 / 8)
  | 0x07 => if x.opcode = 0x0704 ∨ x.opcode = 0x0707 then some (8, u16 p 0) else none
  | 0x08 => if x.opcode < 0x0810 then some (7, u8 p 0) else some (8, u16 p 0)
  | 0x09 => (match x.opcode with
    | 0x0907 => some (9, 256 + u8 p 0)
    | 0x0908 | 0x090D => some (9, 512 + u8 p 0)
    | 0x0909 => some (9, 768 + u8 p 0)
    | 0x090A => some (9, 1280)
    | _ => none)
  | _ => none

/-- A reset takes the armed state of its instance, which the commit engine arms again after it (R440). -/
def disarm (domain inst : Nat) (d : Dev) : Dev :=
  { d with cfg.waiting := d.cfg.waiting.map fun w =>
      if w.armed.isSome ∧ changeDomain w.change = some (domain, inst) then { w with lost := true } else w }

/-- A contained reset of an engine ends the drain of the conversion that it serves (R35). -/
def engineReset (e : Nat) (d : Dev) : Dev :=
  let c := (conversionOf e d).getD e
  resetDrain (.engine c) (stopEngine c) (engineFault e (disarm 7 e d))

/-- The drains of receive flows that a reset framer serves end with it (R35, R190). -/
def resetFlows (p : RxFlow → Bool) (d : Dev) : Dev :=
  (tfind d.flows.rx p).foldl (fun d n => resetDrain (.rxFlow n) (updRxFlow n stoppedFlow) d) d

/-- The effect of a reset of one instance of a domain, as the reset-domain table gives it. The drains of its functions
end with outcome 0x5 (R35). -/
def blockReset (domain inst : Nat) (d : Dev) : Dev :=
  let d := disarm domain inst d
  match domain with
  | 0x01 => (lanesOf inst).foldl (fun d n =>
      let d := if (lane n d).rxEn then laneDrop n d else d
      resetDrain (.laneTx n) (updLane n fun l => { l with txEn := false })
        (resetDrain (.laneRx n) (laneOff n) d)) d
  | 0x02 =>
    resetFlows (fun x => decide (192 ≤ inst ∧ x.type = 5 ∧ x.dest = inst - 192))
      (resetDrain (.sdiRx inst) (updRx inst fun r => { r with en := false, state := 0 }) (sdiToSearch inst d))
  | 0x03 => resetDrain (.sdiTx inst) (updTx inst fun t => { t with en := false, state := 0, format := 0xFF, mapping := 0xF, claimOn := false }) (cutTx inst d)
  | 0x04 => (List.range 8).foldl (fun d i =>
      let p := 8 * inst + i
      let d := if (port p d).link ≠ 0 then portDown p false d else d
      let d := (List.range 8).foldl (fun d q =>
        resetDrain (.queue p 1 q) (updQueue p 1 q fun x => { x with stopped := true })
          (resetDrain (.queue p 2 q) (updQueue p 2 q fun x => { x with stopped := true }) d)) d
      resetDrain (.port p) (updPort p fun x => { x with en := false, link := 0 }) d) d
  | 0x06 => pcReset inst d
  | 0x07 => engineReset inst d
  | 0x08 => resetDrain (.raster inst) (stopRaster inst) (if rasterReads inst d then cutPicture inst d else d)
  | 0x09 => resetDrain (.audioPort (inst / 256) (inst % 256)) (stopAudioPort (inst / 256) (inst % 256))
      (if inst / 256 = 1 ∨ inst / 256 = 3 then requalify (inst / 256) (inst % 256) d else d)
  | 0x0A => { linkFell d with twn.link := if d.twn.link = 0 then 0 else 4 }
  | _ => d

/-- A quarantined instance is held in reset, its functions as if disabled immediately (R500). -/
def blockHold (domain inst : Nat) (d : Dev) : Dev :=
  match domain with
  | 0x01 => (lanesOf inst).foldl (fun d n => updLane n (fun l => { l with rxState := 0 }) d) d
  | 0x02 => updRx inst (fun r => { r with state := 0 }) d
  | 0x03 => updTx inst (fun r => { r with state := 0 }) d
  | 0x04 => (List.range 8).foldl (fun d i => updPort (8 * inst + i) (fun x => { x with link := 0 }) (portDown (8 * inst + i) false d)) d
  | 0x07 => stopEngine inst d
  | 0x08 => updRaster inst (fun x => { x with halted := true }) d
  | 0x09 => updPort' (inst / 256) (inst % 256) (fun x => { x with parked := x.state, state := 0 }) d
  | _ => d

/-- What `blockHold` held back returns (R500). -/
def blockFree (domain inst : Nat) (d : Dev) : Dev :=
  match domain with
  | 0x01 => (lanesOf inst).foldl (fun d n => if (lane n d).rxEn ∧ (lane n d).rxState = 0 then laneStep1 n d else d) d
  | 0x02 => updRx inst (fun r => { r with state := if r.en then max 1 r.state else 0 }) d
  | 0x03 => updTx inst (fun r => { r with state := if r.en then max 1 r.state else 0 }) d
  | 0x04 => (List.range 8).foldl (fun d i => updPort (8 * inst + i) (fun x => { x with link := if x.en then max 1 x.link else 0 }) d) d
  | 0x08 => updRaster inst (fun x => { x with halted := false }) d
  | 0x09 => updPort' (inst / 256) (inst % 256) (fun x => { x with state := if x.state = 0 then x.parked else x.state, parked := 0 }) d
  | _ => d

/-- LANE_OCT_STATUS.IDLE: no lane of the octet is enabled in either direction and none drains. -/
def octetIdle (o : Nat) (d : Dev) : Bool :=
  (lanesOf o).all fun n => !(lane n d).rxEn && !(lane n d).txEn && (lane n d).rxState = 0
    && (drainOf (.laneRx n) d).isNone && (drainOf (.laneTx n) d).isNone

/-- An instance's idle flag for requested resets (R498). -/
def blockIdle (domain inst : Nat) (d : Dev) : Bool :=
  match domain with
  | 0x01 => octetIdle inst d
  | 0x02 => decide ((tget d.sdiRx inst).state = 0)
  | 0x03 => decide ((tget d.sdiTx inst).state = 0) && (drainOf (.sdiTx inst) d).isNone
  | 0x04 => (List.range 8).all fun i => decide (portLink (8 * inst + i) d = 0)
  | 0x06 => decide ((pc inst d).state = 0 ∨ (pc inst d).state = 4 ∨ (pc inst d).state = 5)
  | 0x07 => !(engine inst d).en && (drainOf (.engine inst) d).isNone
  | 0x08 => decide ((raster inst d).n = 0 ∨ (raster inst d).route.srcKind = 0) && (drainOf (.raster inst) d).isNone
  | 0x09 => decide ((audPort (inst / 256) (inst % 256) d).state = 0)
  | 0x0A => decide (d.twn.link = 0 ∨ d.twn.link = 4)
  | _ => false

/-- The blocks that a synthesiser serves have their idle flags set (R79, R83): those that chapters 1 and 2 put in its domain. -/
def synthIdle (n : Nat) (d : Dev) : Bool :=
  let all (domain count : Nat) : Bool := (List.range count).all fun i => blockIdle domain i d
  match n with
  | 2 => ((rasters d).all fun e => blockIdle 0x08 e d) && all 0x02 256 && all 0x03 256 && blockIdle 0x0A 0 d
  | 3 => all 0x06 64
  | 4 => all 0x07 48
  | 5 => all 0x04 16
  | 6 => (List.range 16).all fun o => decide ((tget d.octets o).mode = 0) || octetIdle o d
  | 7 => blockIdle 0x0A 0 d && octetIdle 24 d
  | 8 => d.aud.ports.all fun e => decide (e.2.state = 0)
  | 9 | 10 => ((List.range 24).all fun o => decide ((tget d.octets o).mode ≠ 0) || octetIdle o d) && all 0x03 192
  | _ => true

/-! ### Almanac entries that fail (R436, R437) -/

/-- The counters of the configuration machinery (R449). -/
abbrev gCOMMITS := 0x00
abbrev gCHECKS := 0x08
abbrev gCHECKS_FAILED := 0x10
abbrev gADVENT_FAILED := 0x18
abbrev gLATE_ARMS := 0x20

def cfgBump (k : Nat) (d : Dev) : Dev := { d with cfg.ctrs := bump d.cfg.ctrs k }
def bank (b : Nat) (d : Dev) : Bank := tget d.cfg.banks b
def updBank (b : Nat) (f : Bank → Bank) (d : Dev) : Dev := { d with cfg.banks := tupd d.cfg.banks b f }
def almEntry (e : Nat) (d : Dev) : AlmEntry := tget d.cfg.alm e
def updAlm (e : Nat) (f : AlmEntry → AlmEntry) (d : Dev) : Dev := { d with cfg.alm := tupd d.cfg.alm e f }

/-- The entry after one of its instants (R433): actions 2 and 3 repeat after PERIOD seconds while instants remain. -/
def nextInstant (x : AlmEntry) : Option AlmEntry :=
  if x.action ≠ 1 ∧ 0 < x.period ∧ x.count ≠ 1 then
    some { x with state := 1, instant := x.instant + (x.period : Rat) * sec, count := x.count - 1, built := [],
                  handed := false, strobed := false }
  else none

/-- An entry fails (R436): its bank returns to SEALED, event 0x0803 carries the verdict, and a repeating entry goes on to
its next instant. -/
def failEntry (e : Nat) (v : Verdict) (d : Dev) : Dev :=
  let x := almEntry e d
  let d := if x.action = 1 then updBank x.arg (fun b => { b with state := 3, entry := 0x1FF, verdict := v }) d else d
  let d := updAlm e (fun x => (nextInstant x).getD { x with state := 3, built := [], verdict := v }) d
  postEvent 0x0803 e (le 4 v.index ++ le 2 v.opcode ++ le 2 v.status ++ le 2 v.detail) (cfgBump gADVENT_FAILED d)

/-- Entries whose instant a step of house time has brought within 600 ms, or into the past, fail (R437); an entry that has
been handed over commits whatever happens (R436). -/
def failStepped (d : Dev) : Dev :=
  (tfind d.cfg.alm fun x => decide (x.state = 1 ∨ x.state = 2) && !x.handed
    && decide (x.instant < d.house + 600 * ms)).foldl
    (fun d e => failEntry e { status := 0x0012, epoch := d.cfg.epoch.toNat } d) d

/-- After a step of house time the boundaries already planned are forgotten, so that planning follows the new time
(R45, R279). -/
def houseStepped (d : Dev) : Dev :=
  failStepped { d with
    fab.tgs := tmap d.fab.tgs fun _ g => { g with plannedK := 0, confK := 0, bK := tgIndex g d.house }, aud.block := blockOf d.house,
    memc.pcs := tmap d.memc.pcs fun _ x => { x with winAt := d.house } }

end Sys2Proof.Machine
end

