-- ==== Sys2Proof/Machine/Faults.lean ====
section
/-! DEFINITION. The fault collector: fault sources and their classes (R484, R485), and what a report does (R486 to
R500). Every chapter raises its reports through `report`. -/

namespace Sys2Proof.Machine

/-- A row of the fault source map: default major severity, whether it is locked, whether the fixed major class is
fatal (else contained), and the reset domain (0 none). -/
structure SrcInfo where
  sev    : Nat
  locked : Bool := false
  fatal  : Bool := false
  domain : Nat := 0

/-- The fault source map (R484) and the update sources (R539); none where the number is not implemented. -/
def srcInfo (s : Nat) : Option SrcInfo :=
  let log : SrcInfo := { sev := 1 }
  let alert : SrcInfo := { sev := 2 }
  let fatal : SrcInfo := { sev := 4, fatal := true }
  let locked : SrcInfo := { sev := 4, locked := true, fatal := true }
  let i (a b : Nat) : Bool := decide (a ≤ s ∧ s ≤ b)
  if i 0x000 0x001 then some locked
  else if i 0x002 0x003 then some alert
  else if i 0x004 0x004 then some log
  else if i 0x010 0x01B then some alert
  else if i 0x020 0x023 then some alert
  else if i 0x024 0x024 then some log
  else if i 0x030 0x030 then some log
  else if i 0x031 0x033 then some alert
  else if i 0x034 0x034 then some fatal
  else if i 0x035 0x035 then some alert
  else if i 0x040 0x04F then some fatal
  else if i 0x050 0x09F then some alert
  else if i 0x0A0 0x0A1 then some fatal
  else if i 0x0C0 0x0C0 then some alert
  else if i 0x0C8 0x0C8 then some alert
  else if i 0x0C9 0x0CA then some log
  else if i 0x0CB 0x0CC then some alert
  else if i 0x0D0 0x0D0 then some { log with domain := 0x0A }
  else if i 0x0D1 0x0D4 then some alert
  else if i 0x100 0x1C7 then
    (match (s - 0x100) % 8 with
     | 0 | 1 | 2 | 4 => some { alert with domain := 1 }
     | 3 => some { log with domain := 1 }
     | _ => none)
  else if i 0x1D0 0x1D0 then some { sev := 3, domain := 2 }
  else if i 0x1D1 0x1D1 then some { log with domain := 3 }
  else if i 0x200 0x23F then
    (match (s - 0x200) % 4 with
     | 0 => some { log with domain := 4 }
     | 1 => some { sev := 3, domain := 4 }
     | 2 => some locked
     | _ => none)
  else if i 0x240 0x241 then some alert
  else if i 0x242 0x242 then some locked
  else if i 0x260 0x260 then some locked
  else if i 0x261 0x261 then some log
  else if i 0x280 0x37F then
    (match (s - 0x280) % 4 with
     | 0 => some { log with domain := 6 }
     | 2 => some { sev := 3, domain := 6 }
     | _ => some { alert with domain := 6 })
  else if i 0x380 0x380 then some locked
  else if i 0x381 0x383 then some alert
  else if i 0x390 0x3BF then some { sev := 3, domain := 7 }
  else if i 0x3C0 0x3C0 then some locked
  else if i 0x3C1 0x3C1 then some alert
  else if i 0x3C8 0x3C9 then some { log with domain := 8 }
  else if i 0x3D0 0x3D0 then some alert
  else if i 0x3D1 0x3D1 then some log
  else if i 0x3D2 0x3D2 then some locked
  else if i 0x3D3 0x3D3 then some log
  else if i 0x3E0 0x3E1 then some { log with domain := 9 }
  else none

/-- The instance of its reset domain that a report's contained reaction resets (R498): taken from the source number
where the number names it, otherwise from the report's instance. -/
def domainInst (s inst : Nat) : Nat :=
  if 0x100 ≤ s ∧ s ≤ 0x1C7 then (s - 0x100) / 8
  else if 0x200 ≤ s ∧ s ≤ 0x23F then (s - 0x200) / 4
  else if 0x280 ≤ s ∧ s ≤ 0x37F then (s - 0x280) / 4
  else if 0x390 ≤ s ∧ s ≤ 0x3BF then s - 0x390
  else if s = 0x0D0 then 0
  else if s = 0x3E0 then 256 + inst % 256
  else if s = 0x3E1 then 3 * 256 + inst % 256
  else inst

/-- Whether source `s` is dependent on an instance of a reset domain (R498). -/
def dependent (domain inst s : Nat) : Bool :=
  let cnv := decide (0x390 ≤ s ∧ s ≤ 0x3BF)
  if domain = 1 then
    decide (s = 0x1D0 ∨ s = 0x1D1) || decide (inst < 16 ∧ 0x200 + 4 * inst ≤ s ∧ s < 0x204 + 4 * inst)
      || decide (inst = 24 ∧ 0x0D0 ≤ s ∧ s ≤ 0x0D4)
  else if domain = 2 then decide (s = 0x3C9) || cnv
  else if domain = 3 then decide (s = 0x0D4)
  else if domain = 4 then decide (s = 0x241 ∨ s = 0x3C9 ∨ s = 0x0D3)
  else if domain = 6 then decide (s = 0x261 ∨ s = 0x381 ∨ s = 0x3C8 ∨ s = 0x3C9) || cnv
  else if domain = 7 then decide (s = 0x3C9 ∨ s = 0x0D4)
  else if domain = 8 then decide (s = 0x1D1 ∨ s = 0x0D4)
  else if domain = 9 then decide (s = 0x3D3)
  else if domain = 0x0A then decide (s = 0x0D3 ∨ s = 0x0D4)
  else false

/-- A report takes the programmed severities in SOLO, LEAD, SHADOW and DEGRADED, and its fixed class elsewhere
(R486, R487). -/
def programmable (d : Dev) : Bool := decide (d.mode = SOLO ∨ d.mode = LEAD ∨ d.mode = SHADOW ∨ d.mode = DEGRADED)

/-- The major severity set for a source (R485). -/
def sevMajor (s : Nat) (i : SrcInfo) (d : Dev) : Nat :=
  if i.locked then 4 else ((tget d.flt.sources s).sevMajor).getD i.sev

/-- The source's injection acts in full (REACT 1, R496). -/
def injReacts (src : Nat) (d : Dev) : Bool :=
  match (tget d.flt.sources src).inj with
  | some j => j.react
  | none => false

/-- The severity or fixed class at which a report acts (R485 to R487, R496). -/
def actingSev (r : Report) (i : SrcInfo) (d : Dev) : Nat :=
  let base :=
    if i.locked ∧ r.major then 4
    else if programmable d then (if r.major then sevMajor r.src i d else (tget d.flt.sources r.src).sevMinor)
    else if !r.major then 1
    else if i.fatal then 4 else 3
  if r.injected ∧ !r.coincident ∧ !injReacts r.src d then min base 2 else base

/-- Counter offsets of a source (R507). -/
abbrev fltMINOR := 0x00
abbrev fltMAJOR := 0x08
abbrev fltWINDOWED := 0x10
abbrev fltINJECTED := 0x18

/-- A source's counter is increased. -/
def fltBump (s k n : Nat) (d : Dev) : Dev :=
  { d with flt.sources := tupd d.flt.sources s fun x => { x with ctrs := bumpBy x.ctrs k n } }

/-- The FLAGS byte of a record (R494): INJECTED, COINCIDENT, DETAIL_LOST, WIRE. -/
def reportFlags (r : Report) (d : Dev) : Nat :=
  b2n r.injected + 2 * b2n r.coincident + 4 * b2n r.detailLost + 8 * b2n (tget d.flt.sources r.src).broken

/-- A report takes the first-error latch, or is counted in FLT_OVERFLOW while VALID (R493). -/
def latch (r : Report) (sev : Nat) (d : Dev) : Dev :=
  if d.flt.valid then { d with flt.overflow := d.flt.overflow + 1 }
  else signal 32 { d with
    flt.valid := true,
    flt.first := { source := r.src, major := r.major, sev := sev, fixed := !programmable d,
                   flags := reportFlags r d, mode := d.mode, code := r.code, time := ns48 d.house,
                   inst := r.inst, further := r.further } }

/-- The fatal reaction (R489), which takes place once (R487): SAFE, the safe-hold line, FATAL and FATAL_SRC of the first fatal report, vector 32, event
0x0502, and LEAVE to the partner. -/
def fatalReaction (r : Report) (d : Dev) : Dev :=
  let ev := le 1 (b2n r.major) ++ le 3 0 ++ le 2 r.code ++ le 4 r.inst
  if d.flt.fatal ∨ d.mode = SAFE then d
  else
    let d := signal 32 (masterWorks 6 { d with flt.fatal := true, flt.fatalSrc := r.src })
    let d := if d.twn.pair ≠ 0 then sendTwin (.leave 2) d else d
    postEvent 0x0502 r.src ev (setMode SAFE { d with flt.safeHold := true })

/-- CONTAINED sets, and a unit in SOLO, LEAD or SHADOW passes to DEGRADED (R486, R488, R511). -/
def setContained (d : Dev) : Dev :=
  let d := { d with flt.contained := true }
  if d.mode = SOLO ∨ d.mode = LEAD ∨ d.mode = SHADOW then setMode DEGRADED d else d

/-- Sources whose owning chapter gives a built-in reaction, for which CONTAIN adds no second reset (R490). -/
def builtInSrc (s : Nat) : Bool :=
  decide (0x010 ≤ s ∧ s ≤ 0x01B) || decide (s = 0x033 ∨ s = 0x035 ∨ s = 0x241 ∨ s = 0x3D0)
    || decide (0x100 ≤ s ∧ s ≤ 0x1C7 ∧ (s - 0x100) % 8 < 2) || decide (0x280 ≤ s ∧ s ≤ 0x37F ∧ (s - 0x280) % 4 = 2)
    || decide (0x390 ≤ s ∧ s ≤ 0x3BF)

/-- A consequence window is open (R499). -/
def windowOpen (w : Window) (d : Dev) : Bool := decide (d.up < w.closeAt)

/-- A report recorded and acted on, but for any reset it calls for (R486 to R489, R493, R499). Answers the severity
acted on, or none where a consequence window held the report. -/
def reportCore (r : Report) (i : SrcInfo) (d : Dev) : Option Nat × Dev :=
  let d := fltBump r.src (if r.major then fltMAJOR else fltMINOR) (1 + r.further) d
  let d := if r.injected then fltBump r.src fltINJECTED 1 d else d
  let holds (w : Window) : Bool := dependent w.domain w.inst r.src && windowOpen w d
  if !i.locked && d.flt.windows.any holds then
    (none, fltBump r.src fltWINDOWED 1 { d with
      flt.windows := d.flt.windows.map fun w => if holds w then { w with held := w.held + 1 } else w })
  else
    let sev := actingSev r i d
    let d := if 1 ≤ sev then
        postEvent 0x0501 r.src (le 1 (b2n r.major) ++ le 1 (sev + 8 * b2n (!programmable d)) ++ le 1 (reportFlags r d) ++ le 1 0 ++ le 2 r.code
          ++ le 4 r.inst) d
      else d
    let d := if 2 ≤ sev then latch r sev d else d
    let d := if sev = 3 ∧ programmable d then setContained d else d
    let d := if sev = 4 then fatalReaction r d else d
    (some sev, d)

/-- Contained resets that an instance has taken within the last 60 s (R500). -/
def recentResets (domain inst : Nat) (d : Dev) : Nat :=
  (d.flt.resets.filter fun x => decide (x.1 = domain ∧ x.2.1 = inst ∧ d.up < x.2.2 + 60 * sec)).length

/-- The ports of an octet that have left UP since `was` raise their link fault (R159). -/
def portReports (o : Nat) (was : Dev) (i : SrcInfo) (d : Dev) : Dev :=
  (List.range 8).foldl (fun d j =>
    let p := 8 * o + j
    if (port p was).link = 3 ∧ (port p d).link ≠ 3 then
      (reportCore { src := 0x200 + 4 * o, major := true, code := 0, inst := p, further := 0, injected := false,
                    coincident := false, detailLost := false } i d).2
    else d) d

/-- The contained reaction (R498, R500): one instance is reset, event 0x0503 is posted, and the drains of its functions
end with outcome 0x5 (R35). An instance that has taken three contained resets within 60 s is quarantined instead, and
reported with code 0xFFFE, but for a pseudo-channel, whose own limit is R261's; one already in reset or quarantine takes no
second reset. -/
def containedReset (r : Report) (i : SrcInfo) (d : Dev) : Dev :=
  let inst := domainInst r.src r.inst
  if d.flt.inReset.contains (i.domain, inst) || d.flt.quarantine.contains (i.domain, inst) then d
  else if 3 ≤ recentResets i.domain inst d ∧ i.domain ≠ 6 then
    let d := postEvent 0x0503 i.domain (le 2 inst ++ le 1 2)
      (blockHold i.domain inst (blockReset i.domain inst { d with flt.quarantine := d.flt.quarantine ++ [(i.domain, inst)] }))
    (reportCore { r with code := 0xFFFE, further := 0 } i d).2
  else
    let was := d
    let d := postEvent 0x0503 i.domain (le 2 inst ++ le 1 0)
      (blockReset i.domain inst
        { d with flt.inReset := d.flt.inReset ++ [(i.domain, inst)],
                 flt.resets := d.flt.resets ++ [(i.domain, inst, d.up)] })
    match (if i.domain = 1 ∧ inst < 16 then srcInfo (0x200 + 4 * inst) else none) with
    | some j => portReports inst was j d
    | none => d

/-- A further report that a built-in reaction makes of itself; none of these has a reset domain. -/
def innerReport (src inst : Nat) (d : Dev) : Dev :=
  match srcInfo src with
  | none => d
  | some i => (reportCore { src := src, major := true, code := 0, inst := inst, further := 0, injected := false,
                            coincident := false, detailLost := false } i d).2

/-- The built-in reaction of a source (R490), whatever the severity: a hitless restart (R391), a flow resync (R204), an
engine reset, which may retire the engine (R339), or the reset of a pseudo-channel, which may force its retirement
(R261, R271). -/
def builtIn (s : Nat) (inst : Nat) (d : Dev) : Dev :=
  if s = 0x033 ∨ s = 0x035 then hitlessBegin d
  else if s = 0x241 then flowResync inst d
  else if 0x390 ≤ s ∧ s ≤ 0x3BF then
    let e := s - 0x390
    let was := engineRetired e d
    if was ∨ d.flt.inReset.contains (7, e) then d
    else
      let d := postEvent 0x0503 7 (le 2 e ++ le 1 0) (engineReset e d)
      if engineRetired e d then innerReport 0x3C1 e d else d
  else if 0x280 ≤ s ∧ s ≤ 0x37F ∧ (s - 0x280) % 4 = 2 then
    let k := (s - 0x280) / 4
    let was := (pc k d).state
    let began := d.flt.inReset.contains (6, k)
    let d := pcFault k d
    let d := if !began && d.flt.inReset.contains (6, k) then postEvent 0x0503 6 (le 2 k ++ le 1 0) d else d
    if was ≠ 5 ∧ (pc k d).state = 5 ∧ overAdmitted d then innerReport 0x383 k d else d
  else d

/-- A report reaches the collector (R484 to R500). A built-in reaction is above ALERT, so that an injected report without
REACT has none (R496). In HELD the collector is itself in reset. -/
def collect (r : Report) (d : Dev) : Dev :=
  if d.mode = HELD then d
  else match srcInfo r.src with
  | none => d
  | some i =>
    let r := if r.detailLost then { r with major := true } else r
    let quiet := r.injected && !r.coincident && !injReacts r.src d
    let (sev, d) := reportCore r i d
    match sev with
    | none => d
    | some sev =>
      let d := if r.major ∧ quiet = false then builtIn r.src r.inst d else d
      if sev = 3 ∧ i.domain ≠ 0 ∧ builtInSrc r.src = false then containedReset r i d else d

/-- A report that the device itself raises. -/
def report (src : Nat) (major : Bool) (code inst : Nat) (d : Dev) : Dev :=
  collect { src := src, major := major, code := code, inst := inst, further := 0, injected := false,
            coincident := false, detailLost := false } d

/-! ### Checkers (R24, R26, R495, R497) -/

/-- The check bits that a mode 0 injection at a checker inverts, as symbols of its words in error. -/
def injSymbols (src : Nat) (d : Dev) : SymErr :=
  match (tget d.flt.sources src).inj with
  | some j => if j.mode = 0 then checkErrs j.mask else []
  | none => []

/-- An injection has been applied to one word, or has made one report. -/
def spendInjection (src : Nat) (d : Dev) : Dev :=
  { d with flt.sources := tupd d.flt.sources src fun x => { x with
      inj := match x.inj with
        | some j => if j.count ≤ 1 then none else some { j with count := j.count - 1 }
        | none => none } }

/-- A checker's report on a word: `own` is the outcome of the word as it stands and `out` the outcome delivered, which
differ only under injection. A report of a word in error itself is real, and COINCIDENT where an inversion applied. -/
def checkerReport (src inst : Nat) (own out : Outcome) (d : Dev) : Dev :=
  let armed := decide (injSymbols src d ≠ [])
  let d := if out = .clean then d
    else collect { src := src, major := decide (out = .poisoned), code := 0, inst := inst, further := 0,
                   injected := armed && decide (own = .clean), coincident := armed && decide (own ≠ .clean), detailLost := false } d
  if armed then spendInjection src d else d

/-- The words of traffic that a pending injection of mode 0 at a checker still applies to. -/
def injLeft (src : Nat) (d : Dev) : Nat :=
  match (tget d.flt.sources src).inj with
  | some j => if j.mode = 0 then j.count else 0
  | none => 0

/-- The errors with which an SRAM's word stands. -/
def sramErrs (src w : Nat) (d : Dev) : SymErr := (d.flt.sram.filter fun x => decide (x.1 = src ∧ x.2.1 = w)).flatMap fun x => x.2.2

/-- An SRAM's word is rewritten (R28). -/
def sramRewrite (src w : Nat) (d : Dev) : Dev :=
  { d with flt.sram := d.flt.sram.filter fun x => decide (x.1 ≠ src ∨ x.2.1 ≠ w) }

/-- The checker of an SRAM reads a word (R26, R28, R495), `key` being the word's number among the source's words: whether it is
delivered poisoned. A corrected word stays as it stands until its SRAM rewrites it. -/
def sramCheck (src inst key : Nat) (errs : SymErr) (d : Dev) : Bool × Dev :=
  let e := sramErrs src key d ++ errs
  let own := checkOutcome e
  let out := injectedOutcome e (injSymbols src d)
  let d := if own = .corrected ∧ errs ≠ [] then { d with flt.sram := d.flt.sram ++ [(src, key, errs)] } else d
  (decide (out = .poisoned), checkerReport src inst own out d)

/-- The words that a checker reads, `all` in order, of which some are in error: those delivered poisoned. A word without error
matters only while an injection applies to it. -/
def sramChecks (src inst base : Nat) (all : List Nat) (given : List WordErr) (d : Dev) : List Nat × Dev :=
  let ws := given ++ ((all.take (injLeft src d)).filter fun w => !(given.any fun g => decide (g.1 = w))).map fun w => (w, [])
  ws.foldl (fun (a : List Nat × Dev) w =>
    let c := sramCheck src inst (base + w.1) w.2 a.2
    (if c.1 then a.1 ++ [w.1] else a.1, c.2)) ([], d)

/-- A major report. -/
def major (src inst : Nat) (d : Dev) : Dev := report src true 0 inst d

/-- A minor report. -/
def minor (src inst : Nat) (d : Dev) : Dev := report src false 0 inst d

/-- A change that may take a lane's port down, with the port's link fault report (R159). -/
def reporting (n : Nat) (f : Dev → Dev) (d : Dev) : Dev :=
  match (if n < 128 then portOfLane n d else none) with
  | none => f d
  | some p =>
    let up := decide ((port p d).link = 3)
    let d := f d
    if up = true ∧ (port p d).link ≠ 3 then major (0x200 + 4 * (p / 8)) p d else d

end Sys2Proof.Machine
end

