-- ==== Sys2Proof/Machine/Flags.lean ====
section
/-! DEFINITION. Status registers and flags as the machine computes them from its state: each word is packed here
once, for the read commands, the register map and the mirrors alike. -/

namespace Sys2Proof.Machine

/-- DEV_ID; CAP reads 0 before trim load completes (R2, R3). -/
def devIdWord (d : Dev) : Nat :=
  fld 0x480 20 12 + fld 0xB0 12 8
    + fld (if d.boot.trimValid then (if Config.otpCapacity = .gib24 then 2 else 1) else 0) 8 4

/-- TIM_TBn_STATUS (R55); PROFILE and DOMAIN show what is in use, and read 0 while the time base is DISABLED. -/
def tbStatus (n : Nat) (d : Dev) : Nat :=
  let b := tget d.tim.tbs n
  let used := b.state ≠ 0
  fld b.state 29 3 + fld b.port 21 8 + fld (if used then b.profile else 0) 20 1 + fld (if used then b.domain else 0) 12 8

/-- The selector's active candidate is of a frequency-only kind (R60). -/
def freqOnlyKind (k : Nat) : Bool := decide (k = 4 ∨ k = 5)

/-- REF_STATUS (R71): QUAL bit n says that CANDn is qualified. -/
def refStatus (d : Dev) : Nat :=
  let r := d.tim.ref
  let fo := decide (r.active < 16) && freqOnlyKind (tget r.cands r.active).kind
  let qual := (List.range 16).foldl (fun q n => q + b2n (tget r.cands n).qual * 2 ^ n) 0
  fld r.state 29 3 + fld r.active 24 5 + fld (b2n r.manual) 23 1 + fld (b2n r.conflict) 22 1
    + fld (b2n r.aligned) 21 1 + fld (b2n fo) 20 1 + fld r.conflictRank 16 4 + qual

/-- REF_PHASE_ERR.NS: the last e, saturating at ±(2^31 - 1) (R71); a fraction of a ns is cut off toward zero (DESIGN CHOICE, log
entry 199). -/
def refPhaseErr (d : Dev) : Nat :=
  let e := d.tim.ref.e
  let n : Int := if 0 ≤ e then e.floor else -((-e).floor)
  let m : Int := 2147483647
  twos 32 (if m < n then m else if n < -m then -m else n)

/-- PLL_STATUS (R81): BYPASS and LOCK of the twelve synthesisers. -/
def pllStatus (d : Dev) : Nat :=
  (List.range 12).foldl (fun a n =>
    let s := tget d.tim.synths n
    a + b2n (s.bypass && decide (n ≠ 11)) * 2 ^ (16 + n) + b2n s.locked * 2 ^ n) 0

end Sys2Proof.Machine
end

