-- ==== Sys2Proof/Machine/Operands.lean ====
section
/-! DEFINITION. The operand forms of host commands: how a payload's fields are laid out and checked (R403), and what
a command is: its opcode, its layout, its checks and its effect. Every way a command can arrive (a mailbox, a bank, the
mirror, a salvo, a season) uses the same description. -/

namespace Sys2Proof.Machine

/-- A field of a payload: its offset, its size in bytes, and the values in range. -/
structure Fld where
  off  : Nat
  size : Nat
  ok   : Nat → Bool

/-- A field of `size` bytes at `off` that accepts `lo … hi`. -/
def rng (off size lo hi : Nat) : Fld := ⟨off, size, fun v => decide (lo ≤ v ∧ v ≤ hi)⟩
/-- A signed field that accepts `lo … hi`. -/
def srng (off size : Nat) (lo hi : Int) : Fld :=
  ⟨off, size, fun v => decide (lo ≤ signed (8 * size) v ∧ signed (8 * size) v ≤ hi)⟩
/-- A Res. field, which must be 0 (R8). -/
def res (off size : Nat) : Fld := ⟨off, size, fun v => decide (v = 0)⟩
/-- A field that accepts the listed values. -/
def oneOf (off size : Nat) (l : List Nat) : Fld := ⟨off, size, fun v => l.contains v⟩
/-- A field with a condition of its own. -/
def fok (off size : Nat) (p : Nat → Bool) : Fld := ⟨off, size, p⟩
/-- The disable word (R29): Res. bits 0 and MODE 0 or 1. -/
def disableWord : Fld := rng 0 4 0 1
/-- A time in the format of R11, with its nanoseconds in range. -/
def time96 (off : Nat) : Fld := ⟨off, 12, t96Ok⟩

/-- The offset of the first field out of range, in the order the layout lists them (R403). -/
def badField : List Fld → List Byte → Option Nat
  | [], _ => none
  | f :: fs, p => if f.ok (un f.size p f.off) then badField fs p else some f.off

/-- What a command carries: its payload, the mailbox and tag that a completion event would name (0xFF where it came
from a bank or the mirror), and HBM as it stands, for a command that reads the staging region. -/
structure Args where
  payload : List Byte
  mbx     : Nat := 0xFF
  tag     : Word := 0
  mem     : Mem := []

/-- A command's answer (R404): status, detail and response payload. -/
structure Reply where
  status  : Nat := 0
  detail  : Nat := 0
  payload : List Byte := []

/-- A host command. `len` says whether LENGTH matches the layout and `fields` lists the fields in offset order (R403).
`stageable` and `config` are R402 and R573, `unitLocal` R466, `safe` whether SAFE accepts it. `check` gives the
status and detail that refuse it in the present state; `apply` is its effect; `reply` its answer, from the states before
and after. `disables` names the functions that a disable command stops. `point` is where an unstaged command takes
effect and `commit` where a committed one does (R438). `obj` is its object (R423), and `removal` the change that takes
its object away; `sheds` says that the change removes or reduces load (R429), and `store` lists the bytes of HBM
that the command writes, by address. `ahead` is what the command does before it stops anything. -/
structure CmdSpec where
  opcode    : Nat
  len       : List Byte → Bool
  fields    : List Byte → List Fld := fun _ => []
  stageable : Bool := false
  config    : Bool := stageable
  unitLocal : Bool := false
  safe      : Bool := false
  check     : Args → Dev → Option (Nat × Nat) := fun _ _ => none
  apply     : Args → Dev → Dev := fun _ d => d
  reply     : Args → Dev → Dev → Reply := fun _ _ _ => {}
  disables  : Option (List Byte → Dev → List Func) := none
  point     : List Byte → Dev → Point := fun _ _ => .now
  commit    : List Byte → Dev → Time → Point := fun _ _ t => .strobe t
  obj       : List Byte → List Nat := fun _ => []
  removal   : List Byte → Option Change := fun _ => none
  sheds     : List Byte → Bool := fun _ => false
  ahead     : Args → Dev → Dev := fun _ d => d
  store     : Args → Dev → List (Nat × Byte) := fun _ _ => []

/-- LENGTH must be `n`. -/
def len (n : Nat) (p : List Byte) : Bool := decide (p.length = n)

/-- Refusal with a status and detail when a condition holds. -/
def refuseIf (c : Bool) (status : Nat) (detail : Nat := 0) : Option (Nat × Nat) := if c then some (status, detail) else none

/-- The first refusal of a list. -/
def firstOf : List (Option (Nat × Nat)) → Option (Nat × Nat)
  | [] => none
  | some r :: _ => some r
  | none :: l => firstOf l

end Sys2Proof.Machine
end

