-- ==== Sys2Proof/Machine/Time.lean ====
section
/-! DEFINITION. Chapter 2: house time, PTP time bases, the reference selector, PULSE_OUT and the synthesisers; the
commands of family 0x0A and the events of this chapter. -/

namespace Sys2Proof.Machine

/-! ### Small setters -/

def updTb (n : Nat) (f : TimeBase → TimeBase) (d : Dev) : Dev := { d with tim.tbs := tupd d.tim.tbs n f }
def updCand (n : Nat) (f : Cand → Cand) (d : Dev) : Dev := { d with tim.ref.cands := tupd d.tim.ref.cands n f }
def updRef (f : Ref → Ref) (d : Dev) : Dev := { d with tim.ref := f d.tim.ref }
def updPulse (n : Nat) (f : Pulse → Pulse) (d : Dev) : Dev := { d with tim.pulses := tupd d.tim.pulses n f }
def updSynth (n : Nat) (f : Synth → Synth) (d : Dev) : Dev := { d with tim.synths := tupd d.tim.synths n f }
def cand (n : Nat) (d : Dev) : Cand := tget d.tim.ref.cands n

/-- The selector runs: from READY onward (R512). -/
def selectorRuns (d : Dev) : Bool := decide (READY ≤ d.mode)

/-! ### Candidates (R56 to R60) -/

/-- The candidate carries time of day: kinds 0x1 and 0x6 (R56). -/
def carriesTod (c : Cand) : Bool := decide (c.kind = 1 ∨ c.kind = 6)

/-- The candidate's phase offset in ns (R56). -/
def candOffset (c : Cand) : Time := (c.offNs : Rat) + (c.offFrac : Rat) / 65536

/-- The candidate's measured frequency in ppb. -/
def candFreq (c : Cand) : Time := c.freq.getD 0

/-- The time of a reference whose phase is tracked (R58): as last measured, carried on at its measured frequency, which is
relative to XTAL (R57). -/
def trackedTime (c : Cand) (r : Time) (d : Dev) : Time := r + (d.up - c.phaseAt) * (1 + candFreq c / 1000000000)

/-- The candidate's phase error e (R60, R457); 0 for the frequency-only kinds (R69). -/
def candE (c : Cand) (d : Dev) : Time :=
  if c.kind = 1 then (tget d.tim.tbs c.source).time + candOffset c - d.house
  else if freqOnlyKind c.kind then 0
  else match c.phase with
    | some r =>
      let e := trackedTime c r d + candOffset c - d.house
      if c.kind = 6 then e else wrapHalf e ((c.frameN : Rat) / (c.frameD : Rat))
    | none => 0

/-- The measured frequency lies within the entry's window of nominal (R57). -/
def inWindow (c : Cand) (ppb : Time) (d : Dev) : Bool :=
  decide (absQ (ppb - (d.tim.ref.nominal : Rat) / 1000) ≤ (c.window : Rat) * 1000)

/-- An SDI receiver's lock, for a candidate of kind 0x3 (R56). -/
def sdiPresent (c : Cand) (d : Dev) : Bool :=
  let r := tget d.sdiRx c.source
  decide (r.state = 3) && decide (framePeriod r.format * (c.frameD : Rat) = (c.frameN : Rat))

/-- What the state says of a candidate's presence, for the kinds whose source is inside the device (R56, R457). -/
def presenceHeld (c : Cand) (d : Dev) : Bool :=
  if c.kind = 1 then decide ((tget d.tim.tbs c.source).state = 3)
  else if c.kind = 3 then sdiPresent c d
  else if c.kind = 6 then (decide (d.twn.link = 2 ∨ d.twn.link = 3)) && decide (d.twn.partnerRef = 1)
  else c.present

/-! ### PULSE_OUT (R72 to R76) -/

/-- A program's time reference follows house time: house time itself, or a source time base (R48, R72). -/
def onHouse (ref : Nat) (d : Dev) : Bool := decide (ref = 0 ∨ (tget d.tim.tbs (ref - 1)).role = 1)

/-- The time of a time base: a source's is house time (R48). -/
def tbTime (n : Nat) (d : Dev) : Time :=
  let b := tget d.tim.tbs n
  if b.role = 1 ∧ b.state ≠ 0 then d.house else b.time

/-- The time of a program's reference. -/
def refTime (ref : Nat) (d : Dev) : Time := if onHouse ref d then d.house else (tget d.tim.tbs (ref - 1)).time

/-- The exact time of edge `k` (R72). -/
def edgeTime (p : Prog) (k : Nat) : Time := p.start + (k : Rat) * ((p.periodN : Rat) / (p.periodD : Rat))

/-- The index of the first edge at or after a time; a single pulse has only edge 0. -/
def firstEdge (p : Prog) (t : Time) : Nat :=
  if p.periodN = 0 then 0 else indexAtOrAfter t p.start ((p.periodN : Rat) / (p.periodD : Rat))

/-- The times of the references that `on` names have stepped: each pin that uses one goes on with its first edge at or after
the new time (R72). -/
def pulsesStepped (on : Nat → Bool) (d : Dev) : Dev :=
  { d with tim.pulses := tmap d.tim.pulses fun _ p => match p.prog with
    | some g => if on g.ref ∧ g.periodN ≠ 0 then { p with k := max g.first (firstEdge g (refTime g.ref d)) } else p
    | none => p }

/-! ### Selection (R61 to R68) -/

/-- Two candidates disagree: their frequencies differ by more than the threshold (R63). -/
def disagrees (a b : Cand) (d : Dev) : Bool := decide ((d.tim.ref.disagree : Rat) < absQ (candFreq a - candFreq b))

/-- The qualified entries of a rank, in ascending order. The partner kind takes no part (R457). -/
def qualOfRank (k : Nat) (d : Dev) : List Nat :=
  (List.range 16).filter fun n => let c := cand n d; c.qual && decide (c.rank = k) && decide (c.kind ≠ 6)

/-- Some pair of these entries disagrees (R63). -/
def anyDisagree (l : List Nat) (d : Dev) : Bool := l.any fun a => l.any fun b => disagrees (cand a d) (cand b d) d

/-- The partner candidate is to be made active: in SHADOW, and on the unit that is to become the shadow, from step 1
of its pairing until step 6 (R457). -/
def followsPartner (d : Dev) : Bool :=
  decide (roleMode d = SHADOW) || (d.twn.isShadow && decide (1 ≤ d.twn.step ∧ d.twn.step < 6))

/-- The automatic choice over ranks `k, k+1, …` (R61 to R64): the entry, and the rank in conflict if the active entry
is kept in spite of a disagreement. The fuel is the number of ranks left. -/
def chooseRank : Nat → Nat → Dev → Option Nat × Option Nat
  | 0, _, _ => (none, none)
  | f + 1, k, d =>
    let l := qualOfRank k d
    if l = [] then chooseRank f (k + 1) d
    else if anyDisagree l d then
      (if l.contains d.tim.ref.active then (some d.tim.ref.active, some k) else chooseRank f (k + 1) d)
    else if l.contains d.tim.ref.active then (some d.tim.ref.active, none)
    else (l.head?, none)

/-- The selector's choice: the partner where R457 says so, the manual selection while it is qualified (R65), the active
entry with REVERT 0 (R62), else the automatic choice. A rank in which candidates disagree is in conflict when one of them is
active and kept, for whatever reason it is kept (R63). -/
def choose (d : Dev) : Option Nat × Option Nat :=
  let r := d.tim.ref
  let partner := (List.range 16).find? fun n => let c := cand n d; c.qual && decide (c.kind = 6 ∧ c.rank ≠ 0)
  if followsPartner d ∧ partner ≠ none then (partner, none)
  else
    let held := decide (r.active < 16) && (cand r.active d).qual && decide ((cand r.active d).kind ≠ 6)
    if held ∧ (r.manual ∨ !r.revert) then
      let k := (cand r.active d).rank
      (some r.active, if anyDisagree (qualOfRank k d) d then some k else none)
    else chooseRank 15 1 d

/-- House time and the NCO step to an entry (R68, R575): to its time of day with its frequency, or by e alone. ALIGNED
becomes 1, the state LOCKED, e 0. The step fails the Almanac entries of R437. -/
def alignTo (n : Nat) (d : Dev) : Dev :=
  let c := cand n d
  let e := candE c d
  let base := candFreq c * 1000
  let d := if carriesTod c then
      updRef (fun r => { r with ppt := roundAway (clampQ base (-100000000) 100000000), f := 0, base := base }) d
    else updRef (fun r => { r with f := ((r.ppt : Rat) - base) / 1000, base := base }) d
  let d := updRef (fun r => { r with active := n, aligned := true, state := 1, e := 0, nearSince := some d.up }) d
  let d := { d with house := cut64 (d.house + e), twn.theta := if c.kind = 6 then 0 else d.twn.theta }
  pulsesStepped (onHouse · d) (houseStepped d)

/-- An entry becomes active (R66, R68, R71): the slew law goes on from the frequency that the house has. A manual selection made
before the initial selection window ends slews, and the alignment waits for the window's end (DESIGN CHOICE, log entry 200). -/
def activate (n : Nat) (d : Dev) : Dev :=
  let c := cand n d
  let base := candFreq c * 1000
  if d.tim.ref.state = 0 ∧ d.tim.ref.initDone then
    (if freqOnlyKind c.kind then
      updRef (fun r => { r with active := n, ppt := roundAway (clampQ base (-100000000) 100000000), f := 0,
                                base := base, e := 0, nearSince := none }) d
     else alignTo n d)
  else
    updRef (fun r => { r with active := n, f := ((r.ppt : Rat) - base) / 1000, base := base, nearSince := none,
                              state := if r.aligned then 2 else r.state }) d

/-- The rank shown in conflict has been free of disagreement since an instant (R63). -/
def noteAgreement (d : Dev) : Dev :=
  updRef (fun r => { r with agreeSince :=
    if !r.conflict ∨ anyDisagree (qualOfRank r.conflictRank d) d then none else startTimer r.agreeSince d.up }) d

/-- Selection runs (R61 to R68): nothing is taken in UNALIGNED before the initial window ends. A manual selection that
is lost falls back with event 0x0401 (R65). Where every rank with a qualified candidate is in conflict and none of them is active,
there is no choice, and the selector does as with no candidate qualified (R67; DESIGN CHOICE, log entry 201). -/
def select (d : Dev) : Dev :=
  let r := d.tim.ref
  let wasManual := r.manual && !(decide (r.active < 16) && (cand r.active d).qual)
  let lost := r.active
  let d := if wasManual then updRef (fun r => { r with manual := false }) d else d
  let ch := if r.state = 0 ∧ !r.initDone ∧ !d.tim.ref.manual then (none, none) else choose d
  let d := match ch.2 with
    | some k =>
      let d := if d.tim.ref.conflict ∧ d.tim.ref.conflictRank = k then d else major 0x024 k d
      updRef (fun r => { r with conflict := true, conflictRank := k }) d
    | none => d
  let d := noteAgreement d
  let d := match ch.1 with
    | some n =>
      let waits := decide (d.tim.ref.state = 0) && d.tim.ref.initDone && !freqOnlyKind (cand n d).kind
      if n = d.tim.ref.active ∧ !waits then d else activate n d
    | none =>
      if d.tim.ref.active = 0x1F then d
      else updRef (fun r => { r with active := 0x1F, nearSince := none, state := if r.aligned then 3 else r.state }) d
  if wasManual then postEvent 0x0401 lost (le 1 d.tim.ref.active) d else d

/-- A candidate is lost (R56 to R59): it is no longer qualified, its hold-off starts from zero, and selection runs. -/
def loseCand (n : Nat) (keepPresence : Bool) (d : Dev) : Dev :=
  select (updCand n (fun c => { c with qual := false, since := none, present := keepPresence && c.present,
                                       phase := none, glitches := [] }) d)

/-- Every entry of a kind and source is lost. -/
def loseSource (kind source : Nat) (d : Dev) : Dev :=
  (List.range 16).foldl (fun d n =>
    let c := cand n d
    if c.rank ≠ 0 ∧ c.kind = kind ∧ c.source = source ∧ (c.present ∨ c.qual) then loseCand n false d else d) d

/-- A phase measurement departs from the candidate's tracked phase by more than the glitch threshold (R58), modulo the
frame period for the kinds that carry frame phase. -/
def isGlitch (n : Nat) (r : Time) (d : Dev) : Bool :=
  let c := cand n d
  match c.phase with
  | some q =>
    let off := r - trackedTime c q d
    let off := if carriesTod c then off else wrapHalf off ((c.frameN : Rat) / (c.frameD : Rat))
    decide ((d.tim.ref.glitch : Rat) < absQ off)
  | none => false

/-- Candidates whose source inside the device is no longer present are lost (R56, R57). -/
def dropAbsent (d : Dev) : Dev :=
  if !selectorRuns d then d
  else (List.range 16).foldl (fun d n =>
    let c := cand n d
    if c.rank ≠ 0 ∧ (c.present ∨ c.qual) ∧ !presenceHeld c d then loseCand n false d else d) d

/-- A phase measurement of a candidate, as the reference's time now (R58): a glitch is counted and discarded, and the third
within 1 s loses the candidate. -/
def measurePhase (n : Nat) (r : Time) (d : Dev) : Dev :=
  let c := cand n d
  if isGlitch n r d then
    let g := (c.glitches.filter fun t => decide (d.up < t + sec)) ++ [d.up]
    let d := updCand n (fun c => { c with glitches := g, glitchCount := c.glitchCount + 1 }) d
    if 3 ≤ g.length then loseCand n true d else d
  else updCand n (fun c => { c with phase := some r, phaseAt := d.up }) d

/-- The entry in use that names a source. -/
def candOf (kind source : Nat) (d : Dev) : Option Nat :=
  (List.range 16).find? fun n => decide ((cand n d).rank ≠ 0 ∧ (cand n d).kind = kind ∧ (cand n d).source = source)

/-! ### PULSE_OUT pins that stop -/

/-- The pin is driven inactive and its program ends. -/
def stopPulse (pin : Nat) (d : Dev) : Dev :=
  updPulse pin (fun p => { p with prog := none, next := none, high := false, ending := none }) d

/-- A follower that enters FAULT or DISABLED stops the pins that use it at the end of the current pulse (R75); as its time may
stand still from then on, what is left of the pulse is counted on `up`. -/
def stopPulsesOf (tb : Nat) (d : Dev) : Dev :=
  (List.range 16).foldl (fun d n =>
    let p := tget d.tim.pulses n
    match p.prog with
    | some g =>
      let left := p.lastEdge + (g.width : Rat) - refTime g.ref d
      if g.ref ≠ tb + 1 then d
      else if p.high then updPulse n (fun p => { p with ending := some (d.up + max 0 left) }) d
      else stopPulse n d
    | none => d) d

/-! ### Time bases (R47 to R55) -/

/-- A follower enters FAULT (R52, R53): it holds its rate, ceases to be a candidate and raises its source. -/
def tbFault (n : Nat) (d : Dev) : Dev :=
  stopPulsesOf n (major (0x020 + n) n (loseSource 1 n
    (updTb n (fun b => { b with state := 5, faultRun := 0, lockRun := 0 }) d)))

/-- A time base stops (R52, R75, R82). -/
def tbStop (n : Nat) (d : Dev) : Dev :=
  stopPulsesOf n (loseSource 1 n
    (updTb n (fun b => { b with state := 0, port := 0xFF, offsets := [], lockRun := 0, faultRun := 0, masters := [], gm := none,
                                delay := none, syncWait := none, diff := none, asked := [], pWait := [], owed := [] }) d))

/-- The time base that carries PTP on a port (R49). -/
def tbOfPort (port : Nat) (d : Dev) : Option Nat :=
  (List.range 4).find? fun n => let b := tget d.tim.tbs n; decide (b.state ≠ 0) && b.ports.contains port

/-- 2^k seconds. -/
def logInterval (k : Int) : Time := if 0 ≤ k then sec * (2 : Rat) ^ k.toNat else sec / (2 : Rat) ^ (-k).toNat

/-- The first list of numbers is the lower in the dataset comparison order. -/
def lexLt : List Nat → List Nat → Bool
  | _, [] => false
  | [], _ => true
  | a :: as, b :: bs => if a = b then lexLt as bs else decide (a < b)

/-- The servo of a follower takes a complete offset measurement (R51 to R53). -/
def servo (n : Nat) (off : Time) (d : Dev) : Dev :=
  let b := tget d.tim.tbs n
  let d := updTb n (fun b => { b with offset := off }) d
  if b.state = 2 ∧ b.offsets.length < 4 then
    let o := b.offsets ++ [off]
    if o.length < 4 then updTb n (fun b => { b with offsets := o }) d
    else pulsesStepped (decide <| · = n + 1)
      (updTb n (fun b => { b with offsets := o, time := b.time - o.foldl (· + ·) 0 / 4, lockRun := 0, faultRun := 0 }) d)
  else if b.state = 4 then
    (if absQ off ≤ (b.stepNs : Rat) then updTb n (fun b => { b with state := 3, lockRun := 0, faultRun := 0 }) d
     else tbFault n d)
  else if b.state = 2 ∨ b.state = 3 then
    -- R58: the measurement is the candidate's phase measurement too; a glitch goes no further than the runs of R52.
    let now := b.time - off
    let e := if b.state = 3 then candOf 1 n d else none
    let glitch := match e with
      | some k => isGlitch k now d
      | none => false
    let d := match e with
      | some k => measurePhase k now d
      | none => d
    let rate := if glitch then b.rate else clampQ (Config.servoRate b.bw off b.rate : Rat) (-100000) 100000
    let fr := if (b.stepNs : Rat) < absQ off then b.faultRun + 1 else 0
    let lr := if absQ off < 100 then b.lockRun + 1 else 0
    let d := updTb n (fun b => { b with rate := rate, faultRun := fr, lockRun := lr,
                                        state := if 16 ≤ lr then 3 else b.state }) d
    if 8 ≤ fr then tbFault n d else d
  else d

/-- The best of the masters heard (R48). -/
def bestMaster : List PtpMaster → Option PtpMaster
  | [] => none
  | m :: l => match bestMaster l with
    | some k => if lexLt k.data m.data then some k else some m
    | none => some m

/-- The masters that a time base still hears: those with an Announce within the receipt timeout (R48, R53). -/
def heardMasters (b : TimeBase) (now : Time) : List PtpMaster :=
  b.masters.filter fun m => decide (now < m.since + (b.timeout : Rat) * logInterval b.logAnn)

/-- A follower's port hears an Announce (R48): the default best-master-clock algorithm chooses among the masters heard, and the
port of the best is the one in SLAVE state. A change of master keeps the servo's state, which corrects by rate only (R51); a
change of port needs a new path delay. -/
def announce (n port ident : Nat) (ds : List Nat) (d : Dev) : Dev :=
  let b := tget d.tim.tbs n
  if b.role ≠ 0 then d
  else
    let l := (heardMasters b d.up).filter (fun m => decide (¬ (m.port = port ∧ m.ident = ident))) ++ [⟨port, ident, ds, d.up⟩]
    match bestMaster l with
    | none => d
    | some m =>
      let same := decide (b.port = m.port ∧ b.gm = some m.ident)
      updTb n (fun b => { b with
        masters := l, port := m.port, gm := some m.ident,
        delay := if b.port = m.port then b.delay else none,
        syncWait := if same then b.syncWait else none, diff := if same then b.diff else none,
        state := if b.state = 1 then 2 else b.state,
        lastSync := if same then b.lastSync else d.up }) d

/-- A follower has measured how long a Sync of its master took (R50, R51): with the path delay known the measurement of the offset
is complete. -/
def syncMeasured (n : Nat) (diff : Time) (d : Dev) : Dev :=
  let d := updTb n (fun b => { b with diff := some diff }) d
  match (tget d.tim.tbs n).delay with
  | some del => servo n (diff - del) d
  | none => d

/-- A path delay is measured on a port (R50): the port's asymmetry is subtracted from it. -/
def delayMeasured (n port : Nat) (del : Time) (d : Dev) : Dev :=
  updTb n (fun b => if b.port = port then { b with delay := some (del - ((tget d.tim.asym port : Int) : Rat)) } else b) d

/-- The identity of a port of a time base in the requests that it sends. -/
def portIdent (n port : Nat) : Nat := 128 * n + port

/-- A follower hears a message of its master, or the answer to a request of its own (R50, R51, R53). -/
def followerReceive (n port : Nat) (m : PtpMsg) (arrival : Time) (d : Dev) : Dev :=
  let b := tget d.tim.tbs n
  let mine := decide (b.port = port ∧ b.gm = some m.source)
  let answers (r : Nat) : Option Time := match tget b.asked port with
    | some (s, t) => if s = m.seq ∧ r = portIdent n port then some t else none
    | none => none
  match m.body with
  | .announce ds => announce n port m.source ds d
  | .sync origin =>
    if !mine then d
    else
      let d := updTb n (fun b => { b with lastSync := d.up }) d
      if m.twoStep then updTb n (fun b => { b with syncWait := some (m.seq, arrival, m.correction) }) d
      else syncMeasured n (arrival - origin - m.correction) d
  | .followUp origin => match b.syncWait with
    | some (s, t, c) =>
      if mine ∧ s = m.seq then syncMeasured n (t - origin - c - m.correction) (updTb n (fun b => { b with syncWait := none }) d)
      else d
    | none => d
  | .delayResp receipt r => match answers r, b.diff with
    | some t3, some diff =>
      if mine ∧ b.mech = 0 then
        delayMeasured n port ((diff + (receipt - m.correction - t3)) / 2)
          (updTb n (fun b => { b with asked := tset b.asked port none }) d)
      else d
    | _, _ => d
  | _ => d

/-- The peer-delay exchange of a port (R47, R50), whatever the role. -/
def peerReceive (n port : Nat) (m : PtpMsg) (arrival : Time) (d : Dev) : Dev :=
  let b := tget d.tim.tbs n
  let answers (r : Nat) : Option Time := match tget b.asked port with
    | some (s, t) => if s = m.seq ∧ r = portIdent n port then some t else none
    | none => none
  match m.body with
  | .pdelayReq =>
    updTb n (fun b => { b with owed := b.owed ++ [⟨port, .pdelayResp, m.seq, m.source, m.correction, m.unicast, arrival⟩] }) d
  | .pdelayResp receipt r => match answers r with
    | some t1 =>
      if m.twoStep then updTb n (fun b => { b with pWait := tset b.pWait port (some (m.seq, arrival - t1 + receipt - m.correction)) }) d
      else delayMeasured n port ((arrival - t1 - m.correction) / 2) (updTb n (fun b => { b with asked := tset b.asked port none }) d)
    | none => d
  | .pdelayFollowUp origin r => match answers r, tget b.pWait port with
    | some _, some (s, x) =>
      if s = m.seq then
        delayMeasured n port ((x - origin - m.correction) / 2)
          (updTb n (fun b => { b with asked := tset b.asked port none, pWait := tset b.pWait port none }) d)
      else d
    | _, _ => d
  | _ => d

/-- A message of the peer-delay exchange. -/
def peerBody : PtpBody → Bool
  | .pdelayReq => true
  | .pdelayResp _ _ => true
  | .pdelayFollowUp _ _ => true
  | _ => false

/-- PTP_MESSAGE_RECEIVE (R47 to R53): a message of the port's time base, in its domain, is stamped (R46, R50) and processed; not
while Perby restarts (R54). -/
def ptpReceive (port : Nat) (m : PtpMsg) (d : Dev) : Dev :=
  if d.host.restarting then d
  else match tbOfPort port d with
  | none => d
  | some n =>
    let b := tget d.tim.tbs n
    let t := stamped m.arrival d
    if m.domain ≠ b.domain then d
    else if b.mech = 1 ∧ peerBody m.body then peerReceive n port m t d
    else if b.role = 0 then followerReceive n port m t d
    else if m.body = .delayReq ∧ b.mech = 0 then
      updTb n (fun b => { b with owed := b.owed ++ [⟨port, .delayResp, m.seq, m.source, m.correction, m.unicast, t⟩] }) d
    else d

/-- The number of a message kind, and its interval on a time base. -/
def ptpKindNo : PtpKind → Nat
  | .announce => 0 | .sync => 1 | .delayReq => 2 | .delayResp => 3 | .pdelayReq => 4 | .pdelayResp => 5

/-- The oldest answer of a kind that a port owes. -/
def ptpOwes (b : TimeBase) (port : Nat) (k : PtpKind) : Option PtpOwed :=
  b.owed.find? fun x => decide (x.port = port ∧ x.kind = k)

/-- Whether a message of a kind falls due on a port (R50, R55): a source sends Announce and Sync at their intervals, a
follower delay requests, and a port answers the requests it has received. -/
def ptpDue (b : TimeBase) (port : Nat) (k : PtpKind) (d : Dev) : Bool :=
  let since (i : Time) := decide (tget b.sentAt (port * 8 + ptpKindNo k) + i ≤ d.up)
  match k with
  | .announce => decide (b.role = 1) && since (logInterval b.logAnn)
  | .sync => decide (b.role = 1) && since (logInterval b.logSync)
  | .delayReq => decide (b.role = 0 ∧ b.mech = 0 ∧ b.port = port) && since (logInterval b.logDelay)
  | .pdelayReq => decide (b.mech = 1) && since (logInterval b.logDelay)
  | _ => (ptpOwes b port k).isSome

/-- A PTP message's length over UDP and IPv4 with FCS: IEEE 1588 gives Announce 64 bytes, the delay responses and
Pdelay_Req 54, Sync and Delay_Req 44 (log entry 14). -/
def ptpLen : PtpKind → Nat
  | .announce => 64 + 46
  | .sync => 44 + 46
  | .delayReq => 44 + 46
  | _ => 54 + 46

/-- The clockClass that a source advertises in a selector state (R55). -/
def classFor (b : TimeBase) (state : Nat) : Nat :=
  if state = 1 then b.classL else if state = 2 ∨ state = 3 then b.classS else b.classF

/-- The message of a kind that a port sends (R50, R55). The timestamp of a Sync and the correction of a Pdelay_Resp are rewritten
as the frame departs, and its UDP checksum is zero; a Delay_Resp carries the request's receive stamp. -/
def ptpMessage (n port : Nat) (k : PtpKind) (d : Dev) : PtpOut :=
  let b := tget d.tim.tbs n
  let m : PtpOut := { tb := n, port := port, kind := k, domain := b.domain, seq := tget b.sent (port * 8 + ptpKindNo k) % 65536,
                      interval := b.logDelay }
  match k with
  | .announce => { m with interval := b.logAnn, prio1 := b.prio1, clockClass := classFor b d.tim.ref.state, prio2 := b.prio2 }
  | .sync => { m with interval := b.logSync, zeroSum := true }
  | .delayReq => m
  | .pdelayReq => m
  | _ => match ptpOwes b port k with
    | some r => { m with seq := r.seq, unicast := r.unicast, stamp := r.stamp, correction := r.correction, requester := r.requester,
                         zeroSum := decide (k = .pdelayResp) }
    | none => m

/-- PTP_MESSAGE_TRANSMIT (R50, R54, R166): a due message is offered to TQ7. -/
def ptpTransmit (port : Nat) (k : PtpKind) (d : Dev) : Dev :=
  match tbOfPort port d with
  | none => d
  | some n =>
    if blocksRun d && perbyServes d && ptpDue (tget d.tim.tbs n) port k d then
      offer port 7 { len := ptpLen k, ptp := some (ptpMessage n port k d) } (updTb n (fun b => { b with
        sent := tupd b.sent (port * 8 + ptpKindNo k) (· + 1),
        sentAt := tset b.sentAt (port * 8 + ptpKindNo k) d.up,
        owed := match ptpOwes b port k with
          | some r => b.owed.erase r
          | none => b.owed }) d)
    else d

/-- A PTP message departs at its time base's time `t` at the reference plane (R50, R547): a Sync takes it as its origin, a
Pdelay_Resp adds its turnaround to its correction, and the time of a request is kept for the answer. -/
def ptpDeparts (m : PtpOut) (t : Time) (d : Dev) : PtpOut × Dev :=
  match m.kind with
  | .sync => ({ m with stamp := t }, d)
  | .pdelayResp => ({ m with correction := m.correction + (t - m.stamp), stamp := 0 }, d)
  | .delayReq => (m, updTb m.tb (fun b => { b with asked := tset b.asked m.port (some (m.seq, t)) }) d)
  | .pdelayReq => (m, updTb m.tb (fun b => { b with asked := tset b.asked m.port (some (m.seq, t)), pWait := tset b.pWait m.port none }) d)
  | _ => (m, d)

/-- A follower enters HOLD (R53) and leaves LOCKED. TIM_TBn_STATUS.PORT keeps the port, also on announce receipt timeout (DESIGN
CHOICE, log entry 202). -/
def tbHold (n : Nat) (d : Dev) : Dev :=
  loseSource 1 n (updTb n (fun b => { b with state := 4, lockRun := 0 }) d)

/-! ### The slew law (R69) -/

/-- The target of the slew law for a phase error, a frequency and the limits (R69). -/
def slewTarget (e f s a : Rat) : Rat :=
  let stop := f * f / (2 * a)
  if signQ f = signQ e ∧ absQ e ≤ stop then 0
  else signQ e * (if s < absQ e then s else absQ e)

/-- NCO_UPDATE (R67, R69, R71): f moves toward its target at the frequency-slew limit, and REF_NCO.PPT is the candidate
offset plus f, limited to ±100 ppm and rounded to the nearest ppt. -/
def ncoUpdate (d : Dev) : Dev :=
  let d := dropAbsent d
  let r := d.tim.ref
  let a : Rat := (r.slew : Rat) / 1000
  let act := decide (r.active < 16)
  let c := cand r.active d
  let base := if act then candFreq c * 1000 else r.base
  let e := if act then candE c d else 0
  let target := if act then slewTarget e r.f (r.slope : Rat) a else ((r.nominal : Rat) - base) / 1000
  let f := r.f + clampQ (target - r.f) (-(a / 1000)) (a / 1000)
  let ppt := roundAway (clampQ (base + 1000 * f) (-100000000) 100000000)
  let near := absQ e ≤ 10
  let st := if act ∧ r.state = 1 ∧ 1000 < absQ e then 2
    else if !act ∧ (r.state = 3 ∨ r.state = 4) then (if ppt = r.nominal then 4 else 3)
    else r.state
  updRef (fun r => { r with
    f := f, base := base, e := if act then e else r.e, ppt := ppt, state := st, lastNco := d.house,
    nearSince := if act ∧ near then startTimer r.nearSince d.up else none }) d

/-! ### Commands of family 0x0A (R82, R83) -/

/-- The ports that a 16-byte bitmap names. -/
def portBits (p : List Byte) (off : Nat) : List Nat := (List.range 128).filter fun i => bitOf (un 16 p off) i

/-- A disabled time base starts in its role (R48, R51). -/
def tbStart (n : Nat) (d : Dev) : Dev :=
  updTb n (fun b => if b.state ≠ 0 then b
    else if b.role = 1 then { b with state := 6 }
    else { b with state := 1, lastSync := d.up, faultRun := 0, lockRun := 0 }) d

def cmdTimTbConfig : CmdSpec where
  opcode := 0x0A01
  len := len 40
  unitLocal := true
  fields _ := [rng 0 1 0 3, rng 1 1 0 1, rng 2 1 0 1, rng 3 1 0 127, srng 4 1 (-7) 1, srng 5 1 (-3) 3, srng 6 1 (-7) 5,
    rng 7 1 3 10, rng 8 1 0 1, res 11 1, res 15 1, rng 16 4 1000 1000000000, rng 20 2 10 1000, res 22 2,
    fok 24 16 fun v => decide (((List.range 128).filter fun i => bitOf v i).length ≤ 16)]
  stageable := true
  obj p := [u8 p 0]
  -- R49: each port carries PTP for at most one time base; the code is a choice (log entry 203).
  check a d := firstOf [
    refuseIf ((portBits a.payload 24).any fun q => !portExists q d) 0x0010, refuseIf ((List.range 4).any fun n => decide (n ≠ u8 a.payload 0) &&
    (portBits a.payload 24).any fun q => (tget d.tim.tbs n).ports.contains q) 0x0006]
  -- An enabled time base takes every field at once; one whose role changes starts in its new role (log entry 204).
  apply a d :=
    let p := a.payload
    let n := u8 p 0
    let turns := decide ((tget d.tim.tbs n).state ≠ 0 ∧ (tget d.tim.tbs n).role ≠ u8 p 1)
    (fun d => if turns then tbStart n d else d) <| updTb n (fun b => { b with
      role := u8 p 1, profile := u8 p 2, domain := u8 p 3, logSync := signed 8 (u8 p 4), logAnn := signed 8 (u8 p 5),
      logDelay := signed 8 (u8 p 6), timeout := u8 p 7, mech := u8 p 8, prio1 := u8 p 9, prio2 := u8 p 10,
      classL := u8 p 12, classS := u8 p 13, classF := u8 p 14, stepNs := u32 p 16, bw := u16 p 20,
      ports := portBits p 24 }) (if turns then tbStop n d else d)

def cmdTimTbEnable : CmdSpec where
  opcode := 0x0A02
  len := len 4
  unitLocal := true
  fields _ := [rng 0 1 0 3, res 1 3]
  stageable := true
  obj p := [u8 p 0]
  removal p := some ⟨0x0A03, le 4 0 ++ le 1 (u8 p 0) ++ le 3 0⟩
  check a d := refuseIf (drainOf (.timeBase (u8 a.payload 0)) d).isSome 0x0002
  apply a d := tbStart (u8 a.payload 0) d

def cmdTimTbDisable : CmdSpec where
  opcode := 0x0A03
  len := len 8
  unitLocal := true
  fields _ := [disableWord, rng 4 1 0 3, res 5 3]
  stageable := true
  obj p := [u8 p 4]
  sheds _ := true
  disables := some fun p _ => [.timeBase (u8 p 4)]

def cmdTimRestep : CmdSpec where
  opcode := 0x0A04
  len := len 4
  unitLocal := true
  fields _ := [rng 0 1 0 3, res 1 3]
  check a d := let b := tget d.tim.tbs (u8 a.payload 0); refuseIf (decide (b.role ≠ 0 ∨ b.state = 0)) 0x0011
  apply a d :=
    let n := u8 a.payload 0
    loseSource 1 n (updTb n (fun b => { b with state := 2, offsets := [], lockRun := 0, faultRun := 0 }) d)

def cmdTimRead : CmdSpec where
  opcode := 0x0A05
  len := len 0
  unitLocal := true
  safe := true
  reply _ _ d :=
    let times := (List.range 4).foldl (fun l n => l ++ le 12 (t96 (tbTime n d)) ++ le 4 0) []
    let words := (List.range 4).foldl (fun l n => l ++ le 4 (tbStatus n d)) []
    { payload := le 12 (t96 d.house) ++ le 4 0 ++ times ++ words }

def cmdTimPortAsymmetry : CmdSpec where
  opcode := 0x0A06
  len := len 8
  unitLocal := true
  fields _ := [rng 0 1 0 127, res 1 3]
  stageable := true
  obj p := [u8 p 0]
  check a d := refuseIf (!portExists (u8 a.payload 0) d) 0x0010
  apply a d := { d with tim.asym := tset d.tim.asym (u8 a.payload 0) (i32 a.payload 4) }

/-- SOURCE of REF_CAND_CONFIG in range for its kind (R82). -/
def candSourceOk (kind v : Nat) : Bool :=
  if kind = 1 then decide (v ≤ 3) else if kind = 2 ∨ kind = 4 then decide (v ≤ 1)
  else if kind = 3 then decide (v ≤ 191) else decide (v = 0)

/-- The lane lies on an SDI octet, for a candidate of kind 0x3 (R83). -/
def onSdiOctet (n : Nat) (d : Dev) : Bool := decide (n < 192 ∧ (tget d.octets (octetOf n)).mode = 0)

def cmdRefCandConfig : CmdSpec where
  opcode := 0x0A10
  len := len 24
  unitLocal := true
  fields p := [rng 0 1 0 15, rng 1 1 1 6, fok 2 1 (candSourceOk (u8 p 1)), rng 3 1 0 15,
    fok 4 4 fun v => if u8 p 1 = 2 ∨ u8 p 1 = 3 ∨ u8 p 1 = 5 then decide (v ≠ 0) else decide (v = 0),
    rng 8 2 1 65535, res 10 2, rng 18 2 1 100, rng 20 2 100 60000, res 22 2]
  stageable := true
  obj p := [u8 p 0]
  removal p := some ⟨0x0A10, p.take 3 ++ le 1 0 ++ p.drop 4⟩
  sheds p := decide (u8 p 3 = 0)
  check a d :=
    let p := a.payload
    let used := (List.range 16).any fun n => decide (n ≠ u8 p 0) && decide ((cand n d).rank ≠ 0)
      && decide ((cand n d).kind = u8 p 1 ∧ (cand n d).source = u8 p 2)
    refuseIf (decide (u8 p 3 ≠ 0) && (used
      || (decide (u8 p 1 = 1) && decide ((tget d.tim.tbs (u8 p 2)).role = 1))
      || (decide (u8 p 1 = 3) && !onSdiOctet (u8 p 2) d))) 0x0010
  apply a d :=
    let p := a.payload
    let n := u8 p 0
    let c := cand n d
    if u8 p 3 = 0 then select (updCand n (fun _ => default) d)
    else
      let keep := decide (c.rank ≠ 0 ∧ c.kind = u8 p 1 ∧ c.source = u8 p 2 ∧ c.frameN = u32 p 4 ∧ c.frameD = u16 p 8
        ∧ c.window = u16 p 18)
      let old : Cand := if keep then c else {}
      select (updCand n (fun _ => { old with
        kind := u8 p 1, source := u8 p 2, rank := u8 p 3, frameN := u32 p 4, frameD := u16 p 8, offNs := i32 p 12,
        offFrac := u16 p 16, window := u16 p 18, holdoff := u16 p 20 }) d)

def cmdRefSelectManual : CmdSpec where
  opcode := 0x0A11
  len := len 4
  unitLocal := true
  fields _ := [rng 0 1 0 15, res 1 3]
  check a d :=
    let c := cand (u8 a.payload 0) d
    firstOf [refuseIf (decide (c.rank ≠ 0 ∧ c.kind = 6)) 0x0010, refuseIf (!c.qual) 0x0013]
  apply a d :=
    let n := u8 a.payload 0
    let d := updRef (fun r => { r with manual := true }) d
    if d.tim.ref.active = n then d else activate n d

def cmdRefSelectAuto : CmdSpec where
  opcode := 0x0A12
  len := len 0
  unitLocal := true
  apply _ d := select (updRef (fun r => { r with manual := false }) d)

def cmdRefLimits : CmdSpec where
  opcode := 0x0A13
  len := len 24
  unitLocal := true
  fields _ := [rng 0 4 1 10000, rng 4 4 100 1000000, rng 8 4 10 100000, srng 12 4 (-100000000) 100000000, rng 16 1 0 1,
    res 17 1, rng 18 2 0 60000, rng 20 4 10 1000000]
  stageable := true
  apply a d :=
    let p := a.payload
    select (updRef (fun r => { r with slope := u32 p 0, slew := u32 p 4, disagree := u32 p 8, nominal := i32 p 12,
                                      revert := decide (u8 p 16 = 1), initMs := u16 p 18, glitch := u32 p 20 }) d)

def cmdRefRealign : CmdSpec where
  opcode := 0x0A14
  len := len 4
  unitLocal := true
  fields _ := [rng 0 1 0 15, res 1 3]
  check a d :=
    let c := cand (u8 a.payload 0) d
    firstOf [refuseIf (decide (d.mode ≠ READY ∧ d.mode ≠ MAINTENANCE)) 0x0007,
             refuseIf (decide (c.rank ≠ 0 ∧ c.kind = 6)) 0x0010,
             refuseIf (!c.qual || freqOnlyKind c.kind) 0x0013]
  -- R575: the entry becomes active; selection then continues, which may make another entry active.
  apply a d := select (updRef (fun r => { r with initDone := true }) (alignTo (u8 a.payload 0) d))

/-- The program that a PULSE_CONFIG payload describes. -/
def progOf (p : List Byte) (now : Time) : Prog :=
  let g : Prog := { ref := u8 p 1, low := decide (u8 p 2 = 1), start := ofT96 (un 12 p 4), periodN := un 8 p 16,
                    periodD := u16 p 24, width := u32 p 28, count := u32 p 32, first := 0 }
  { g with first := firstEdge g (now + ms) }

def cmdPulseConfig : CmdSpec where
  opcode := 0x0A20
  len := len 36
  unitLocal := true
  -- R74: a period of at least 100 ns, a width of 2 ns to 2 ns less than the period.
  fields p := [rng 0 1 0 15, rng 1 1 0 4, rng 2 1 0 1, res 3 1, time96 4,
    fok 16 8 fun v => decide (v ≤ 2 ^ 40) && (decide (v = 0) || decide (100 * u16 p 24 ≤ v)), rng 24 2 1 65535, res 26 2,
    fok 28 4 fun v => decide (2 ≤ v) && (decide (un 8 p 16 = 0) || decide ((v + 2) * u16 p 24 ≤ un 8 p 16))]
  stageable := true
  obj p := [u8 p 0]
  removal p := some ⟨0x0A21, le 4 0 ++ le 1 (u8 p 0) ++ le 3 0⟩
  check a d :=
    let p := a.payload
    firstOf [refuseIf (drainOf (.pulse (u8 p 0)) d).isSome 0x0002,
             refuseIf (decide (u8 p 1 ≠ 0 ∧ (tget d.tim.tbs (u8 p 1 - 1)).state = 0)) 0x0011,
             refuseIf (decide (un 8 p 16 = 0 ∧ ofT96 (un 12 p 4) < refTime (u8 p 1) d + ms)) 0x0014]
  apply a d :=
    let g := progOf a.payload (refTime (u8 a.payload 1) d)
    updPulse (u8 a.payload 0) (fun p => match p.prog with
      | some _ => { p with next := some g, set := true }
      | none => { p with prog := some g, k := g.first, high := false, ending := none, set := true }) d

def cmdPulseStop : CmdSpec where
  opcode := 0x0A21
  len := len 8
  unitLocal := true
  fields _ := [disableWord, rng 4 1 0 15, res 5 3]
  config := true
  obj p := [u8 p 4]
  disables := some fun p _ => [.pulse (u8 p 4)]

def cmdPllBandTable : CmdSpec where
  opcode := 0x0A30
  len := len 4
  unitLocal := true
  fields _ := [rng 0 1 0 10, rng 1 1 0 1, rng 2 1 0 31, res 3 1]
  config := true
  obj p := [u8 p 0]
  apply a d := updSynth (u8 a.payload 0) (fun s => { s with table := decide (u8 a.payload 1 = 1), band := u8 a.payload 2 }) d

def cmdPllRestore : CmdSpec where
  opcode := 0x0A31
  len := len 4
  unitLocal := true
  fields _ := [rng 0 1 2 10, res 1 3]
  check a d := firstOf [refuseIf (!(tget d.tim.synths (u8 a.payload 0)).locked) 0x0012,
                        refuseIf (!synthIdle (u8 a.payload 0) d) 0x0002]
  apply a d := updSynth (u8 a.payload 0) (fun s => { s with bypass := false }) d

/-- Family 0x0A. -/
def family0A : List CmdSpec :=
  [cmdTimTbConfig, cmdTimTbEnable, cmdTimTbDisable, cmdTimRestep, cmdTimRead, cmdTimPortAsymmetry, cmdRefCandConfig,
   cmdRefSelectManual, cmdRefSelectAuto, cmdRefLimits, cmdRefRealign, cmdPulseConfig, cmdPulseStop, cmdPllBandTable,
   cmdPllRestore]

/-! ### Events -/

/-- One TIM cycle (R41, R46): house time advances by 2 ns, or 20 ns while synthesiser CT is in bypass, times
1 + N × 10^-12; the time bases advance at their held rates. In HELD no clock of the device runs. -/
def tick (d : Dev) : Dev :=
  if d.mode = HELD then d
  else
    let dt : Time := if (tget d.tim.synths 0).bypass then 20 else 2
    let house := cut64 (d.house + dt * (1 + (d.tim.ref.ppt : Rat) / 1000000000000))
    { d with
      up := d.up + dt, house := house,
      tim.tbs := tmap d.tim.tbs fun _ b =>
        -- The time of a time base that is DISABLED stands (DESIGN CHOICE, log entry 205).
        if b.state = 0 then b
        else if b.role = 1 then { b with time := house }
        else { b with time := b.time + dt * (1 + b.rate / 1000000000) } }

/-- House time has entered another millisecond since an instant (R43, R69). -/
def newMs (last : Time) (d : Dev) : Bool := decide ((last / ms).floor ≠ (d.house / ms).floor)

/-- NCO_UPDATE: due once per millisecond of house time (R69). -/
def execNcoUpdate (s : State) : Out :=
  onDevIf (fun d => selectorRuns d && newMs d.tim.ref.lastNco d) ncoUpdate s

/-- SELECTOR_LOCKED: |e| has been within 10 ns for 1 s (R71). -/
def execSelectorLocked (s : State) : Out :=
  onDevIf (fun d => decide (d.tim.ref.state = 2) && timerPast d.tim.ref.nearSince sec d.up)
    (updRef fun r => { r with state := 1 }) s

/-- HOUSE_SYNTH_RATIO_LOAD: once per millisecond AUD, VID0 and VID1 load the NCO value in one TIM cycle (R43). -/
def execHouseSynthRatioLoad (s : State) : Out :=
  onDevIf (fun d => decide (LOADER ≤ d.mode) && newMs d.tim.ref.lastLoad d)
    (fun d => updRef (fun r => { r with lastLoad := d.house })
      (updSynth 8 (fun x => { x with ppt := d.tim.ref.ppt }) (updSynth 9 (fun x => { x with ppt := d.tim.ref.ppt })
        (updSynth 10 (fun x => { x with ppt := d.tim.ref.ppt }) d)))) s

def execPtpMessageReceive (port : Nat) (m : PtpMsg) (s : State) : Out := 
  onDevIf blocksRun (fun d => ptpReceive port m (ptpTake port d)) s

def execPtpMessageTransmit (port : Nat) (k : PtpKind) (s : State) : Out := onDev (ptpTransmit port k) s

/-- ANNOUNCE_RECEIPT_TIMEOUT (R53). -/
def execAnnounceReceiptTimeout (tb : Nat) (s : State) : Out :=
  onDevIf (fun d => let b := tget d.tim.tbs tb
      decide (b.role = 0 ∧ (b.state = 2 ∨ b.state = 3) ∧ heardMasters b d.up = []))
    (fun d => tbHold tb (updTb tb (fun b => { b with masters := [], gm := none }) d)) s

/-- SYNC_ABSENCE_TIMEOUT: no Sync for the longer of 8 Sync intervals and 250 ms (R53). -/
def execSyncAbsenceTimeout (tb : Nat) (s : State) : Out :=
  onDevIf (fun d => let b := tget d.tim.tbs tb
      decide (b.role = 0 ∧ (b.state = 2 ∨ b.state = 3) ∧ b.lastSync + 8 * logInterval b.logSync ≤ d.up
        ∧ b.lastSync + 250 * ms ≤ d.up))
    (tbHold tb) s

/-- REFERENCE_EDGE (R56, R58, R540): an edge of an input is stamped; the entry that names the source is present. `edge` of
SYNC_A and SYNC_B is 0 for an H pulse, 1 for a V pulse, 2 for the V pulse at which F begins a frame: there the measurement of
frame phase is taken, `phase` being the reference's time minus house time. -/
def execReferenceEdge (kind source : Nat) (phase : Time) (s : State) (edge : Nat := 0) : Out :=
  onDevIf (fun d => selectorRuns d && decide (kind = 2 ∨ kind = 4 ∨ kind = 5))
    (fun d => let d := if kind = 5 then { d with aud.wclkIn := true } else d
      match candOf kind source d with
      | none => d
      | some n =>
        let d := updCand n (fun c =>
          if kind = 2 ∧ edge = 0 then { c with present := true, hAt := d.up, hPeriod := d.up - c.hAt }
          else { c with present := true, edgeAt := d.up, hAt := if c.present then c.hAt else d.up }) d
        if kind = 2 ∧ edge = 2 then measurePhase n (stamped (d.house + phase) d) d else d) s

/-- An input's edges have been absent for as long as R56 says: of SYNC no V pulse for 2 frame periods or no H pulse for 16 line
periods, of CLK10 no edge for 1 us, of WCLK_IN none for 2 sample periods. -/
def edgesAbsent (c : Cand) (d : Dev) : Bool :=
  let p : Time := (c.frameN : Rat) / (c.frameD : Rat)
  if c.kind = 2 then decide (c.edgeAt + 2 * p ≤ d.up) || decide (0 < c.hPeriod ∧ c.hAt + 16 * c.hPeriod ≤ d.up)
  else if c.kind = 4 then decide (c.edgeAt + us ≤ d.up)
  else decide (c.edgeAt + 2 * p ≤ d.up)

/-- FREQUENCY_GATE (R57, R59, R63): a measurement outside the window loses the candidate; one inside starts the
hold-off if it is not running. Selection runs on the new frequencies. -/
def execFrequencyGate (n : Nat) (ppb : Time) (s : State) : Out :=
  onDevIf (fun d => selectorRuns d && decide (n < 16 ∧ (cand n d).rank ≠ 0) && presenceHeld (cand n d) d)
    (fun d =>
      let c := cand n d
      let d := updCand n (fun c => { c with freq := some ppb, present := true }) d
      let d := if c.kind = 5 then { d with aud.wclkFreq := roundAway (ppb / 100) } else d
      if !inWindow c ppb d then loseCand n true d
      else
        select (updCand n (fun c => { c with since := startTimer c.since d.up }) d)) s

/-- CANDIDATE_QUALIFY (R57, R61, R68): a candidate that has been present and within its window for its hold-off. -/
def execCandidateQualify (n : Nat) (s : State) : Out :=
  onDevIf (fun d => let c := cand n d
      selectorRuns d && decide (n < 16 ∧ c.rank ≠ 0 ∧ c.qual = false) && presenceHeld c d && timerPast c.since ((c.holdoff : Rat) * ms) d.up)
    (fun d => select (updRef (fun r => { r with
        initFrom := startTimer r.initFrom d.up })
      (updCand n (fun c => { c with qual := true }) d))) s

/-- CANDIDATE_LOST (R56): the presence condition fails. For a source inside the device the state must say so. -/
def execCandidateLost (n : Nat) (s : State) : Out :=
  onDevIf (fun d => let c := cand n d
      selectorRuns d && decide (n < 16 ∧ c.rank ≠ 0) && (c.present || c.qual)
        && (if c.kind = 2 ∨ c.kind = 4 ∨ c.kind = 5 then edgesAbsent c d else !presenceHeld c d))
    (fun d => loseCand n false (if (cand n d).kind = 5 then { d with aud.wclkIn := false } else d)) s

/-- CONFLICT_CLEAR: no pair of the rank has disagreed for 2 s (R63). -/
def execConflictClear (s : State) : Out :=
  onDevIf (fun d => d.tim.ref.conflict && timerPast d.tim.ref.agreeSince (2 * sec) d.up)
    (fun d => select (updRef (fun r => { r with conflict := false, conflictRank := 0 }) d)) s

/-- INITIAL_SELECTION_WINDOW: the window from the first qualification ends (R68). -/
def execInitialSelectionWindow (s : State) : Out :=
  onDevIf (fun d => decide (d.tim.ref.state = 0) && !d.tim.ref.initDone && timerPast d.tim.ref.initFrom ((d.tim.ref.initMs : Rat) * ms) d.up)
    (fun d => select (updRef (fun r => { r with initDone := true }) d)) s

/-- PULSE_EDGE (R72 to R76): the trailing edge of a pulse, or the next edge of the program, each at the step nearest its exact
time (R73), when that time has come. A pin that drains begins no further pulse (R30). A waiting program takes over at the running
program's next edge time, and begins at its own first edge at or after that instant (DESIGN CHOICE, log entry 206). -/
def pulseEdge (pin : Nat) (d : Dev) : Dev :=
  let p := tget d.tim.pulses pin
  match p.prog with
  | none => d
  | some g =>
    let t := refTime g.ref d
    let lead := stamped (edgeTime g p.k) d
    let trail := stamped (p.lastEdge + (g.width : Rat)) d
    let spent := decide ((g.count ≠ 0 ∧ g.first + g.count ≤ p.k) ∨ (g.periodN = 0 ∧ g.first < p.k))
    let down := match p.ending with
      | some u => decide (u ≤ d.up)
      | none => decide (trail ≤ t)
    if p.high then
      (if !down then d
       else if p.ending.isSome ∨ (p.next = none ∧ spent) then stopPulse pin d
       else updPulse pin (fun p => { p with high := false, placed := trail }) d)
    else if (drainOf (.pulse pin) d).isSome then d
    else if lead ≤ t then
      match p.next with
      | some h =>
        let now := refTime h.ref d
        let e := max h.first (firstEdge h (now + (edgeTime g p.k - t)))
        let due := decide (stamped (edgeTime h e) d ≤ now)
        updPulse pin (fun p => { p with prog := some h, next := none, high := due,
                                        lastEdge := if due then edgeTime h e else p.lastEdge,
                                        placed := if due then stamped (edgeTime h e) d else p.placed,
                                        k := if due then e + 1 else e }) d
      | none =>
        if spent then stopPulse pin d
        else updPulse pin (fun p => { p with high := true, lastEdge := edgeTime g p.k, placed := lead, k := p.k + 1 }) d
    else d

def execPulseEdge (pin : Nat) (s : State) : Out :=
  onDevIf (fun d => decide (LOADER ≤ d.mode ∧ d.mode ≠ SAFE)) (pulseEdge pin) s

/-- A synthesiser begins a band selection (R77): with the table band in table mode, otherwise with the automatic search. -/
def beginSelection (now : Time) (x : Synth) : Synth := { x with select := if x.table then 1 else 2, searchFrom := now }

/-- The selection in progress has come to where lock may follow (R77): at once with a table band, after five steps of 20 us in an
automatic search. -/
def selectionMade (x : Synth) (now : Time) : Bool :=
  decide (x.select = 1) || (decide (x.select = 2) && decide (x.searchFrom + 100 * us ≤ now))

/-- PLL_LOCK (R77): a band search of five steps of 20 us, or a table band, locks; synthesiser 11 has no bands. -/
def execPllLock (n : Nat) (s : State) : Out :=
  onDevIf (fun d => let x := tget d.tim.synths n
      decide (n < 12 ∧ d.mode ≠ HELD) && !x.locked && !x.bypass && (decide (n = 11) || selectionMade x d.up))
    (updSynth n fun x => { x with locked := true, select := 0 }) s

/-- PLL_TABLE_MISS (R77): a table band not locked within 200 us is abandoned for an automatic search; the mode stays as
`PLL_BAND_TABLE` set it for the next selection. -/
def execPllTableMiss (n : Nat) (s : State) : Out :=
  onDevIf (fun d => let x := tget d.tim.synths n
      decide (n < 11 ∧ d.mode ≠ HELD ∧ x.select = 1) && !x.locked && decide (x.searchFrom + 200 * us ≤ d.up))
    (fun d => updSynth n (fun x => { x with miss := x.miss + 1, select := 2, searchFrom := d.up }) d) s

/-- PLL_BYPASS_SEARCH (R79): up to three searches, 10 ms apart, the first 10 ms after the loss of lock (DESIGN CHOICE, log entry
207); each is a band selection as R77 has it (DEDUCED, log entry 208). -/
def execPllBypassSearch (n : Nat) (s : State) : Out :=
  onDevIf (fun d => let x := tget d.tim.synths n
      decide (n < 11) && x.bypass && !x.locked && decide (x.searches < 3 ∧ x.searchFrom + 10 * ms ≤ d.up))
    (fun d => updSynth n (fun x => { beginSelection d.up x with searches := x.searches + 1 }) d) s

/-- PLL_RELOCK (R77, R79): the selection in progress ends in lock; synthesisers 0 and 1 leave bypass as soon as they relock. -/
def execPllRelock (n : Nat) (s : State) : Out :=
  onDevIf (fun d => let x := tget d.tim.synths n
      decide (n < 11) && x.bypass && !x.locked && selectionMade x d.up)
    (updSynth n fun x => { x with locked := true, searches := 0, select := 0, bypass := x.bypass && decide (2 ≤ n) }) s

/-- XTAL_LOSS (R81): fatal in every mode. -/
def execXtalLoss (s : State) : Out := onDev (major 0x000 0) s

end Sys2Proof.Machine
end

