-- ==== Sys2Proof/Machine/Lanes.lean ====
section
/-! DEFINITION. Chapter 3: serial lanes and octets; the commands of family 0x02 and the events of this chapter. -/

namespace Sys2Proof.Machine

/-! ### Status (R110) -/

/-- LANE_OCT_STATUS.IDLE: every lane OFF in both directions (R86). -/
def octIdle (o : Nat) (d : Dev) : Bool :=
  (lanesOf o).all fun n => let l := lane n d; decide (l.rxState = 0) && !l.rxEn && !l.txEn

/-- The octet synthesiser that clocks a rate code is OSB for the 1/1.001 family, else OSA, or OST (R87). -/
def usesOsb (rate : Nat) : Bool := decide (rate < 8 ∧ rate % 2 = 1)

/-- The synthesiser that clocks a rate code on an octet is locked. -/
def oscLocked (o rate : Nat) (d : Dev) : Bool :=
  let x := tget d.octets o
  if usesOsb rate then x.osb.locked else x.osa.locked

/-- A client delivers data to a transmitter (R91): an SDI transmitter that is ACTIVE, a MAC port that sends idles or
more, or the twin link's training and traffic. -/
def clientDelivers (n : Nat) (d : Dev) : Bool :=
  if 192 ≤ n then true
  else if (tget d.octets (octetOf n)).mode = 0 then decide ((tget d.sdiTx n).state = 2)
  else portDelivers n d

/-- TXSTATE (R110): 0 OFF, 1 enabled at electrical idle, 2 ACTIVE, 3 TEST. -/
def txState (n : Nat) (d : Dev) : Nat :=
  let l := lane n d
  if !l.txEn then 0
  else if !oscLocked (octetOf n) l.txRate d || d.flt.safeHold || (d.upd.laneIdle.isSome && decide (n < 192)) then 1
  else if l.testTx ≠ 0 then 3
  else if clientDelivers n d then 2 else 1

def octCfg (o : Nat) (d : Dev) : Nat :=
  let x := tget d.octets o
  fld (if o = 24 then 0xF else x.mode) 28 4 + fld (b2n x.roveEn) 27 1 + fld x.dwell 16 8

def octStatus (o : Nat) (d : Dev) : Nat :=
  let x := tget d.octets o
  fld (if o = 24 then 0xF else x.mode) 28 4 + fld (b2n x.osa.locked) 27 1 + fld (b2n x.osb.locked) 26 1
    + fld (b2n (octIdle o d)) 25 1 + fld (b2n (decide (x.stage ≠ 0))) 24 1
    + fld (if x.stage ≠ 0 then x.roveLane % 8 else 0xF) 20 4 + fld (b2n x.spare) 19 1

def laneRxCfg (n : Nat) (d : Dev) : Nat :=
  let l := lane n d
  fld (b2n l.rxEn) 31 1 + fld (b2n l.invert) 30 1 + fld l.adapt 28 2 + fld l.rate 24 4 + fld l.ctle 20 4
    + fld l.vga 15 5 + fld l.losTh 11 4 + fld (b2n l.rxPre) 10 1

def laneTxCfg (n : Nat) (d : Dev) : Nat :=
  let l := lane n d
  fld (b2n l.txEn) 31 1 + fld (b2n l.txInv) 30 1 + fld l.txRate 26 4 + fld l.swing 22 4 + fld l.pre2 19 3
    + fld l.pre1 15 4 + fld l.post1 10 5 + fld (b2n l.txPre) 9 1

def laneStatus (n : Nat) (d : Dev) : Nat :=
  let l := lane n d
  fld l.rxState 29 3 + fld (txState n d) 27 2 + fld (b2n l.los) 26 1 + fld (b2n l.lol) 25 1 + fld l.rateNow 21 4
    + fld l.order 18 3 + fld l.restarts 16 2 + twos 16 l.freq

def laneEye (n : Nat) (d : Dev) : Nat :=
  let l := lane n d
  fld l.height 24 8 + fld l.width 16 8 + fld l.ctleNow 12 4 + fld l.vgaNow 7 5

/-- Counters in offset order from `lo`, `n` of them, 8 bytes each. -/
def ctrBytes (c : Ctrs) (lo n : Nat) : List Byte :=
  (List.range n).foldl (fun l i => l ++ le 8 (tget c (lo + 8 * i)).toNat) []

/-! ### Rates (R87) -/

/-- A rate code that an octet's mode allows; the twin group (octet 24) allows code 0xB. -/
def rateAllowed (o mode rate : Nat) : Bool :=
  if o = 24 then decide (rate = 0xB)
  else match mode with
  | 0 => decide (rate ≤ 8 ∨ rate = 0xE)
  | 1 => decide (rate = 9)
  | 2 | 3 | 4 => decide (rate = 0xA)
  | _ => false

/-- The order in which automatic search tries the rates (R97). -/
def searchOrder : List Nat := [6, 7, 4, 5, 2, 3, 0, 1, 8]

/-- The lanes of the port that a lane belongs to (R85). -/
def portLanes (n : Nat) (d : Dev) : List Nat :=
  let o := octetOf n
  match (tget d.octets o).mode with
  | 2 => [n / 2 * 2, n / 2 * 2 + 1]
  | 3 => (List.range 4).map (n / 4 * 4 + ·)
  | 4 => lanesOf o
  | _ => [n]

/-! ### Bring-up (R99 to R102) -/

/-- A lane's equaliser adapts (R93): every stage but, in the manual regime, CTLE and VGA, which LANE_RX_CFG gives. What it comes
to, and the eye, are free values. -/
def laneAdapt (n : Nat) (d : Dev) : Dev :=
  let e := (Config.eyeOf n d.free).toNat
  useFree (updLane n (fun l => { l with
    height := e % 256, width := e / 256 % 64,
    ctleNow := if l.adapt = 2 then l.ctle else e / 65536 % 16,
    vgaNow := if l.adapt = 2 then l.vga else e / 2 ^ 20 % 32,
    dfe := (List.range (dfeTaps l)).map (Config.dfeTap n d.free) }) d)

/-- The receiver enters UP: RESTARTS returns to 0. -/
def laneUp (n : Nat) (d : Dev) : Dev :=
  updLane n (fun l => { l with rxState := if l.testRx ≠ 0 then 5 else 4, restarts := 0 }) (laneAdapt n d)

/-- A failed attempt (R102): back to step 1, or FAULT after the third in a row. -/
def laneFail (n : Nat) (d : Dev) : Dev :=
  let k := (lane n d).restarts + 1
  let d := updLane n (fun l => { l with restarts := min k 3 }) d
  if 3 ≤ k then
    major (0x100 + 8 * octetOf n + 2) n (laneUnlocked n (updLane n (fun l => { l with rxState := 6 }) d))
  else laneBump n cRESTART 1 (laneStep1 n d)

/-- Lock is lost (R96, R98, R102). -/
def laneUnlock (n : Nat) (d : Dev) : Dev :=
  let l := lane n d
  let d := laneUnlocked n d
  if l.rxState = 4 ∨ l.rxState = 5 then reporting n (laneDrop n) d
  else if l.rxState = 2 ∨ l.rxState = 3 then laneFail n d
  -- R97: a lane under automatic search that loses lock starts again from 0x6.
  else if l.rxState = 1 ∧ l.rate = 0xE ∧ l.lol = false then
    updLane n (fun l => { l with search := 0, rateNow := 0x6, stepAt := d.up, good := 0, bad := 0 }) d
  else d

/-- The lock criterion is met after coarse adaptation (R99 step 4). -/
def laneLocked (n : Nat) (d : Dev) : Dev :=
  let l := lane n d
  let d := updLane n (fun l => { l with lol := false }) d
  if l.rxState = 2 ∧ l.adapted then
    if l.testRx ≠ 0 ∨ (octetOf n ≠ 24 ∧ (tget d.octets (octetOf n)).mode = 0) then laneUp n d
    else updLane n (fun l => { l with rxState := 3, stepAt := d.up, trueRun := 0, compRun := 0 }) d
  else d

/-- Bits of a gate of 16,384 LRX cycles. -/
def gateBits (l : Lane) : Nat := 16384 * (if l.rateNow = 0xA then 128 else 64)

/-- The checker of a receiver under test counts from its first 64 error-free bits (R111, R114): `start` is where in the gate they
end, of a gate in which it locks, and `errs` the bits in error after that. -/
def testGate (n start errs : Nat) (d : Dev) : Dev :=
  let l := lane n d
  let from_ := if l.testLock then 0 else start
  if l.rxState ≠ 5 ∨ gateBits l ≤ from_ then d
  else laneBump n cTEST_BITS (gateBits l - from_) (laneBump n cTEST_ERR errs (updLane n (fun l => { l with testLock := true }) d))

/-- LANE_FREQUENCY_GATE (R96): 16,384 LRX cycles against the reference, in units of 0.1 ppm. A receiver under test also
counts the gate's bits, and one that is UP in the continuous regime has adapted (R93). -/
def frequencyGate (n : Nat) (v : Int) (start errs : Nat) (d : Dev) : Dev :=
  let l := lane n d
  let inside := decide (-2500 ≤ v ∧ v ≤ 2500)
  let outside := decide (v < -3500 ∨ 3500 < v)
  let good := if inside then l.good + 1 else 0
  let bad := if outside then l.bad + 1 else 0
  let d := testGate n start errs (updLane n (fun l => { l with freq := v, good := good, bad := bad }) d)
  let d := if (l.rxState = 4 ∨ l.rxState = 5) ∧ l.adapt ≠ 1 then laneAdapt n d else d
  if 2 ≤ bad ∧ l.lol = false then laneUnlock n d
  else if 4 ≤ good ∧ (l.lol ∨ l.rxState = 2) ∧ (l.rxState ≠ 2 ∨ l.adapted) ∧ (l.rxState ≠ 1 ∨ l.rate = 0xE) then laneLocked n d
  else d

/-- The lowest identity that a lane's markers carry (R101). -/
def lowestIdent (l : Lane) : Option Nat := l.idents.min?

/-- A lane's position in its port's order: the number of the port's lanes with a lower lowest identity (R101). -/
def orderOf (n : Nat) (ports : List Nat) (d : Dev) : Nat :=
  match lowestIdent (lane n d) with
  | none => 0
  | some i => (ports.filter fun m => match lowestIdent (lane m d) with | some j => decide (j < i) | none => false).length

/-- Every identity of the port has been read on one of its lanes, and no other on any (R101). The PCS of each PAM4 port type has
two identities a lane (PRESUMED from IEEE 802.3, log entry 210). -/
def orderKnown (ports : List Nat) (d : Dev) : Bool :=
  let all := (ports.map fun m => (lane m d).idents).flatten
  decide (ports.length < 2) || (decide (all.length = 2 * ports.length) && (List.range (2 * ports.length)).all (all.contains ·))

/-- ALIGNMENT_MARKER (R100, R101): a lane identity and a polarity are read; four complemented markers in a row toggle
INVERT, four true ones resolve polarity. The lane enters UP when polarity and the port's order are resolved. -/
def alignmentMarker (n : Nat) (comp : Bool) (identity : Nat) (d : Dev) : Dev :=
  let l := lane n d
  if l.rxState ≠ 3 ∨ octetOf n = 24 then d
  else
    let d := updLane n (fun l => { l with
      idents := if l.idents.contains identity then l.idents else l.idents ++ [identity],
      trueRun := if comp then 0 else l.trueRun + 1, compRun := if comp then l.compRun + 1 else 0 }) d
    let d := if comp ∧ 4 ≤ l.compRun + 1 then
        laneBump n cINVERT 1 (updLane n (fun l => { l with invert := !l.invert, compRun := 0, trueRun := 0 }) d)
      else d
    let ps := portLanes n d
    if orderKnown ps d then
      ps.foldl (fun d m =>
        let d := updLane m (fun x => { x with order := orderOf m ps d }) d
        if (lane m d).rxState = 3 ∧ 4 ≤ (lane m d).trueRun then laneUp m d else d) d
    else d

/-! ### Commands of family 0x02 (R112 to R115) -/

def laneField : Fld := rng 0 2 0 195

/-- An octet takes a mode (R86, R88, R181): its synthesisers begin their searches, and a change of mode makes new ports. -/
def octetMode (o mode : Nat) (d : Dev) : Dev :=
  if (tget d.octets o).mode = mode then d
  else resetPortConfigs o (updOct o (fun x => { x with
    mode := mode, osa := { searching := true, searchFrom := d.up }, osb := { searching := true, searchFrom := d.up } }) d)

/-- Every command of the family returns 0x0007 in SAFE (R115). -/
def cmdLaneOctMode : CmdSpec where
  opcode := 0x0201
  len := len 4
  unitLocal := true
  fields _ := [rng 0 1 0 24, oneOf 1 1 [0, 1, 2, 3, 4, 0xF], res 2 2]
  config := true
  obj p := [u8 p 0]
  check a d :=
    let o := u8 a.payload 0
    let m := u8 a.payload 1
    firstOf [refuseIf (decide (o = 24) || decide (16 ≤ o ∧ 1 ≤ m ∧ m ≤ 4)) 0x0010, refuseIf (!octIdle o d) 0x0002]
  apply a d := octetMode (u8 a.payload 0) (u8 a.payload 1) d

/-- A rate field in range: a code of the table of R87. -/
def rateField (off : Nat) (used : Bool) : Fld :=
  fok off 1 fun v => !used || decide (v ≤ 0xB ∨ v = 0xE ∨ v = 0xF)

/-- A receiver direction is enabled at a rate (R99, R113). -/
def enableRx (n rate : Nat) (d : Dev) : Dev :=
  let l := lane n d
  if l.rxEn ∧ l.rate = rate then d
  else
    let d := if l.rxState = 4 then reporting n (clientLost n) d else d
    laneStep1 n (updLane n (fun l => { l with rxEn := true, rate := rate, restarts := 0 }) d)

def cmdLaneEnable : CmdSpec where
  opcode := 0x0202
  len := len 8
  unitLocal := true
  fields p := [laneField, rng 2 1 1 3, rateField 3 (bitOf (u8 p 2) 0), rateField 4 (bitOf (u8 p 2) 1), res 5 3]
  stageable := true
  obj p := [u16 p 0, u8 p 2]
  removal p := some ⟨0x0203, le 4 0 ++ p.take 3 ++ le 1 0⟩
  check a d :=
    let p := a.payload
    let n := u16 p 0
    let o := octetOf n
    let m := (tget d.octets o).mode
    let rx := bitOf (u8 p 2) 0
    let tx := bitOf (u8 p 2) 1
    firstOf [
      refuseIf ((rx && (drainOf (.laneRx n) d).isSome) || (tx && (drainOf (.laneTx n) d).isSome)) 0x0002,
      refuseIf ((rx && !rateAllowed o m (u8 p 3)) || (tx && (!rateAllowed o m (u8 p 4) || decide (u8 p 4 = 0xE)))) 0x0012,
      refuseIf (tx && !((lane n d).txEn && decide ((lane n d).txRate = u8 p 4)) && !oscLocked o (u8 p 4) d) 0x0014]
  apply a d :=
    let p := a.payload
    let n := u16 p 0
    let d := if bitOf (u8 p 2) 0 then enableRx n (u8 p 3) d else d
    if bitOf (u8 p 2) 1 then updLane n (fun l => { l with txEn := true, txRate := u8 p 4 }) d else d

def cmdLaneDisable : CmdSpec where
  opcode := 0x0203
  len := len 8
  unitLocal := true
  fields _ := [disableWord, rng 4 2 0 195, rng 6 1 1 3, res 7 1]
  stageable := true
  obj p := [u16 p 4, u8 p 6]
  sheds _ := true
  disables := some fun p _ =>
    (if bitOf (u8 p 6) 0 then [Func.laneRx (u16 p 4)] else []) ++ (if bitOf (u8 p 6) 1 then [Func.laneTx (u16 p 4)] else [])

def cmdLaneTxEq : CmdSpec where
  opcode := 0x0204
  len := len 8
  unitLocal := true
  fields _ := [laneField, rng 6 1 0 1, res 7 1]
  stageable := true
  obj p := [u16 p 0]
  -- R90, R115: a tap or swing out of range, or MAIN below 24.
  check a _ :=
    let p := a.payload
    refuseIf (decide (15 < u8 p 2 ∨ 7 < u8 p 3 ∨ 15 < u8 p 4 ∨ 31 < u8 p 5 ∨ 64 < 24 + u8 p 3 + u8 p 4 + u8 p 5)) 0x0013
  apply a d :=
    let p := a.payload
    updLane (u16 p 0) (fun l => { l with swing := u8 p 2, pre2 := u8 p 3, pre1 := u8 p 4, post1 := u8 p 5,
                                         txPre := decide (u8 p 6 = 1) }) d

def cmdLaneRxEq : CmdSpec where
  opcode := 0x0205
  len := len 8
  unitLocal := true
  fields _ := [laneField, rng 6 1 0 1, res 7 1]
  config := true
  obj p := [u16 p 0]
  check a _ :=
    let p := a.payload
    refuseIf (decide (2 < u8 p 2 ∨ 15 < u8 p 3 ∨ 31 < u8 p 4 ∨ 12 < u8 p 5)) 0x0013
  apply a d :=
    let p := a.payload
    updLane (u16 p 0) (fun l => { l with
      adapt := u8 p 2, ctle := u8 p 3, vga := u8 p 4, losTh := u8 p 5, rxPre := decide (u8 p 6 = 1),
      ctleNow := if u8 p 2 = 2 ∧ 2 ≤ l.rxState then u8 p 3 else l.ctleNow,
      vgaNow := if u8 p 2 = 2 ∧ 2 ≤ l.rxState then u8 p 4 else l.vgaNow }) d

def cmdLaneRove : CmdSpec where
  opcode := 0x0206
  len := len 4
  unitLocal := true
  fields _ := [rng 0 1 0 24, rng 1 1 0 1, rng 2 1 1 255, res 3 1]
  config := true
  obj p := [u8 p 0]
  apply a d :=
    let o := u8 a.payload 0
    let on := decide (u8 a.payload 1 = 1)
    let d := if on then d else abortVisit o (tget d.octets o).roveLane d
    updOct o (fun x => { x with roveEn := on, dwell := u8 a.payload 2,
                                lastVisit := if x.roveEn then x.lastVisit else d.up }) d

def cmdLaneStatusRead : CmdSpec where
  opcode := 0x0207
  len := len 4
  unitLocal := true
  fields _ := [laneField, res 2 2]
  reply a _ d :=
    let n := u16 a.payload 0
    let words := le 4 (laneStatus n d) ++ le 4 (laneEye n d) ++ le 4 (octStatus (octetOf n) d) ++ le 4 0
    { payload := words ++ ctrBytes (lane n d).ctrs 0x40 8 }

/-- A pattern that the lane's line code carries (R114): 1 to 5 on NRZ lanes, 6 to 8 on PAM4 lanes; 0 stops. -/
def patternOk (n pat : Nat) (d : Dev) : Bool :=
  let pam4 := decide (octetOf n ≠ 24) && decide (2 ≤ (tget d.octets (octetOf n)).mode ∧ (tget d.octets (octetOf n)).mode ≤ 4)
  decide (pat = 0) || (if pam4 then decide (6 ≤ pat ∧ pat ≤ 8) else decide (1 ≤ pat ∧ pat ≤ 5))

def cmdLaneTest : CmdSpec where
  opcode := 0x0208
  len := len 4
  unitLocal := true
  fields _ := [laneField, rng 2 1 1 3, rng 3 1 0 8]
  check a d :=
    let n := u16 a.payload 0
    firstOf [refuseIf (laneInUse n d) 0x0011, refuseIf (!patternOk n (u8 a.payload 3) d) 0x0004 3]
  apply a d :=
    let p := a.payload
    let n := u16 p 0
    let pat := u8 p 3
    let d := if pat = 0 then d else abortVisit (octetOf n) n d
    let d := if bitOf (u8 p 2) 1 then updLane n (fun l => { l with testTx := pat }) d else d
    if bitOf (u8 p 2) 0 then
      let l := lane n d
      let d := updLane n (fun l => { l with testRx := pat, testLock := false }) d
      if pat = 0 then (if l.rxState = 5 then laneStep1 n d else d)
      else if l.rxState = 3 then updLane n (fun l => { l with rxState := 5 }) d
      else if l.rxState = 4 then reporting n (clientLost n) (updLane n (fun l => { l with rxState := 5 }) d)
      else d
    else d

def cmdLaneRestart : CmdSpec where
  opcode := 0x0209
  len := len 4
  unitLocal := true
  fields _ := [laneField, res 2 2]
  apply a d :=
    let n := u16 a.payload 0
    let l := lane n d
    if !l.rxEn then d
    else
      let d := if l.rxState = 4 then reporting n (clientLost n) d else d
      laneStep1 n (updLane n (fun l => { l with restarts := 0 }) d)

/-- Family 0x02. -/
def family02 : List CmdSpec :=
  [cmdLaneOctMode, cmdLaneEnable, cmdLaneDisable, cmdLaneTxEq, cmdLaneRxEq, cmdLaneRove, cmdLaneStatusRead, cmdLaneTest,
   cmdLaneRestart]

/-! ### Events -/

/-- The octet synthesiser that an event names; the twin group has only OST. -/
def osc (o : Nat) (osb : Bool) (d : Dev) : Osc := if osb then (tget d.octets o).osb else (tget d.octets o).osa

def updOsc (o : Nat) (osb : Bool) (f : Osc → Osc) (d : Dev) : Dev :=
  updOct o (fun x => if osb then { x with osb := f x.osb } else { x with osa := f x.osa }) d

/-- The synthesiser runs: OSA in any mode but OFF, OSB in SDI×8 only, OST always (R88). -/
def oscRuns (o : Nat) (osb : Bool) (d : Dev) : Bool :=
  decide (LOADER ≤ d.mode ∧ o ≤ 24) && (if osb then decide (o < 24 ∧ (tget d.octets o).mode = 0)
    else decide (o = 24 ∨ (tget d.octets o).mode ≠ 0xF))

/-- OCTET_SYNTH_LOSS_OF_LOCK (R89): its transmitters go to electrical idle, which TXSTATE shows, and the source reports. -/
def execOctetSynthLossOfLock (o : Nat) (osb : Bool) (s : State) : Out :=
  onDevIf (fun d => oscRuns o osb d && (osc o osb d).locked)
    (fun d => major (0x100 + 8 * o + b2n osb) o
      (updOsc o osb (fun x => { x with locked := false, lost := true, searching := false, searchFrom := d.up }) d)) s

/-- OCTET_SYNTH_SEARCH (R89): an automatic search every 10 ms until it relocks, the first 10 ms after the loss (DESIGN CHOICE, log
entry 207). -/
def execOctetSynthSearch (o : Nat) (osb : Bool) (s : State) : Out :=
  onDevIf (fun d => oscRuns o osb d && !(osc o osb d).locked && decide ((osc o osb d).searchFrom + 10 * ms ≤ d.up))
    (fun d => updOsc o osb (fun x => { x with searching := true, searchFrom := d.up }) d) s

/-- OCTET_SYNTH_RELOCK (R77, R89): a search of five steps of 20 us ends in lock; after a loss the source records the recovery. -/
def execOctetSynthRelock (o : Nat) (osb : Bool) (s : State) : Out :=
  onDevIf (fun d => oscRuns o osb d && !(osc o osb d).locked && (osc o osb d).searching
      && decide ((osc o osb d).searchFrom + 100 * us ≤ d.up))
    (fun d =>
      let lost := (osc o osb d).lost
      let d := updOsc o osb (fun x => { x with locked := true, lost := false, searching := false }) d
      if lost then minor (0x100 + 8 * o + b2n osb) o d else d) s

/-- A lane's LOS assert threshold in mVppd (R95). -/
def losThreshold (l : Lane) : Nat := 30 + 10 * l.losTh

/-- LOS_ASSERT (R95, R96, R98): `peak` is the greatest amplitude in mVppd over the last 1 us. -/
def execLosAssert (n : Nat) (s : State) (peak : Nat := 0) : Out :=
  onDevIf (fun d => decide (LOADER ≤ d.mode ∧ n < 196 ∧ peak < losThreshold (lane n d)) && !(lane n d).los)
    (fun d => laneUnlock n (laneBump n cLOS 1 (updLane n (fun l => { l with los := true, good := 0 }) d))) s

/-- LOS_DEASSERT (R95): `least` is the least amplitude in mVppd over the last 10 us. -/
def execLosDeassert (n : Nat) (s : State) (least : Nat := 0) : Out :=
  onDevIf (fun d => decide (LOADER ≤ d.mode ∧ n < 196 ∧ losThreshold (lane n d) + 20 ≤ least) && (lane n d).los)
    (fun d => updLane n (fun l => { l with los := false, stepAt := if l.rxState = 1 then d.up else l.stepAt }) d) s

def execLaneFrequencyGate (n : Nat) (v : Int) (errs : Nat) (s : State) (start : Nat := 0) : Out :=
  onDevIf (fun d => decide (n < 196) && (lane n d).rxEn && !(lane n d).los && decide ((lane n d).rxState ≠ 6))
    (frequencyGate n v start errs) s

/-- RATE_SEARCH_STEP (R97): not locked within 1 ms, the next rate of the order is tried. -/
def execRateSearchStep (n : Nat) (s : State) : Out :=
  onDevIf (fun d => let l := lane n d
      decide (n < 192 ∧ l.rate = 0xE ∧ l.rxState = 1) && l.rxEn && l.lol && !l.los && decide (l.stepAt + ms ≤ d.up))
    (fun d => updLane n (fun l =>
      let k := (l.search + 1) % searchOrder.length
      { l with search := k, rateNow := searchOrder.getD k 6, stepAt := d.up, good := 0, bad := 0 }) d) s

/-- LANE_FREQUENCY_ACQUIRED (R99 steps 1 and 2): LOS has been clear for the 10 us of step 1; not while the reference synthesiser is unlocked (R89), and under automatic
search only at a rate that has locked (R97). -/
def execLaneFrequencyAcquired (n : Nat) (s : State) : Out :=
  onDevIf (fun d => let l := lane n d
      decide (n < 196 ∧ l.rxState = 1) && l.rxEn && !l.los && oscLocked (octetOf n) l.rateNow d
        && (decide (l.rate ≠ 0xE) || !l.lol) && decide (l.acqAt + 10 * us ≤ d.up))
    (fun d => updLane n (fun l => { l with
      rxState := 2, stepAt := d.up, adapted := false, ctleNow := if l.adapt = 2 then l.ctle else l.ctleNow,
      vgaNow := if l.adapt = 2 then l.vga else l.vgaNow }) d) s

/-- LANE_ADAPT_END (R99 step 3): coarse adaptation lasts 2 ms on NRZ, 5 ms on PAM4. -/
def execLaneAdaptEnd (n : Nat) (s : State) : Out :=
  onDevIf (fun d => let l := lane n d
      decide (n < 196 ∧ l.rxState = 2) && !l.adapted
        && decide (l.stepAt + (if l.rateNow = 0xA then 5 * ms else 2 * ms) ≤ d.up))
    (fun d => updLane n (fun l => { l with adapted := true, good := 0, bad := 0 }) d) s

def execAlignmentMarker (n : Nat) (comp : Bool) (identity : Nat) (s : State) : Out :=
  onDevIf (fun _ => decide (n < 192)) (alignmentMarker n comp identity) s

/-- ALIGN_TIMEOUT (R102): ALIGN not resolved within 2 ms of lock. -/
def execAlignTimeout (n : Nat) (s : State) : Out :=
  onDevIf (fun d => let l := lane n d; decide (n < 196 ∧ l.rxState = 3 ∧ l.stepAt + 2 * ms ≤ d.up)) (laneFail n) s

/-- The next lane to visit: the first UP lane after the last one visited, in ascending order round the octet (R103). -/
def nextVisit (o : Nat) (d : Dev) : Option Nat :=
  let ls := lanesOf o
  let x := tget d.octets o
  let order := (List.range ls.length).map fun i => ls.getD ((x.lastLane + 1 + i) % ls.length) 0
  order.find? fun n => decide ((lane n d).rxState = 4)

/-- ROVE_VISIT (R103 step 1): every DWELL seconds the spare attaches to the next UP lane. -/
def roveVisit (o : Nat) (d : Dev) : Dev :=
  match nextVisit o d with
  | none => d
  | some n => updOct o (fun x => { x with lastLane := n - (lanesOf o).headD 0, lastVisit := d.up, roveLane := n, stage := 1, visitAt := d.up }) d

def execRoveVisit (o m : Nat) (s : State) : Out :=
  onDevIf (fun d => let x := tget d.octets o
      decide (o ≤ 24 ∧ x.stage = 0) && x.roveEn && x.spare && !octIdle o d
        && (x.osa.locked && (x.osb.locked || !oscRuns o true d))
        && decide (x.lastVisit + (x.dwell : Rat) * sec ≤ d.up ∧ nextVisit o d = some m))
    (roveVisit o) s

/-- The comparison of step 4 has ended with `mism` mismatches (R103 to R105): with none the spare, with values of its own in the
continuous regime and with the working slice's otherwise, becomes the working slice; else the visit is abandoned, and the third
abandoned in a row on a lane raises the lane-marginal source. -/
def roveCompared (o mism : Nat) (d : Dev) : Dev :=
  let x := tget d.octets o
  let n := x.roveLane
  let k := n - (lanesOf o).headD 0
  if mism = 0 then
    let d := if (lane n d).adapt = 0 then laneAdapt n d else d
    laneBump n cROVE 1 (updOct o (fun x => { x with stage := 2, failRuns := tset x.failRuns k 0 }) d)
  else
    let f := tget x.failRuns k + 1
    let d := laneBump n cROVE_FAIL 1 (updOct o (fun x => { x with
      stage := 0, roveLane := 0xF, failRuns := tset x.failRuns k f }) d)
    if f = 3 then major (0x100 + 8 * o + 3) n d else d

/-- ROVE_SUBSTITUTION (R103 steps 4 and 5). -/
def execRoveSubstitution (o : Nat) (s : State) (mism : Nat := 0) : Out :=
  onDevIf (fun d => let x := tget d.octets o; decide (o ≤ 24 ∧ x.stage = 1 ∧ x.visitAt + 21100 * us ≤ d.up))
    (roveCompared o mism) s

/-- ROVE_RELEASED_SLICE_CALIBRATED (R103 step 6, R107): the released slice becomes the spare, or is retired. -/
def execRoveReleasedSliceCalibrated (o : Nat) (ok : Bool) (s : State) : Out :=
  onDevIf (fun d => let x := tget d.octets o; decide (o ≤ 24 ∧ x.stage = 2 ∧ x.visitAt + 26100 * us ≤ d.up))
    (fun d =>
      let d := updOct o (fun x => { x with stage := 0, roveLane := 0xF, spare := ok }) d
      if ok then d else major (0x100 + 8 * o + 4) o d) s

/-- TWIN_TRAINING_MARKER (R108): the marker's lane number gives the receive order; the receiver's training is resolved
and it enters UP. Training as a whole ends when both units report all four receivers UP. -/
def execTwinTrainingMarker (n laneNo : Nat) (allUp : Bool) (s : State) : Out :=
  onDevIf (fun d => decide (192 ≤ n ∧ n < 196 ∧ (lane n d).rxState = 3))
    (fun d => twinTrained allUp (laneUp n (updLane n (fun l => { l with order := laneNo % 4 }) d))) s

/-- TWIN_RECEIVER_INVERT_TOGGLE (R108). -/
def execTwinReceiverInvertToggle (n : Nat) (s : State) : Out :=
  onDevIf (fun d => decide (192 ≤ n ∧ n < 196 ∧ (lane n d).rxState = 3))
    (fun d => laneBump n cINVERT 1 (updLane n (fun l => { l with invert := !l.invert }) d)) s

end Sys2Proof.Machine
end

