-- ==== Sys2Proof/Machine/Sdi.lean ====
section
/-! DEFINITION. Chapter 4: SDI reception and transmission; the commands of family 0x03 and the events of this
chapter. -/

namespace Sys2Proof.Machine

def rx (n : Nat) (d : Dev) : SdiRx := tget d.sdiRx n
def tx (n : Nat) (d : Dev) : SdiTx := tget d.sdiTx n

/-- The lane lies on an octet in SDI×8 (R153). -/
def onSdi (n : Nat) (d : Dev) : Bool := decide (n < 192) && decide ((tget d.octets (octetOf n)).mode = 0)

/-! ### Status (R152) -/

def sdiRxStatus (n : Nat) (d : Dev) : Nat :=
  let r := rx n d
  fld r.state 29 3 + fld r.format 21 8 + fld r.mapping 17 4 + fld r.sampling 14 3 + fld (b2n r.hasPid) 13 1
    + fld r.link 10 3 + fld r.group 4 6

def sdiTxStatus (n : Nat) (d : Dev) : Nat :=
  let t := tx n d
  fld (if (drainOf (.sdiTx n) d).isSome then 3 else t.state) 30 2 + fld t.format 22 8 + fld t.mapping 18 4
    + fld (b2n t.claimOn) 17 1

/-! ### What a receiver makes of a measured frame (R121, R122) -/

/-- The 1080i format with the structure of a 1080psf format; 23.98 and 24 have none. -/
def interOf (f : Nat) : Nat := if f = 0x42 then 0x35 else if f = 0x43 then 0x36 else if f = 0x44 then 0x37 else f

/-- Mappings that one structure on the lane may be: the forms of 3G, and those of 12G. -/
def sameStructure (a b : Nat) : Bool :=
  let g3 := [2, 3, 4, 7, 8]
  (g3.contains a && g3.contains b) || (decide (a = 6 ∨ a = 9) && decide (b = 6 ∨ b = 9))

/-- Format, mapping and sampling as R122 decides them: without a payload identifier, or with one that contradicts the
structure, the configured value stands where the structure leaves a choice, and 1080i and sampling 0 where the
configured value is automatic. A link of a multi-link mapping carries the next larger raster. -/
def measured (r : SdiRx) (m : SdiMeasure) : Nat × Nat × Nat :=
  let told := m.pid.isSome && !m.contradicts
  let mp := if !told ∧ sameStructure r.cfgMapping m.mapping then r.cfgMapping else m.mapping
  let f := if told then m.format
    else if r.cfgFormat ≠ 0xFF ∧ interOf r.cfgFormat = interOf m.format then r.cfgFormat else interOf m.format
  (if 7 ≤ mp ∧ mp ≤ 9 ∧ (rasterCode f = 5 ∨ rasterCode f = 6) then f + 0x10 else f, mp,
   if told then m.sampling else if r.cfgSampling ≠ 0xFF then r.cfgSampling else 0)

/-- The measured frame agrees with the configuration (R121). -/
def agrees (r : SdiRx) (m : SdiMeasure) : Bool :=
  let x := measured r m
  m.supported && sdiCarries x.2.1 x.1 x.2.2 && (decide (r.cfgFormat = 0xFF) || decide (r.cfgFormat = x.1))
    && (decide (r.cfgMapping = 0xFF) || decide (r.cfgMapping = x.2.1))
    && (decide (r.cfgSampling = 0xFF) || decide (r.cfgSampling = x.2.2))

/-- Data streams of a lane rate: of the mappings that it carries (R117; log entry 12). -/
def rateStreams (rate : Nat) : Nat :=
  if rate = 2 ∨ rate = 3 then 2 else if rate = 4 ∨ rate = 5 then 4 else if rate = 6 ∨ rate = 7 then 8 else 1

/-- The number of data streams whose alignment the receiver needs (R127): those of the configured mapping, and while it is
automatic those that the lane's rate brings. A framer's mapping is its flow's. -/
def streamsOf (n : Nat) (d : Dev) : Nat :=
  let r := rx n d
  if r.cfgMapping ≠ 0xFF then dataStreams r.cfgMapping
  else if n < 192 then rateStreams (lane n d).rateNow
  else 1

/-- Every data stream holds word alignment. -/
def allAligned (n : Nat) (d : Dev) : Bool := (List.range (streamsOf n d)).all fun i => (tget (rx n d).streams i).held.isSome

/-- Receiver groups are numbered 0 to 47, transmitter groups 64 on in the table. -/
def mlink (g : Nat) (d : Dev) : MultiLink := tget d.mlinks g

/-- The reference link of a receive group: the lowest-numbered link in LOCKED (R132). -/
def referenceLink (g : Nat) (d : Dev) : Option Nat :=
  let m := mlink g d
  [1, 2, 3, 4].findSome? fun k => m.lanes.find? fun n => decide ((rx n d).link = k ∧ (rx n d).state = 3)

/-- The ended frame of a link pairs with the reference link's frame whose line-1 TRS came nearest: within W lines of the link
format (R132). -/
def paired (n : Nat) (d : Dev) : Bool :=
  let r := rx n d
  if r.group = 0x3F then true
  else match referenceLink r.group d with
  | none => false
  | some k =>
    let q := rx k d
    let w := ((mlink r.group d).window : Rat) * linePeriod (linkFormat r.mapping r.format)
    decide (k = n) || decide (absQ (r.start - q.start) ≤ w) || decide (absQ (r.start - q.prevStart) ≤ w)

/-- Lines of an essence's frame with a CRC or EDH error. -/
def errorLines (r : SdiRx) (e : Nat) : Nat := (r.errAt.filter fun x => decide (x.1 = e)).length

/-- The frame that a receiver began in LOCKED ends (R125): each essence's is ready, or abandoned when too many of its lines had
errors, a TRS was absent, or a link's frame lies outside the pairing window (R128, R132). -/
def endFrame (n : Nat) (ok : Bool) (d : Dev) : Dev :=
  let r := rx n d
  if r.state ≠ 3 ∨ !r.began then d
  else
    let fit := paired n d
    let d := if ok ∧ !fit then rxBump n rxML_WINDOW d else d
    let d := (essences r).foldl (fun d e =>
      if !ok ∨ !fit ∨ r.trsLost ∨ (r.crcLimit ≠ 0 ∧ r.crcLimit < errorLines r e) then abandonSdi n e (rxBump n rxABANDON d)
      else rxBump n rxREADY d) d
    updRx n (fun r => { r with
      began := false, done := (essences r).map fun e => (e, pictureOf r.mapping r.format r.sampling e r.rows),
      doneBad := (essences r).map fun e => (e, (r.badWords.filter fun w => decide (w.1 = e)).map (·.2)) }) d

/-- The link numbers of a group (R131): from the payload identifiers when all four carry one and differ, otherwise the order of
the lanes in the command. -/
def setLinks (n : Nat) (m : SdiMeasure) (d : Dev) : Dev :=
  let r := rx n d
  if r.group = 0x3F then d
  else
    let ls := (mlink r.group d).lanes
    let d := updRx n (fun r => { r with pidLink := if m.pid.isSome ∧ !m.contradicts then m.link else 0 }) d
    let links := ls.map fun k => (rx k d).pidLink
    let good := links.all (fun k => decide (1 ≤ k ∧ k ≤ 4)) && decide (links.eraseDups.length = links.length)
    (ls.zip (if good then links else [1, 2, 3, 4])).foldl (fun d x => updRx x.1 (fun r => { r with link := x.2 }) d) d

/-- A link is affected by the fallback of R131: it carries no payload identifier, or the number of another link. -/
def linkUnsure (n : Nat) (d : Dev) : Bool :=
  let r := rx n d
  decide (r.group ≠ 0x3F) && (decide (r.pidLink = 0)
    || (mlink r.group d).lanes.any fun k => decide (k ≠ n ∧ (rx k d).pidLink = r.pidLink))

/-- A receiver, or the flow of a framer, is draining: it begins no further frame (R30). -/
def rxDrains (n : Nat) (d : Dev) : Bool :=
  (drainOf (.sdiRx n) d).isSome || d.drains.any fun x => match x.func with
    | .rxFlow f => decide (192 ≤ n ∧ (rxFlow f d).type = 5 ∧ (rxFlow f d).dest = n - 192)
    | _ => false

/-- SDI_FRAME_BOUNDARY (R121, R122, R125, R131 to R133, R154): the line-1 TRS ends a frame, the changes that wait for it
(`changes`) apply, and the next frame begins. -/
def sdiBoundary (n : Nat) (m : SdiMeasure) (changes : Dev → Dev) (d : Dev) : Dev :=
  let r := rx n d
  let d := changes (if r.state = 3 then endFrame n (agrees r m) d else d)
  let r := rx n d
  if !r.en ∨ r.state < 2 then d
  else
    let x := measured r m
    let st := if r.measuring then (if agrees r m then 3 else 4) else 2
    let d := updRx n (fun r => { r with
      state := st, measuring := decide (st = 2 ∨ st = 3),
      format := if r.measuring then x.1 else r.format, mapping := if r.measuring then x.2.1 else r.mapping,
      sampling := if r.measuring then x.2.2 else r.sampling,
      hasPid := m.pid.isSome, pid := m.pid.getD r.pid, errAt := [], counted := [], rows := [], badWords := [], trsLost := false,
      streams := tmap r.streams fun _ a => { a with line := 1 }, prevStart := r.start,
      start := d.house, began := decide (st = 3) && !rxDrains n d, rateBad := [] }) d
    let d := if st = 3 ∧ r.state = 2 then clearFifos n d else d
    let d := setLinks n m d
    let d := if m.contradicts ∨ linkUnsure n d then rxBump n rxPID d else d
    let d := if (rx n d).group ≠ 0x3F ∧ referenceLink (rx n d).group d = some n then
        { d with
            mlinks := tupd d.mlinks (rx n d).group fun g =>
            { g with window := g.next.getD g.window, next := none } }
      else d
    -- R56, R60: a receiver in LOCKED gives its candidate a frame phase.
    if st = 3 then
      match candOf 3 n d with
      | some c =>
        -- A receiver that has been out of LOCKED starts the hold-off again (R57).
        let d := if r.state = 3 then d else loseSource 3 n d
        measurePhase c 0 (updCand c (fun c => { c with present := true }) d)
      | none => d
    else if r.state = 3 then loseSource 3 n d else d

/-! ### Word alignment (R119, R120, R127) -/

/-- An expected TRS is absent (R119): the frame has lost a TRS, and the fourth in a row drops the data stream's alignment and
returns the receiver to SEARCH. -/
def trsAbsent (n stream : Nat) (d : Dev) : Dev :=
  let r := rx n d
  let a := tget r.streams stream
  if a.held.isNone then d
  else if 4 ≤ a.absent + 1 then
    sdiToSearch n (updRx n (fun r => { r with trsLost := true, streams := tset r.streams stream default }) d)
  else updRx n (fun r => { r with trsLost := true, streams := tset r.streams stream { a with absent := a.absent + 1 } }) d

/-- Words at a position that carry a TRS on each interleaved channel (R119, R120): the XYZ words of the data stream's own are
checked. Words that carry no TRS are none. -/
def trsStep (n stream pos : Nat) (ws : List Nat) (d : Dev) : Dev :=
  let k := streamsOf n d
  match trsOf ws with
  | none => d
  | some (ways, xyz) =>
    if k ≤ stream then d
    else
      let per := max 1 (ways / k)
      let checks := (List.range per).map fun i => (checkXyz (xyz.getD (per * stream + i) 0)).1
      if checks.contains .poisoned then trsAbsent n stream d
      else
        let d := updRx n (fun r => { r with ctrs := bumpBy r.ctrs rxTRS_FIX (checks.filter fun c => decide (c = .corrected)).length }) d
        let a := tget (rx n d).streams stream
        let run := if a.run ≠ 0 ∧ a.last = pos then a.run + 1 else 1
        let a' : Align := { last := pos, run := run, held := if 2 ≤ run then some pos else a.held,
                            absent := if a.held = some pos then 0 else a.absent, line := a.line }
        let d := updRx n (fun r => { r with streams := tset r.streams stream a' }) d
        if (rx n d).state = 1 ∧ allAligned n d then updRx n (fun r => { r with state := 2, measuring := false }) d else d

/-- SDI_TRS (R119): the coded bits of a lane at a position. -/
def sdiTrs (n stream pos : Nat) (coded : List Bool) (d : Dev) : Dev := trsStep n stream pos (serialWords coded) d

/-! ### Lines, ancillary data and audio (R123, R124, R134 to R141) -/

/-- A line of an essence counts once in a counter, however many of its data streams show the fault (R123, R124). -/
def countLine (n k e line : Nat) (d : Dev) : Dev :=
  if (rx n d).counted.contains (k, e, line) then d
  else rxBump n k (updRx n (fun r => { r with counted := (k, e, line) :: r.counted }) d)

/-- A line of an essence has an error for CRC_LIMIT (R125). -/
def errorLine (n e line : Nat) (d : Dev) : Dev :=
  updRx n (fun r => { r with errAt := if r.errAt.contains (e, line) then r.errAt else (e, line) :: r.errAt }) d

/-- The receiver runs at SD. -/
def onSd (r : SdiRx) : Bool := decide (r.mapping = 0 ∨ (r.mapping = 0xF ∧ r.cfgMapping = 0))

/-- SDI_LINE (R123, R124, R127): the words of a line of one data stream, from the first after SAV to the CRC words that follow the
next EAV, in `y` and, where the data stream has one, `c` for the C channel. On SD `y` holds the active words and `c` those of the
horizontal blanking. The line-number and CRC words are checked, and the line is kept at the receiver's own count. -/
def storeLine (n stream : Nat) (y c : List Nat) (d : Dev) : Dev :=
  let r := rx n d
  let a := tget r.streams stream
  if r.state < 2 ∨ a.line = 0 then d
  else
    let l := a.line
    let e := if r.mapping = 4 then stream % 2 else 0
    let f := streamFormat (if r.format = 0xFF then r.cfgFormat else r.format)
    let d := updRx n (fun r => { r with streams := tset r.streams stream { a with line := l + 1 } }) d
    if onSd r then
      let x := edhStep f l c y (r.edhFf, r.edhAp)
      updRx n (fun r => { r with rows := tset r.rows (stream * 4096 + l) (y, []), edhFf := x.1, edhAp := x.2 }) d
    else
      let next (ws : List Nat) : Bool := let v := lineNumberOf ws
        decide (v = l + 1) || (decide (v = 1) && (decide (r.format = 0xFF) || decide (l = totalLines f)))
      -- Level A and 12G carry Y and C on data streams of their own.
      let chroma := decide (c = [] ∧ stream % 2 = 1)
      let badC := if c = [] then chroma && !lineCrcOk y else !lineCrcOk c
      let badY := !chroma && !lineCrcOk y
      let d := if !next y ∨ (c ≠ [] ∧ !next c) then countLine n rxLN_ERR e l d else d
      let d := if badY then countLine n rxCRC_Y e l d else d
      let d := if badC then countLine n rxCRC_C e l d else d
      let d := if badY ∨ badC then errorLine n e l d else d
      updRx n (fun r => { r with rows := tset r.rows (stream * 4096 + l) (activeOf y, activeOf c) }) d

/-- The frame row that a line of a data stream carries, of a divided picture too (R117, R241). -/
def pictureRow (mapping f stream line : Nat) : Option Nat :=
  (rowOfLine (streamFormat f) line).map fun r =>
    if mapping = 5 then 2 * r + stream / 2 else if mapping = 6 ∨ mapping = 9 then 2 * r + stream / 4 else r

/-- SDI_LINE: the line is stored, and leaves the line buffer, where the checker reads its words; `buf` lists those in error, by
their number on the row (R23, R26). One found uncorrectable goes on poisoned. -/
def sdiLine (n stream : Nat) (y c : List Nat) (buf : List WordErr) (d : Dev) : Dev :=
  let r := rx n d
  let e := if r.mapping = 4 then stream % 2 else 0
  match pictureRow r.mapping r.format stream (tget r.streams stream).line with
  | none => storeLine n stream y c d
  | some row =>
    buf.foldl (fun d w =>
      let k := sramCheck 0x1D0 n (n * 65536 + w.1) w.2 d
      if k.1 then updRx n (fun r => { r with badWords := r.badWords ++ [(e, row, w.1)] }) k.2 else k.2) (storeLine n stream y c d)

/-- An EDH packet of SD (R124): its CRCs and flags are checked against the field received. -/
def edhPacket (n : Nat) (p : AncPacket) (d : Dev) : Dev :=
  let r := rx n d
  if onSd r && edhError p.udw r.edhFf r.edhAp then errorLine n 0 p.line (countLine n rxEDH 0 p.line d) else d

/-- The action of the ancillary filter on a packet (R135): the first entry that matches; keep where none does. -/
def filterKeeps (r : SdiRx) (did sdid : Nat) : Bool :=
  match (List.range 16).find? fun i =>
    let f := tget r.filter i
    decide (f.action ≠ 0 ∧ f.did = did) && (decide (f.sdid = 0) || decide (f.sdid = sdid)) with
  | some i => decide ((tget r.filter i).action = 1)
  | none => true

/-- User data words as bytes. -/
def udwBytes (l : List Nat) : List Byte := l.map fun v => BitVec.ofNat 8 (v % 256)

/-- A claim packet with a good CRC (R149): version 1, twelve user data words. -/
def claimPacketOk (udw : List Nat) : Bool :=
  let b := udwBytes udw
  decide (b.length = 12) && decide (u8 b 0 = 1) && decide (beNat (b.drop 10) = (crc16 (b.take 10)).toNat)

/-- A packet as the receiver stores it (R136): with its own link number and the field that the packet's line lies in, and S set on
3G and higher mappings. -/
def storedPacket (r : SdiRx) (p : AncPacket) : AncPacket :=
  { p with
    link := if r.group = 0x3F then 0 else r.link, field := secondField (streamFormat r.format) p.line,
    s := decide (2 ≤ r.mapping), stream := if 2 ≤ r.mapping then p.stream else 0 }

/-- SDI_ANC_PACKET (R134 to R136): a packet of a receiver that holds word alignment is checked and consumed; one that passes
the filter is stored with a frame that is written, in LOCKED (R121). -/
def ancPacket (n : Nat) (p : AncPacket) (d : Dev) : Dev :=
  let r := rx n d
  let did := p.did % 256
  let sdid := p.sdid % 256
  if r.state < 2 then d
  else if !ancOk p then rxBump n rxANC_BAD d
  else if (audioDid r.mapping did).isSome then d
  else if did = 0xF4 then edhPacket n p d
  else if did = 0x41 ∧ sdid = 0x01 then d
  else if did = 0x52 ∧ sdid = 0x46 then
    if claimPacketOk p.udw then
      let b := udwBytes p.udw
      rxBump n rxCLAIM (updRx n (fun r => { r with
        claim := BitVec.ofNat 32 (beNat ((b.drop 2).take 4)), claimFc := BitVec.ofNat 32 (beNat ((b.drop 6).take 4)) }) d)
    else d
  else if r.state ≠ 3 then d
  else if filterKeeps r did sdid then keepAnc n (storedPacket r p) (rxBump n rxANC_KEPT d)
  else rxBump n rxANC_FILTERED d

/-- One de-embedded sample of channel `ch` (1 to 32) of an essence (R140, R141). -/
def deembed (n e ch : Nat) (x : EmbSample) (d : Dev) : Dev :=
  let r := rx n d
  let i := e * 32 + (ch - 1)
  let pair := tget r.pairs (e * 16 + (ch - 1) / 2)
  match tget r.audio i with
  | 0 => d
  | src + 1 =>
    if pair.1 ≠ 0 ∧ pair.1 ≠ fsHz d then
      (if r.rateBad.contains i then d
       else rxBump n rxAUD_BAD (updRx n (fun r => { r with rateBad := r.rateBad ++ [i] }) d))
    else
      let bits := csNext (tget r.csBits i) x.c x.z
      let whole := decide (bits.length = 192)
      let d := updRx n (fun r => { r with csBits := tset r.csBits i (if whole then [] else bits) }) d
      let d := if whole then setSourceCs src bits d else d
      let d := wantConverter src pair.2 d
      let s := audSrc src d
      if s.asrc then rxBump n rxAUD_SAMPLES d
      else if s.wantAsrc ∨ !fifoRoom src d then d
      else rxBump n rxAUD_SAMPLES (depositSample src (if r.mapping = 0 ∧ !x.ext then x.sample &&& 0xFFFFF0 else x.sample) x.v x.u x.c x.z d)

/-- SDI_AUDIO_PACKET (R139 to R141): only in LOCKED, and of a multi-link group only on link 1. The DID names the group; a control
packet sets what the group's AES pairs are, a data packet brings the samples of its channels. -/
def audioPacket (n : Nat) (p : AudioPacket) (d : Dev) : Dev :=
  let r := rx n d
  match audioStream r.mapping p.stream, audioDid r.mapping p.did with
  | some e, some (kind, g) =>
    if r.state ≠ 3 ∨ (r.group ≠ 0x3F ∧ r.link ≠ 1) then d
    else if !p.ok then rxBump n rxAUD_BAD d
    else if kind = 2 then
      updRx n (fun r => { r with pairs := p.pairs.zipIdx.foldl (fun t x => tset t (e * 16 + 2 * (g - 1) + x.2) x.1) r.pairs }) d
    else if kind = 1 then d
    else p.samples.foldl (fun d x => deembed n e (4 * (g - 1) + x.channel) x d) d
  | _, _ => d

/-! ### Transmission (R142 to R150) -/

/-- The claim packet's user data words (R149). -/
def claimUdw (link : Nat) (claim : Word) (k : Nat) : List Nat :=
  let be (w n : Nat) := ((le n w).reverse).map fun b => b.toNat
  let head := [1, link] ++ be claim.toNat 4 ++ be (k % 2 ^ 32) 4
  head ++ be (crc16 (udwBytes head)).toNat 2

/-- Link or stream number of UDW1: 1 to 4 in a group, 0 otherwise; level B-DS numbers its streams. -/
def txLink (t : SdiTx) : Nat := if t.group = 0x3F then 0 else t.link

/-- The streams that carry a claim packet, with their UDW1 (R149): data stream 1, or each stream of level B-DS. -/
def claimStreams (t : SdiTx) : List (Nat × Nat) := if t.cfgMapping = 4 then [(0, 0), (1, 1)] else [(0, txLink t)]

/-- The packets that a transmitter generates for a frame, in the order in which they take their lines: claim packets, payload
identifiers on each data stream, and on SD an EDH packet for each field (R138, R149). -/
def madePackets (t : SdiTx) (f : Nat) (claim : Option Word) (k ff ap : Nat) : List AncPacket :=
  let ds := streamFormat f
  (match claim with
   | some c => (claimStreams t).map fun x => madePacket (claimLine ds) x.1 0x52 0x46 ((claimUdw x.2 c k).map parityWord)
   | none => [])
  ++ (if t.st352 then
        (pidLines ds).flatMap fun l => (List.range (dataStreams t.cfgMapping)).map fun s =>
          madePacket l s 0x41 0x01 (((le 4 (Config.payloadId t.cfgMapping f t.cfgSampling (txLink t)).toNat).reverse).map fun b => parityWord b.toNat)
      else [])
  ++ (if t.cfgMapping = 0 then (edhLines ds).map fun l => madePacket l 0 0xF4 0x00 (edhUdw ff ap) else [])

/-- The ring's packets that a transmitter inserts (R137): those of its link, on the data streams that its mapping has; never a
stored payload identifier (R138). -/
def ringPackets (t : SdiTx) (ps : List AncPacket) : List AncPacket :=
  (ps.filter fun p => (decide (t.group = 0x3F) || decide (max 1 p.link = t.link)) && decide (¬(p.did % 256 = 0x41 ∧ p.sdid % 256 = 0x01))).map
    fun p => { p with
      stream := if p.stream < dataStreams t.cfgMapping then p.stream else 0, c := p.c && pairedChannels t.cfgMapping }

/-- The active-picture CRC of the last field of the frame before (R138), from its lines. -/
def lastAp (f : Nat) (ls : List TxLine) : Nat := (ls.foldl (fun c l => edhStep f l.line [] l.y c) (0, 0)).2

/-- One transmitter begins frame `k` (R137, R144 to R146, R149, R150): lines before the switching line still carry the packets of
the frame shown before. The full-field CRC of an EDH packet covers audio words that the model does not write out: a free value. -/
def txBegin (n k slot : Nat) (d : Dev) : Dev :=
  let t := tx n d
  let f := tgFormat (rasterTg slot d) d
  let ds := streamFormat f
  let sw := switchLine ds
  let here := if t.ancIns then ringPackets t (rasterAnc slot d) else []
  let claim := if t.claimIns ∧ claimSupplied d ≠ 0 then some (claimSupplied d) else none
  let made := madePackets t f claim k (freeNat d % 65536) (lastAp ds t.lines)
  let d := if t.cfgMapping = 0 then useFree d else d
  let a := placePackets t.cfgMapping f sw made t.low
  let b := placePackets t.cfgMapping f 0 a.1 (here.filter fun p => decide (p.line = 0 ∨ sw ≤ p.line))
  let out := b.1.filter fun p => decide (p.line ≤ totalLines ds)
  let late := (b.1.filter fun p => decide (totalLines ds < p.line)).map fun p => { p with line := 1 }
  let d := updTx n (fun t => { t with
    state := 2, format := f, mapping := t.cfgMapping, frames := t.frames + 1, claimOn := claim.isSome, lastK := some k,
    claimUdw := match claim with
      | some c => claimUdw (txLink t) c k
      | none => t.claimUdw,
    out := out, low := late ++ here.filter fun p => decide (1 ≤ p.line ∧ p.line < sw), emb := [],
    lines := txLines t.cfgMapping f t.cfgSampling (linkPicture t (raster slot d).sent) out }) d
  let d := txBump n 0x40 1 (txBump n 0x48 (out.length - made.length) (txBump n 0x50 (a.2 + b.2) d))
  if claim.isSome then txBump n 0x60 (claimStreams t).length d else d

/-- A transmitter may begin frame `k` of its timing group (R91, R142). -/
def txMay (n k slot : Nat) (d : Dev) : Bool :=
  let t := tx n d
  t.en && outputsRun d && rasterReads slot d && decide (k = tgIndex (timGroup (rasterTg slot d) d) d.house) && decide (t.lastK ≠ some k)
    && (decide (192 ≤ n) || (oscLocked (octetOf n) (lane n d).txRate d && (lane n d).txEn))

/-- The transmitters that begin with `n`: the four of its group (R143). -/
def txMates (n : Nat) (d : Dev) : List Nat := if (tx n d).group = 0x3F then [n] else (mlink ((tx n d).group + 64) d).lanes

/-- The codes of one word of a line buffer are free values: it was uncorrectable, and the manual names no substitute. -/
def spoilCodes (n k free : Nat) (ws : List Nat) : List Nat :=
  ws.zipIdx.map fun v => if v.2 / n = k then (Config.freeValue (free + v.2)).toNat % 1024 else v.1

/-- The line-buffer checker of a transmitter (R23, R26): `buf` lists words in error of the frame's lines, a word's number being
1,024 × the line's place in the frame + the word of the line. -/
def checkTxLines (n : Nat) (buf : List WordErr) (d : Dev) : Dev :=
  buf.foldl (fun d w =>
    let k := sramCheck 0x1D1 n (n * 2 ^ 24 + w.1) w.2 d
    if !k.1 then k.2
    else
      let g := wordSamples (tx n k.2).cfgSampling
      useFree (updTx n (fun t => { t with
        lines := t.lines.zipIdx.map fun l =>
          if l.2 = w.1 / 1024 then { l.1 with y := spoilCodes g (w.1 % 1024) k.2.free l.1.y, c := spoilCodes g (w.1 % 1024) k.2.free l.1.c }
          else l.1 }) k.2)) d

/-- SDI_TX_FRAME_START (R142, R143): output frame `k` (R345) begins, on the four transmitters of a group in one cycle. -/
def txFrame (n k : Nat) (buf : List WordErr) (d : Dev) : Dev :=
  match rasterOfSdiTx n d with
  | none => d
  | some slot =>
    if (txMates n d).all (fun m => txMay m k slot d) then
      checkTxLines n buf ((txMates n d).foldl (fun d m => txBegin m k slot d) d)
    else d

/-! ### Audio embedding (R146 to R148) -/

/-- A channel of a group as sent: its destination's sample, or a zero sample marked valid (R147). -/
def embSample (t : SdiTx) (s ch idx : Nat) (rate96 : Bool) (x : Sample) : EmbSample :=
  let b := tget t.cs (s * 16 + (ch - 1) / 2)
  ⟨(ch - 1) % 4 + 1, x.v24, x.v, x.u, csBit (csBlock b.host b.bytes rate96) (idx % 192), decide (idx % 192 = 0), true⟩

/-- A transmitter in ACTIVE embeds the samples of block `n` of its destinations (R147): for each sample instant one packet for each
group that has a mapped channel, on the line after the one in which the instant falls, with the clocks into it as the phase. -/
def embedTake (m n : Nat) (d : Dev) : Dev :=
  let t := tx m d
  match rasterOfSdiTx m d with
  | none => d
  | some slot =>
    if t.state ≠ 2 ∨ !outputsRun d then d
    else
      let g := timGroup (rasterTg slot d) d
      let ds := streamFormat g.format
      -- R148: a new block takes effect at the Z flag.
      let t := if n * spb d % 192 = 0 then { t with
          cs := tmap t.cs fun _ b => match b.next with
            | some (h, l) => { host := h, bytes := l, next := none }
            | none => b } else t
      let streams := if t.cfgMapping = 4 then [0, 1] else [0]
      let groups (s : Nat) : List Nat := (List.range 8).filter fun q => (List.range 4).any fun c => decide (tget t.audio (s * 32 + 4 * q + c) ≠ 0)
      let word (s ch j : Nat) : Sample := match tget t.audio (s * 32 + (ch - 1)) with
        | 0 => {}
        | k + 1 => (destWords k d).getD j {}
      let packets := (List.range (spb d)).flatMap fun j =>
        let idx := n * spb d + j
        let at_ : Time := (idx : Rat) * 1000000000 / (fsHz d : Rat) + 250 * us
        let into := at_ - tgTime g (tgIndex g at_)
        let line := (into / linePeriod ds).floor.toNat
        let phase := ((into - (line : Rat) * linePeriod ds) * (lineSamples ds : Rat) / linePeriod ds).floor.toNat
        streams.flatMap fun s => (groups s).map fun q =>
          { stream := s, line := embedLine g.format (line + 1), group := q + 1, phase := phase,
            frameNo := if fractionalRate g.format then (t.frames - 1) % 5 + 1 else 0,
            samples := (List.range 4).map fun c => embSample t s (4 * q + c + 1) idx d.aud.rate96 (word s (4 * q + c + 1) j) : EmbPacket }
      let mapped := (streams.flatMap fun s => (List.range 32).filter fun c => decide (tget t.audio (s * 32 + c) ≠ 0)).length
      txBump m 0x58 (mapped * spb d) (updTx m (fun x => { x with cs := t.cs, emb := x.emb ++ packets }) d)

/-- Every transmitter takes block `n` of its destinations (R147, R356). -/
def embedBlock (n : Nat) (d : Dev) : Dev := (tfind d.sdiTx fun t => decide (t.state = 2 ∧ t.audio ≠ [])).foldl (fun d m => embedTake m n d) d

/-! ### Commands of family 0x03 (R153 to R155) -/

def sdiLane : Fld := rng 0 2 0 191

/-- An unstaged change of a receiver takes effect at its input's next frame boundary; with no frame running, at once
(R154; log entry 13). -/
def rxPoint (n : Nat) (d : Dev) : Point := if 2 ≤ (rx n d).state then .laneFrame n else .now

/-- An unstaged change of a transmitter takes effect at its timing group's next frame boundary (R154). -/
def txPoint (n : Nat) (d : Dev) : Point :=
  match rasterOfSdiTx n d with
  | some slot => .frame (rasterTg slot d) d.house
  | none => .now

def txCommit (n : Nat) (d : Dev) (t : Time) : Point :=
  match rasterOfSdiTx n d with
  | some slot => .frame (rasterTg slot d) t
  | none => .strobe t

/-- The next 125 us block. -/
def nextBlock (t : Time) : Nat := indexAtOrAfter t 0 (125 * us)

/-- Some combination of R117 fits a configuration in which 0xFF accepts anything. -/
def sdiPossible (mapping f sampling : Nat) : Bool :=
  let ms := if mapping = 0xFF then [0, 1, 2, 3, 4, 5, 6] else [mapping]
  let fs := if f = 0xFF then (List.range 128).filter definedFormat else [f]
  let ss := if sampling = 0xFF then [0, 1, 2, 3, 4, 5] else [sampling]
  ms.any fun m => fs.any fun f => ss.any fun s => sdiCarries m f s

/-- A receiver whose configuration has changed enters VERIFY where every data stream of the mapping holds word alignment, else
SEARCH (R121, R127, R154); `old` is its state before. -/
def reconfigured (n old : Nat) (d : Dev) : Dev :=
  updRx n (fun r => { r with
    state := if old ≤ 1 ∨ allAligned n d = false then 1 else 2, measuring := false, began := false, rows := [] }) d

/-- The lane of a receiver or transmitter lies on an SDI×8 octet with that direction enabled (R155, code 0x0010). -/
def sdiUsable (n : Nat) (rcv : Bool) (d : Dev) : Bool := onSdi n d && (if rcv then (lane n d).rxEn else (lane n d).txEn)

/-- The rate code of a lane for its family (R130): the configured one, or while that is automatic the one found. -/
def familyRate (n : Nat) (rcv : Bool) (d : Dev) : Nat :=
  let l := lane n d
  if !rcv then l.txRate else if l.rate = 0xE then l.rateNow else l.rate

/-- Two lanes run at rate codes of one family, as far as both are known. -/
def oneFamily (a b : Nat) : Bool := decide (0xE ≤ a ∨ 0xE ≤ b ∨ a % 2 = b % 2)

def cmdSdiRxConfig : CmdSpec where
  opcode := 0x0301
  len := len 12
  fields _ := [sdiLane, fok 2 1 (fun v => decide (v = 0xFF) || definedFormat v),
    fok 3 1 (fun v => decide (v ≤ 6 ∨ v = 0xFF)), fok 4 1 (fun v => decide (v ≤ 5 ∨ v = 0xFF)), res 5 1, rng 6 2 0 1125, res 8 4]
  stageable := true
  obj p := [u16 p 0]
  removal p := some ⟨0x0302, le 4 0 ++ p.take 2 ++ le 2 0⟩
  check a d :=
    let p := a.payload
    let n := u16 p 0
    firstOf [
      refuseIf (drainOf (.sdiRx n) d).isSome 0x0002,
      refuseIf (!sdiUsable n true d) 0x0010,
      refuseIf (decide ((rx n d).group ≠ 0x3F)) 0x0012,
      refuseIf (!sdiPossible (u8 p 3) (u8 p 2) (u8 p 4)) 0x0011,
      refuseIf (decide (u8 p 3 ≠ 0xFF) && !rateCarries (lane n d).rate (u8 p 3) (u8 p 2)) 0x0014]
  point p d := rxPoint (u16 p 0) d
  apply a d :=
    let p := a.payload
    let n := u16 p 0
    let old := rx n d
    let same := decide (old.state ≠ 0 ∧ old.cfgFormat = u8 p 2 ∧ old.cfgMapping = u8 p 3 ∧ old.cfgSampling = u8 p 4)
    let put (d : Dev) : Dev := updRx n (fun r => { r with
      en := true, cfgFormat := u8 p 2, cfgMapping := u8 p 3, cfgSampling := u8 p 4, crcLimit := u16 p 6 }) d
    if same then put d else reconfigured n old.state (put (sdiAbandon n d))

def cmdSdiRxDisable : CmdSpec where
  opcode := 0x0302
  len := len 8
  fields _ := [disableWord, rng 4 2 0 191, res 6 2]
  stageable := true
  obj p := [u16 p 4]
  sheds _ := true
  check a d := firstOf [refuseIf (!sdiUsable (u16 a.payload 4) true d) 0x0010, refuseIf (decide ((rx (u16 a.payload 4) d).group ≠ 0x3F)) 0x0012]
  disables := some fun p _ => [.sdiRx (u16 p 4)]

/-- The four lanes of a SDI_MULTILINK payload. -/
def mlLanes (p : List Byte) : List Nat := [u16 p 8, u16 p 10, u16 p 12, u16 p 14]

/-- A multi-link group is dissolved: its members stand alone again. -/
def dissolve (k : Nat) (d : Dev) : Dev :=
  let d := (mlink k d).lanes.foldl (fun d n =>
    if k < 64 then updRx n (fun r => { r with group := 0x3F, link := 0 }) d
    else updTx n (fun t => { t with group := 0x3F, link := 0 }) d) d
  { d with mlinks := tset d.mlinks k default }

/-- A group that is ending dissolves once none of its members, but `n`, still drains. -/
def dissolveIfDone (k n : Nat) (d : Dev) : Dev :=
  if (mlink k d).ending && (mlink k d).lanes.all (fun m => decide (m = n)
      || (drainOf (if k < 64 then .sdiRx m else .sdiTx m) d).isNone) then dissolve k d else d

def cmdSdiMultilink : CmdSpec where
  opcode := 0x0303
  len := len 16
  fields p :=
    let gone := decide (u8 p 2 = 0xFF)
    [rng 0 1 0 47, rng 1 1 1 2, oneOf 2 1 [7, 8, 9, 0xFF], res 3 1]
      ++ (if gone then [rng 4 4 0 1]
          else [fok 4 2 (fun v => decide (u8 p 1 = 2) || decide (1 ≤ v ∧ v ≤ 256)), res 6 2, rng 8 2 0 191, rng 10 2 0 191,
                rng 12 2 0 191, rng 14 2 0 191])
  stageable := true
  obj p := [u8 p 0, u8 p 1]
  removal p := some ⟨0x0303, p.take 2 ++ [0xFF, 0] ++ le 4 0 ++ p.drop 8⟩
  sheds p := decide (u8 p 2 = 0xFF)
  check a d :=
    let p := a.payload
    let g := u8 p 0
    let rcv := decide (u8 p 1 = 1)
    let ls := mlLanes p
    let served (n : Nat) : Nat := match rasterOfSdiTx n d with
      | some slot => tgFormat (rasterTg slot d) d
      | none => 0xFF
    if u8 p 2 = 0xFF then none
    else firstOf [
      refuseIf (ls.any fun n => (drainOf (if rcv then .sdiRx n else .sdiTx n) d).isSome) 0x0002,
      refuseIf (ls.any fun n => !sdiUsable n rcv d) 0x0010,
      refuseIf (decide (ls.eraseDups.length ≠ 4) || ls.any (fun n =>
        let h := if rcv then (rx n d).group else (tx n d).group
        decide (h ≠ 0x3F ∧ h ≠ g))) 0x0012,
      refuseIf (ls.any fun n => ls.any fun m => !oneFamily (familyRate n rcv d) (familyRate m rcv d)) 0x0012,
      refuseIf (rcv && decide ((if u8 p 2 = 9 then 2250 else 1125) < 4 * u16 p 4)) 0x0012,
      refuseIf (!rcv && ls.any fun n => decide (served n ≠ 0xFF) && !sdiCarries (u8 p 2) (served n) 0) 0x0011,
      refuseIf (ls.any fun n => !rateCarries (if rcv then (lane n d).rate else (lane n d).txRate) (u8 p 2) 0xFF) 0x0014]
  point p d :=
    let ls := mlLanes p
    if u8 p 2 = 0xFF then .now
    else if u8 p 1 = 1 then (match ls.find? fun n => decide (2 ≤ (rx n d).state) with
      | some n => .laneFrame n
      | none => .now)
    else (match ls.find? fun n => (rasterOfSdiTx n d).isSome with
      | some n => txPoint n d
      | none => .now)
  -- A group that does not stand has no receivers left to stop: number 256 is no receiver's, and counts as stopped.
  disables := some fun p d =>
    if u8 p 2 = 0xFF then
      let g := mlink (u8 p 0 + (if u8 p 1 = 2 then 64 else 0)) d
      (if g.used then g.lanes else [256]).map fun n => if u8 p 1 = 2 then Func.sdiTx n else Func.sdiRx n
    else []
  apply a d :=
    let p := a.payload
    let g := u8 p 0
    let rcv := decide (u8 p 1 = 1)
    let k := if rcv then g else g + 64
    let old := mlink k d
    if u8 p 2 = 0xFF then
      dissolveIfDone k 0xFFFF { d with mlinks := tupd d.mlinks k fun m => { m with ending := true } }
    else
      let ls := mlLanes p
      let keep := decide (old.used = true ∧ old.mapping = u8 p 2 ∧ old.lanes = ls)
      let d := if keep then d else dissolve k d
      let d := { d with
        mlinks := tset d.mlinks k {
        used := true, mapping := u8 p 2, lanes := ls,
        window := if keep ∧ rcv then old.window else u16 p 4, next := if keep ∧ rcv then some (u16 p 4) else none } }
      if keep then d
      else (ls.zip [1, 2, 3, 4]).foldl (fun d x =>
        if rcv then
          reconfigured x.1 (rx x.1 d).state (updRx x.1 (fun r => { r with
            group := g, link := x.2, pidLink := 0, en := true, cfgMapping := u8 p 2, cfgFormat := 0xFF,
            cfgSampling := 0xFF }) (sdiAbandon x.1 d))
        else updTx x.1 (fun t => { t with group := g, link := x.2, en := true, cfgMapping := u8 p 2,
                                          state := if t.state = 0 then 1 else t.state }) d) d

def cmdSdiAncFilter : CmdSpec where
  opcode := 0x0304
  len := len 8
  fields _ := [sdiLane, rng 2 1 0 15, rng 3 1 0 2, res 6 2]
  stageable := true
  obj p := [u16 p 0, u8 p 2]
  removal p := some ⟨0x0304, p.take 3 ++ [0] ++ p.drop 4⟩
  sheds p := decide (u8 p 3 = 0)
  check a d := refuseIf (!sdiUsable (u16 a.payload 0) true d) 0x0010
  point p d := rxPoint (u16 p 0) d
  apply a d :=
    let p := a.payload
    updRx (u16 p 0) (fun r => { r with filter := tset r.filter (u8 p 2) ⟨u8 p 3, u8 p 4, u8 p 5⟩ }) d

/-- Channels `first … first + count - 1` of a stream mapped to `base …`, or unmapped. -/
def mapAudio (t : Tab Nat) (stream first count base : Nat) : Tab Nat :=
  (List.range count).foldl (fun t i => tset t (stream * 32 + first - 1 + i) (if base = 0xFFFF then 0 else base + i + 1)) t

/-- The producer number of an SDI receiver's stream, as AUD_SRC_STATUS.ID gives it: lane × 2 + stream. -/
def sdiProducer (n stream : Nat) : Nat := n * 2 + stream

def cmdSdiAudioDeembed : CmdSpec where
  opcode := 0x0305
  len := len 8
  fields _ := [sdiLane, rng 2 1 0 1, rng 3 1 1 32, rng 4 1 1 32, res 5 1]
  stageable := true
  obj p := [u16 p 0, u8 p 2, u8 p 3, u8 p 4]
  removal p := some ⟨0x0305, p.take 6 ++ [0xFF, 0xFF]⟩
  sheds p := decide (u16 p 6 = 0xFFFF)
  check a d :=
    let p := a.payload
    let base := u16 p 6
    firstOf [
      refuseIf (!sdiUsable (u16 p 0) true d) 0x0010,
      refuseIf (decide (32 < u8 p 3 + u8 p 4 - 1)) 0x0013,
      refuseIf (decide (base ≠ 0xFFFF) && (decide (srcCount d < base + u8 p 4)
        || (List.range (u8 p 4)).any fun i => srcHeldByOther 1 (sdiProducer (u16 p 0) (u8 p 2)) (base + i) d)) 0x0013,
      refuseIf (decide (base ≠ 0xFFFF) && !poolOk ((List.range (u8 p 4)).foldl (fun d i =>
        takeSource 1 (sdiProducer (u16 p 0) (u8 p 2)) (base + i) d) d)) 0x0005]
  point _ d := .block (nextBlock d.house)
  commit _ _ t := .block (nextBlock t)
  apply a d :=
    let p := a.payload
    let n := u16 p 0
    let pid := sdiProducer n (u8 p 2)
    let old := (List.range (u8 p 4)).map fun i => tget (rx n d).audio (u8 p 2 * 32 + u8 p 3 - 1 + i)
    let d := old.foldl (fun d c => if c = 0 then d else dropSource 1 pid (c - 1) d) d
    let d := if u16 p 6 = 0xFFFF then d else (List.range (u8 p 4)).foldl (fun d i => takeSource 1 pid (u16 p 6 + i) d) d
    updRx n (fun r => { r with audio := mapAudio r.audio (u8 p 2) (u8 p 3) (u8 p 4) (u16 p 6) }) d

def cmdSdiTxConfig : CmdSpec where
  opcode := 0x0306
  len := len 8
  fields _ := [sdiLane, rng 2 1 0 6, rng 3 1 0 5, rng 4 1 0 7, res 5 3]
  stageable := true
  obj p := [u16 p 0]
  removal p := some ⟨0x0307, le 4 0 ++ p.take 2 ++ le 2 0⟩
  check a d :=
    let p := a.payload
    let n := u16 p 0
    let f := match rasterOfSdiTx n d with
      | some slot => tgFormat (rasterTg slot d) d
      | none => 0xFF
    firstOf [
      refuseIf (drainOf (.sdiTx n) d).isSome 0x0002,
      refuseIf (!sdiUsable n false d) 0x0010,
      refuseIf (decide ((tx n d).group ≠ 0x3F)) 0x0012,
      refuseIf (if f = 0xFF then !sdiPossible (u8 p 2) 0xFF (u8 p 3) else !sdiCarries (u8 p 2) f (u8 p 3)) 0x0011,
      refuseIf (!rateCarries (lane n d).txRate (u8 p 2) f) 0x0014]
  point p d := txPoint (u16 p 0) d
  commit p d t := txCommit (u16 p 0) d t
  apply a d :=
    let p := a.payload
    updTx (u16 p 0) (fun t => { t with
      en := true, cfgMapping := u8 p 2, cfgSampling := u8 p 3, claimIns := bitOf (u8 p 4) 0, st352 := bitOf (u8 p 4) 1,
      ancIns := bitOf (u8 p 4) 2, state := if t.state = 0 then 1 else t.state }) d

def cmdSdiTxDisable : CmdSpec where
  opcode := 0x0307
  len := len 8
  fields _ := [disableWord, rng 4 2 0 191, res 6 2]
  stageable := true
  obj p := [u16 p 4]
  sheds _ := true
  check a d := refuseIf (!sdiUsable (u16 a.payload 4) false d) 0x0010
  disables := some fun p _ => [.sdiTx (u16 p 4)]

def cmdSdiAudioEmbed : CmdSpec where
  opcode := 0x0308
  len := len 8
  fields _ := [sdiLane, rng 2 1 0 1, rng 3 1 1 32, rng 4 1 1 32, res 5 1]
  stageable := true
  obj p := [u16 p 0, u8 p 2, u8 p 3, u8 p 4]
  removal p := some ⟨0x0308, p.take 6 ++ [0xFF, 0xFF]⟩
  sheds p := decide (u16 p 6 = 0xFFFF)
  check a d :=
    let p := a.payload
    firstOf [
      refuseIf (!sdiUsable (u16 p 0) false d) 0x0010,
      refuseIf (decide (32 < u8 p 3 + u8 p 4 - 1)) 0x0013,
      refuseIf (decide (u16 p 6 ≠ 0xFFFF) && decide (srcCount d < u16 p 6 + u8 p 4)) 0x0013]
  point _ d := .block (nextBlock d.house)
  commit _ _ t := .block (nextBlock t)
  apply a d :=
    let p := a.payload
    updTx (u16 p 0) (fun t => { t with audio := mapAudio t.audio (u8 p 2) (u8 p 3) (u8 p 4) (u16 p 6) }) d

def cmdSdiCsSet : CmdSpec where
  opcode := 0x0309
  len := len 32
  fields _ := [sdiLane, rng 2 1 0 1, rng 3 1 1 16, rng 4 1 0 1, res 5 3, res 31 1]
  stageable := true
  obj p := [u16 p 0, u8 p 2, u8 p 3]
  check a d := refuseIf (!sdiUsable (u16 a.payload 0) false d) 0x0010
  point p d := txPoint (u16 p 0) d
  commit p d t := txCommit (u16 p 0) d t
  -- R148: the new block takes effect at the next Z flag.
  apply a d :=
    let p := a.payload
    updTx (u16 p 0) (fun t => { t with
      cs := tupd t.cs (u8 p 2 * 16 + u8 p 3 - 1) fun b =>
        { b with next := some (decide (u8 p 4 = 1), (p.drop 8).take 23) } }) d

def cmdSdiStatusRead : CmdSpec where
  opcode := 0x030A
  len := len 4
  fields _ := [sdiLane, rng 2 1 1 2, res 3 1]
  check a d := refuseIf (!sdiUsable (u16 a.payload 0) (decide (u8 a.payload 2 = 1)) d) 0x0010
  reply a _ d :=
    let n := u16 a.payload 0
    let r := rx n d
    { payload := if u8 a.payload 2 = 1 then
          le 4 (sdiRxStatus n d) ++ le 4 r.pid.toNat ++ le 4 r.claim.toNat ++ le 4 r.claimFc.toNat ++ ctrBytes r.ctrs 0x40 16
        else le 4 (sdiTxStatus n d) ++ ctrBytes (tx n d).ctrs 0x40 5 }

/-- Family 0x03. -/
def family03 : List CmdSpec :=
  [cmdSdiRxConfig, cmdSdiRxDisable, cmdSdiMultilink, cmdSdiAncFilter, cmdSdiAudioDeembed, cmdSdiTxConfig,
   cmdSdiTxDisable, cmdSdiAudioEmbed, cmdSdiCsSet, cmdSdiStatusRead]

/-- An SDI receiver stops (R32): the frame in progress is abandoned and the receiver is OFF. -/
def stopSdiRx (n : Nat) (d : Dev) : Dev :=
  let d := updRx n (fun r => { r with
    en := false, state := 0, streams := [], measuring := false, began := false, pidLink := 0, rows := [], pairs := [],
    format := 0xFF, mapping := 0xF, sampling := 7, hasPid := false }) (sdiAbandon n d)
  dissolveIfDone (rx n d).group n (loseSource 3 n d)

/-- An SDI transmitter stops (R32): electrical idle. -/
def stopSdiTx (n : Nat) (d : Dev) : Dev :=
  dissolveIfDone ((tget d.sdiTx n).group + 64) n
    (updTx n (fun t => { t with en := false, state := 0, format := 0xFF, mapping := 0xF, claimOn := false, out := [], low := [], lines := [], emb := [] }) d)

/-! ### Events -/

/-- A receiver gets words from its lane: in UP on an SDI×8 octet. A framer's come from its flow (R190). -/
def wordsArrive (n : Nat) (d : Dev) : Bool := (rx n d).en && decide (n < 192) && decide ((lane n d).rxState = 4) && onSdi n d

def execSdiTrs (n stream pos : Nat) (coded : List Bool) (s : State) : Out :=
  onDevIf (wordsArrive n) (sdiTrs n stream pos coded) s

def execSdiTrsAbsent (n stream : Nat) (s : State) : Out :=
  onDevIf (fun d => decide (n < 192) && (rx n d).en) (trsAbsent n stream) s

def execSdiLine (n stream : Nat) (y c : List Nat) (eav : List (Nat × Nat)) (buf : List WordErr) (s : State) : Out :=
  onDevIf (fun d => decide (n < 192) && (rx n d).en)
    (sdiLine n stream (y ++ eav.map (·.1)) (if c = [] then [] else c ++ eav.map (·.2)) buf) s

def execSdiAncPacket (n : Nat) (p : AncPacket) (s : State) : Out :=
  onDevIf (fun d => decide (n < 192) && (rx n d).en) (ancPacket n p) s

def execSdiAudioPacket (n : Nat) (p : AudioPacket) (s : State) : Out :=
  onDevIf (fun d => decide (n < 192) && (rx n d).en) (audioPacket n p) s

def execSdiTxFrameStart (n k : Nat) (s : State) (buf : List WordErr := []) : Out :=
  onDevIf (fun _ => decide (n < 256)) (txFrame n k buf) s

end Sys2Proof.Machine
end

