-- ==== Sys2Proof/Machine/Eth.lean ====
section
/-! DEFINITION. Chapter 5: Ethernet ports and the MAC; the commands of family 0x04 and the events of this chapter. -/

namespace Sys2Proof.Machine

/-! ### Status (R179) -/

/-- Queues of a port for which `f` holds, as bits. -/
def queueBits (f : Nat → Bool) : Nat := (List.range 8).foldl (fun n q => n + b2n (f q) * 2 ^ q) 0

/-- MAC_PORT_STATUS. Local Fault is what an enabled port's PCS signals until it is aligned. -/
def portStatus (p : Nat) (d : Dev) : Nat :=
  let x := port p d
  fld (portLink p d) 29 3 + fld (b2n (decide (x.link ≠ 0) && !x.aligned)) 28 1 + fld (b2n x.rf) 27 1
    + fld (b2n x.hiSer) 26 1 + fld (b2n x.aligned) 25 1
    + fld (queueBits fun q => (tget x.txq q).paused.isSome) 17 8 + fld (queueBits fun q => (tget x.rxq q).above) 9 8

def portCfgWord (p : Nat) (d : Dev) : Nat :=
  let x := port p d
  fld (b2n x.en) 31 1 + fld x.fec 29 2 + fld x.fc 27 2 + fld (b2n x.allmulti) 26 1 + fld (b2n x.promisc) 25 1 + fld x.pvid 12 12

def portMtuWord (p : Nat) (d : Dev) : Nat := fld (port p d).rxMtu 16 14 + fld (port p d).ctrlMtu 0 14

def bufStatus (o : Nat) (d : Dev) : Nat := fld (freeCells o d) 16 13 + fld (sharedCells o d) 0 13

/-! ### Link state (R158 to R161) -/

/-- The source of a port's link fault. -/
def linkFault (p : Nat) (d : Dev) : Dev := major (0x200 + 4 * (p / 8)) p d

/-- An UP port goes to DOWN with its report (R159). -/
def portFail (p : Nat) (highSer : Bool) (d : Dev) : Dev :=
  let up := decide ((port p d).link = 3)
  let d := portDown p highSer d
  if up then linkFault p d else d

/-- MAC_PCS_ALIGNED (R158 step 3, R544, R547): the depth of the MAC-to-lane crossing, 4 or 5 cycles, is measured and kept. -/
def execMacPcsAligned (p : Nat) (s : State) : Out :=
  onDevIf (fun d => portExists p d && decide (portLink p d = 2) && !(port p d).aligned)
    (fun d => useFree (updPort p (fun x => { x with
      link := 2, aligned := true, hiSer := false, alignedAt := d.up, depth := 4 + freeNat d % 2 }) d)) s

/-- MAC_LINK_UP (R158 step 4): 10 ms aligned without Local or Remote Fault. -/
def execMacLinkUp (p : Nat) (s : State) : Out :=
  onDevIf (fun d => let x := port p d
      portExists p d && decide (x.link = 2 ∧ x.alignedAt + 10 * ms ≤ d.up) && x.aligned && !x.rf)
    (fun d => updPort p (fun x => { x with link := 3 }) d) s

/-- High symbol error rate (R159): more than 5,560 RS symbol errors in 8,192 consecutive codewords, or 16 invalid sync headers in
125 us on a port without RS-FEC. -/
def highSer (p symErrs badHeaders : Nat) (d : Dev) : Bool :=
  if 2 ≤ (port p d).fec then decide (5560 < symErrs) else decide (16 ≤ badHeaders)

/-- MAC_LINK_DOWN (R159): an aligned port loses lock, or has a high symbol error rate; `symErrs` counts the symbol errors in the
last 8,192 codewords, `badHeaders` the invalid sync headers in the last 125 us. -/
def execMacLinkDown (p : Nat) (lockLost : Bool) (s : State) (symErrs badHeaders : Nat := 0) : Out :=
  onDevIf (fun d => portExists p d && decide ((port p d).link ≠ 0) && (port p d).aligned
      && (lockLost || highSer p symErrs badHeaders d))
    (fun d => portFail p (highSer p symErrs badHeaders d) d) s

/-- REMOTE_FAULT_RECEIVED (R160, R161). -/
def execRemoteFaultReceived (p : Nat) (s : State) : Out :=
  onDevIf (fun d => portExists p d && (decide ((port p d).link = 3) || (decide ((port p d).link = 2) && (port p d).aligned)))
    (fun d => portFlush p (updPort p (fun x => { x with link := 4, rf := true }) d)) s

/-- REMOTE_FAULT_CLEARED (R160): back to step 4 of R158. -/
def execRemoteFaultCleared (p : Nat) (s : State) : Out :=
  onDevIf (fun d => portExists p d && decide ((port p d).link = 4))
    (fun d => updPort p (fun x => { x with link := 2, rf := false, alignedAt := d.up }) d) s

/-! ### Reception (R162 to R165) -/

def isBroadcast (a : List Byte) : Bool := decide (a = [0xFF, 0xFF, 0xFF, 0xFF, 0xFF, 0xFF])
def isMulticast (a : List Byte) : Bool := (a.headD 0).getLsbD 0 && !isBroadcast a

/-- The address check (R162). -/
def addressed (p : Nat) (a : List Byte) (d : Dev) : Bool :=
  let x := port p d
  decide (a = x.addr) || isBroadcast a || (isMulticast a && x.allmulti) || x.promisc

/-- The IP protocol of a frame. -/
def ipProto (f : EthFrame) : Option Nat :=
  match f.ip with
  | some i => some i.proto
  | none => f.ipv6Proto

/-- A filter entry matches (R164). -/
def filterMatches (x : MacFilter) (p vid pcp : Nat) (f : EthFrame) (d : Dev) : Bool :=
  decide (x.action ≠ 0) && bitOf x.ports (p % 8) && (decide (x.pcp = 0xFF) || decide (x.pcp = pcp))
    && (decide (x.vid = 0xFFFF) || decide (x.vid = vid)) && (decide (x.etherType = 0) || decide (x.etherType = f.etherType))
    && (decide (x.ipProto = 0xFF) || decide (ipProto f = some x.ipProto))
    && (match x.daClass with
        | 1 => decide (f.dst = (port p d).addr)
        | 2 => isMulticast f.dst
        | 3 => isBroadcast f.dst
        | _ => true)
    && (decide (x.dport = 0) || (decide (f.l4dport = x.dport) && (decide (ipProto f = some 6) || decide (ipProto f = some 17))))

/-- Steering (R164): none drops the frame; otherwise its receive queue, and whether it is a host frame. -/
def steer (p vid pcp : Nat) (f : EthFrame) (d : Dev) : Option (Nat × Bool) :=
  let udp4 := match f.ip with
    | some i => decide (i.proto = 17)
    | none => false
  if udp4 = true ∧ (f.l4dport = 319 ∨ f.l4dport = 320) then some (7, false)
  else
    let flt := (tget d.macs (p / 8)).filter
    match (List.range 32).find? fun i => filterMatches (tget flt i) p vid pcp f d with
    | some i =>
      let x := tget flt i
      if x.action = 2 then none else some (x.queue, decide (x.action = 3))
    | none =>
      if ipProto f = some 17 then some (6, false)
      else if f.etherType = 0x0806 ∨ f.etherType = 0x88CC ∨ f.ipv6Proto = some 58
          ∨ (f.ip.isSome ∧ (ipProto f = some 1 ∨ ipProto f = some 2)) then some (5, false)
      else some (0, false)

/-- The queue that PRIO_Q names for a priority (R170). -/
def prioQueue (p prio : Nat) (d : Dev) : Nat := bits (port p d).prioQ (3 * prio + 2) (3 * prio)

/-- A pause time is applied to a transmit queue (R171): zero releases it. -/
def applyPause (p q quanta : Nat) (d : Dev) : Dev :=
  let span : Time := (quanta : Rat) * 512 / (portGbps p d : Rat)
  updQueue p 2 q (fun x => { x with paused := if quanta = 0 then none else some (d.up + span) }) d

/-- A received pause or PFC frame (R170 to R172). -/
def pauseReceived (p opcode : Nat) (times : List (Option Nat)) (d : Dev) : Dev :=
  let d := portBump p pRX_PAUSE 1 d
  let fc := (port p d).fc
  if fc = 1 ∧ opcode = 0x0001 then
    let t := (times.headD none).getD 0
    let d := (List.range 6).foldl (fun d q => applyPause p q t d) d
    if t ≠ 0 then portBump p pRX_PAUSE_IGNORED 1 d else d
  else if fc = 2 ∧ opcode = 0x0101 then
    let named := (List.range 8).filterMap fun i => (times.getD i none).map fun t => (prioQueue p i d, t)
    let d := named.foldl (fun d x => if x.1 ≤ 5 then applyPause p x.1 x.2 d else d) d
    if named.any fun x => decide (6 ≤ x.1 ∧ x.2 ≠ 0) then portBump p pRX_PAUSE_IGNORED 1 d else d
  else portBump p pRX_PAUSE_IGNORED 1 d

/-- ETH_FRAME_RECEIVE: a whole frame at an UP port (R162 to R165). -/
def ethReceive (p : Nat) (f : EthFrame) (d : Dev) : Dev :=
  let x := port p d
  let d := portBump p pFEC_CORR f.fecCorr (portBump p pFEC_UNCORR f.fecUncorr d)
  let wire := f.len + (if f.tag.isSome then 4 else 0)
  let pause := if f.etherType = 0x8808 then f.pause.filter fun x => decide (x.1 = 0x0001 ∨ x.1 = 0x0101) else none
  if wire < 64 then portBump p pRX_RUNT 1 d
  else match pause with
  | some (op, times) => pauseReceived p op times d
  | none =>
    if !addressed p f.dst d then portBump p pRX_ADDR_DROP 1 d
    else
      let vid := match f.tag with
        | some (v, _) => if v = 0 then x.pvid else v
        | none => x.pvid
      let pcp := match f.tag with
        | some (_, c) => c
        | none => 0
      match steer p vid pcp f d with
      | none => portBump p pRX_FILTER_DROP 1 d
      | some (q, host) =>
        let d := portBump p pRX_ENTERED 1 d
        if (queueOf p 1 q d).stopped ∨ !canTake p 1 q (cellsOf (min f.len x.rxMtu)) d then portBump p pRX_QUEUE_FULL 1 d
        else if x.rxMtu < f.len then portBump p pRX_OVERSIZE 1 d
        else if !f.fcsOk then portBump p pRX_FCS 1 d
        else
          -- The cell checker (R26): the frame's words are checked as one.
          let src := 0x200 + 4 * (p / 8) + 1
          let out := injectedOutcome f.cellErrs (injSymbols src d)
          checkerReport src p (checkOutcome f.cellErrs) out (
            if out = .poisoned then portBump p pRX_ABORT 1 d
            else flowControl p q (takeCells p (cellsOf f.len) (updQueue p 1 q (fun y => { y with rx := y.rx ++ [⟨p, q, vid, pcp, host, f⟩] }) d)))

def execEthFrameReceive (p : Nat) (f : EthFrame) (s : State) : Out :=
  onDevIf (fun d => blocksRun d && portExists p d && decide ((port p d).link = 3)) (ethReceive p f) s

/-- PAUSE_TIMER_EXPIRY (R171). -/
def execPauseTimerExpiry (p q : Nat) (s : State) : Out :=
  onDevIf (fun d => match (queueOf p 2 q d).paused with
      | some t => decide (q ≤ 5 ∧ t ≤ d.up)
      | none => false)
    (updQueue p 2 q (fun x => { x with paused := none })) s

/-- PAUSE_REFRESH (R173): half of PAUSE_TIME has passed since the last pause and the queue stays above XON. -/
def execPauseRefresh (p q : Nat) (s : State) : Out :=
  onDevIf (fun d => let x := queueOf p 1 q d
      portExists p d && decide ((port p d).link = 3 ∧ (port p d).fc ≠ 0) && x.above && !atXon p q d
        && decide (x.pauseAt + ((port p d).pauseTime : Rat) * 256 / (portGbps p d : Rat) ≤ d.up))
    (fun d => updPort p (fun y => { y with pauseFor := y.pauseFor.filter (· ≠ q) ++ [q] })
      (updQueue p 1 q (fun x => { x with pauseAt := d.up }) d)) s

/-! ### Transmission (R166, R167, R173) -/

/-- The content of the pending pause frame (R173): the times by priority in mode 2, one time in mode 1. -/
def pauseContent (p : Nat) (d : Dev) : List (Nat × Nat) :=
  let x := port p d
  let time (q : Nat) := if (queueOf p 1 q d).above then x.pauseTime else 0
  if x.fc = 2 then
    (List.range 8).filterMap fun i => if x.pauseFor.contains (prioQueue p i d) then some (i, time (prioQueue p i d)) else none
  else [(0, if (List.range 6).any (fun q => (queueOf p 1 q d).above) then x.pauseTime else 0)]

/-- A media packet has left: its path's SENT counter, and the greatest lateness since enable (R213, R215). -/
def mediaSent (m : Media) (d : Dev) : Dev :=
  let late := nsOf (d.house - m.sched)
  updTxFlow m.flow (fun f => { f with late := max f.late late }) (txfBump m.flow (tSENT + 8 * m.path) 1 d)

/-- ETH_FRAME_TRANSMIT: a pending pause frame leaves first; otherwise the first frame of the highest unpaused queue that
holds one. -/
def ethTransmit (p : Nat) (d : Dev) : Dev :=
  let x := port p d
  if x.pauseFor ≠ [] ∧ x.fc ≠ 0 then
    portBump p pTX_PAUSE 1 (updPort p (fun y => { y with pauseSent := pauseContent p d, pauseFor := [] }) d)
  else
    match [7, 6, 5, 4, 3, 2, 1, 0].find? fun q =>
      let y := queueOf p 2 q d
      decide (y.tx ≠ []) && (decide (6 ≤ q) || y.paused.isNone) with
    | none => d
    | some q =>
      match (queueOf p 2 q d).tx with
      | [] => d
      | f :: rest =>
        let d := giveCells p (cellsOf f.len) (updQueue p 2 q (fun y => { y with tx := rest }) d)
        -- R50, R547: a PTP message is stamped and rewritten as it departs.
        let (f, d) := match f.ptp with
          | some m =>
            let r := ptpDeparts m (stamped (tbTime m.tb d + departLag p d) d) d
            ({ f with ptp := some r.1 }, r.2)
          | none => (f, d)
        let d := updPort p (fun y => { y with lastSent := some f }) d
        let d := portBump p pTX_FRAMES 1 (portBump p pTX_BYTES f.len d)
        match f.media with
        | some m => mediaSent m d
        | none => d

def execEthFrameTransmit (p : Nat) (s : State) : Out :=
  onDevIf (fun d => blocksRun d && portExists p d && decide ((port p d).link = 3)) (ethTransmit p) s

/-! ### Rings to Perby (R174 to R176) -/

/-- Buffers of 2 KiB that a frame takes. -/
def buffersOf (f : RxHeld) : Nat := (f.frame.len + 2047) / 2048

def ringUsed (l : List RxHeld) : Nat := l.foldl (fun n f => n + buffersOf f) 0

/-- The ports of a MAC whose queue `q` holds a frame. -/
def portsWith (mac q : Nat) (d : Dev) : List Nat :=
  (List.range 8).filterMap fun j => if (queueOf (8 * mac + j) 1 q d).rx ≠ [] then some (8 * mac + j) else none

/-- The queue whose head is copied next (R174): RQ7 for the PTP ring, RQ5 down to RQ0 for the other. Which of several
ports comes first is left open (a free value). -/
def copyFrom (mac : Nat) (ptp : Bool) (d : Dev) : Option (Nat × Nat) :=
  (if ptp then [7] else [5, 4, 3, 2, 1, 0]).findSome? fun q =>
    let ps := portsWith mac q d
    if ps = [] then none else some (ps.getD (freeNat d % ps.length) 0, q)

/-- A frame leaves a receive queue, and the queue's flow control follows. -/
def takeRx (p q : Nat) (d : Dev) : Dev :=
  let n := ((queueOf p 1 q d).rx.take 1).foldl (fun n f => n + cellsOf f.frame.len) 0
  flowControl p q (giveCells p n (updQueue p 1 q (fun x => { x with rx := x.rx.drop 1 }) d))

/-- A frame is delivered to its consumer (R165): RX_DELIVERED and RX_BYTES, tag and FCS excluded. -/
def delivered (p len : Nat) (d : Dev) : Dev := portBump p pRX_DELIVERED 1 (portBump p pRX_BYTES (len - 4) d)

/-- RING_COPY (R174, R175). -/
def ringCopy (mac : Nat) (ptp : Bool) (d : Dev) : Dev :=
  let m := tget d.macs mac
  let room := if ptp then 64 - ringUsed m.ptp else 512 - ringUsed m.ctrl
  if room = 0 then d
  else match copyFrom mac ptp d with
  | none => d
  | some (p, q) =>
    match (queueOf p 1 q d).rx with
    | [] => d
    | f :: _ =>
      let d := takeRx p q (useFree d)
      if room < buffersOf f then portBump p pRX_RING_DROP 1 d
      else delivered p f.frame.len (updMac mac (fun m =>
        if ptp then { m with ptp := m.ptp ++ [f] } else { m with ctrl := m.ctrl ++ [f] }) d)

def execRingCopy (mac : Nat) (ptp : Bool) (s : State) : Out :=
  onDevIf (fun d => blocksRun d && decide (mac < 16)) (ringCopy mac ptp) s

/-- CONTROL_PLANE_RING_FRAME (R176): a host frame is listed with event 0x0301, or dropped. -/
def controlFrame (mac : Nat) (d : Dev) : Dev :=
  match (tget d.macs mac).ctrl with
  | [] => d
  | f :: rest =>
    let d := updMac mac (fun m => { m with ctrl := rest }) d
    if !f.host then d
    else if 256 ≤ (tget d.macs mac).host.length ∨ 4064 < f.frame.bytes.length then portBump f.port pHOST_DROP 1 d
    else
      let d := updMac mac (fun m => { m with host := m.host ++ [f] }) d
      postEvent 0x0301 mac (le 2 (tget d.macs mac).host.length) d

def execControlPlaneRingFrame (mac : Nat) (s : State) : Out :=
  onDevIf (fun d => blocksRun d && perbyServes d && decide (mac < 16)) (controlFrame mac) s

/-! ### Commands of family 0x04 (R180 to R182) -/

def noPort (p : Nat) (d : Dev) : Option (Nat × Nat) := refuseIf (!portExists p d) 0x0010

/-- The lanes of a port have both directions enabled at the mode's rate (R158). -/
def lanesReady (p : Nat) (d : Dev) : Bool :=
  let rate := if (tget d.octets (p / 8)).mode = 1 then 9 else 0xA
  (lanesOfPort p d).all fun n => let l := lane n d; l.rxEn && l.txEn && decide (l.rate = rate ∧ l.txRate = rate)

def cmdMacPortConfig : CmdSpec where
  opcode := 0x0401
  len := len 24
  unitLocal := true
  fields _ := [fok 3 1 (fun v => decide (v < 4)), res 18 2, fok 20 4 (fun v => decide (v < 2 ^ 24))]
  stageable := true
  obj p := [u8 p 0]
  check a d :=
    let p := a.payload
    let mode := (tget d.octets (u8 p 0 / 8)).mode
    firstOf [
      noPort (u8 p 0) d,
      refuseIf (decide (3 < u8 p 1)) 0x0013,
      refuseIf (if mode = 1 then decide (2 < u8 p 1) else decide (u8 p 1 ≠ 3)) 0x0012,
      refuseIf (decide (2 < u8 p 2)) 0x0013,
      refuseIf (decide (u16 p 10 < 1 ∨ 4094 < u16 p 10)) 0x0013,
      refuseIf (decide (u16 p 12 < 64 ∨ 9216 < u16 p 12)) 0x0013,
      refuseIf (decide (u16 p 14 < 64 ∨ 9216 < u16 p 14)) 0x0013,
      refuseIf (decide (u16 p 16 = 0)) 0x0013]
  apply a d :=
    let p := a.payload
    let n := u8 p 0
    let x := port n d
    let again := decide (x.fec ≠ u8 p 1 ∨ x.prioQ ≠ u32 p 20) && x.en
    -- R181: a change of FEC or PRIO_Q on an enabled port returns it to step 1.
    let d := if again then portDown n false d else d
    updPort n (fun x => { x with
      fec := u8 p 1, fc := u8 p 2, allmulti := bitOf (u8 p 3) 0, promisc := bitOf (u8 p 3) 1, addr := (p.drop 4).take 6,
      pvid := u16 p 10, rxMtu := u16 p 12, ctrlMtu := u16 p 14, pauseTime := u16 p 16, prioQ := u32 p 20 }) d

/-- A port is enabled (R158): LINK is DOWN and bring-up begins. -/
def enablePort (n : Nat) (d : Dev) : Dev :=
  if (port n d).en then d
  else updPort n (fun x => { x with
    en := true, link := 1, aligned := false,
    rxq := tmap x.rxq (fun _ q => { q with stopped := false }), txq := tmap x.txq (fun _ q => { q with stopped := false }) }) d

def cmdMacPortEnable : CmdSpec where
  opcode := 0x0402
  len := len 4
  unitLocal := true
  fields _ := [res 1 3]
  stageable := true
  obj p := [u8 p 0]
  removal p := some ⟨0x0403, le 4 0 ++ p.take 1 ++ le 3 0⟩
  check a d :=
    let n := u8 a.payload 0
    firstOf [noPort n d, refuseIf (drainOf (.port n) d).isSome 0x0002,
      refuseIf (!(port n d).en && !lanesReady n d) 0x0011]
  apply a d := enablePort (u8 a.payload 0) d

def cmdMacPortDisable : CmdSpec where
  opcode := 0x0403
  len := len 8
  unitLocal := true
  fields _ := [disableWord, res 5 3]
  stageable := true
  obj p := [u8 p 4]
  sheds _ := true
  check a d := noPort (u8 a.payload 4) d
  disables := some fun p _ => [.port (u8 p 4)]

/-- The MAC's reservations with one queue's configuration replaced (R169). -/
def reservedWith (p dir q : Nat) (c : QueueCfg) (d : Dev) : Nat :=
  reserved (p / 8) (updQueue p dir q (fun x => { x with cfg := some c }) d)

def cmdMacQueueConfig : CmdSpec where
  opcode := 0x0404
  len := len 16
  unitLocal := true
  fields _ := [fok 3 1 (fun v => decide (v < 4)), res 15 1]
  stageable := true
  obj p := [u8 p 0, u8 p 1, u8 p 2]
  check a d :=
    let p := a.payload
    let fc := bitOf (u8 p 3) 0
    let c : QueueCfg := ⟨u16 p 4, u16 p 6, fc, bitOf (u8 p 3) 1, u16 p 8, u16 p 10, u16 p 12, u8 p 14⟩
    firstOf [
      noPort (u8 p 0) d,
      refuseIf (decide (u8 p 1 < 1 ∨ 2 < u8 p 1)) 0x0013,
      refuseIf (decide (7 < u8 p 2)) 0x0013,
      refuseIf (fc && decide (u8 p 1 ≠ 1 ∨ 5 < u8 p 2)) 0x0013,
      refuseIf (c.tag && decide (u8 p 1 ≠ 2 ∨ u8 p 2 = 6)) 0x0013,
      refuseIf (decide (4096 < c.min)) 0x0013,
      refuseIf (decide (c.max < 1 ∨ 4096 < c.max)) 0x0013,
      refuseIf (decide (4094 < c.vid)) 0x0013,
      refuseIf (decide (7 < c.pcp)) 0x0013,
      refuseIf (decide (c.max < c.min)) 0x0013,
      refuseIf (fc && decide (¬ (c.xon < c.xoff ∧ c.xoff < c.max))) 0x0013,
      refuseIf (decide (4096 < reservedWith (u8 p 0) (u8 p 1) (u8 p 2) c d)) 0x0005,
      refuseIf (drainOf (.queue (u8 p 0) (u8 p 1) (u8 p 2)) d).isSome 0x0002]
  apply a d :=
    let p := a.payload
    let c : QueueCfg := ⟨u16 p 4, u16 p 6, bitOf (u8 p 3) 0, bitOf (u8 p 3) 1, u16 p 8, u16 p 10, u16 p 12, u8 p 14⟩
    flowControl (u8 p 0) (u8 p 2)
      (updQueue (u8 p 0) (u8 p 1) (u8 p 2) (fun x => { x with cfg := some c, stopped := false,
                                                               above := x.above && c.fc }) d)

def cmdMacQueueDisable : CmdSpec where
  opcode := 0x0405
  len := len 8
  unitLocal := true
  fields _ := [disableWord, res 7 1]
  stageable := true
  obj p := [u8 p 4, u8 p 5, u8 p 6]
  sheds _ := true
  check a d :=
    let p := a.payload
    firstOf [noPort (u8 p 4) d, refuseIf (decide (u8 p 5 < 1 ∨ 2 < u8 p 5)) 0x0013, refuseIf (decide (7 < u8 p 6)) 0x0013]
  disables := some fun p _ => [.queue (u8 p 4) (u8 p 5) (u8 p 6)]

def cmdMacFilter : CmdSpec where
  opcode := 0x0406
  len := len 16
  unitLocal := true
  fields _ := [res 14 2]
  stageable := true
  obj p := [u8 p 0, u8 p 1]
  removal p := some ⟨0x0406, p.take 2 ++ [0] ++ p.drop 3⟩
  sheds p := decide (u8 p 2 = 0)
  check a d :=
    let p := a.payload
    firstOf [
      refuseIf (decide (15 < u8 p 0) || decide (numPorts (u8 p 0) d = 0)) 0x0010,
      refuseIf (decide (31 < u8 p 1)) 0x0013,
      refuseIf (decide (3 < u8 p 2)) 0x0013,
      refuseIf (decide ((u8 p 2 = 1 ∧ 6 < u8 p 3) ∨ (u8 p 2 = 3 ∧ 5 < u8 p 3))) 0x0013,
      refuseIf (decide (7 < u8 p 5 ∧ u8 p 5 ≠ 0xFF)) 0x0013,
      refuseIf (decide (4095 < u16 p 6 ∧ u16 p 6 ≠ 0xFFFF)) 0x0013,
      refuseIf (decide (3 < u8 p 11)) 0x0013]
  apply a d :=
    let p := a.payload
    updMac (u8 p 0) (fun m => { m with
      filter := tset m.filter (u8 p 1)
        { action := u8 p 2, queue := u8 p 3, ports := u8 p 4, pcp := u8 p 5, vid := u16 p 6, etherType := u16 p 8,
          ipProto := u8 p 10, daClass := u8 p 11, dport := u16 p 12 } }) d

/-- MAC_TX_FRAME (R167, R180): the frame is padded to 60 bytes and the FCS added. -/
def cmdMacTxFrame : CmdSpec where
  opcode := 0x0407
  len p := decide (8 ≤ p.length ∧ p.length = 8 + u16 p 2)
  unitLocal := true
  fields _ := [res 4 4]
  check a d :=
    let p := a.payload
    let n := u8 p 0
    let f := max (u16 p 2) 60 + 4 + queueTag n (u8 p 1) d
    firstOf [
      noPort n d,
      refuseIf (decide (4 < u8 p 1)) 0x0014,
      refuseIf (decide (u16 p 2 < 14)) 0x0013,
      refuseIf (decide ((port n d).ctrlMtu < u16 p 2 + 4)) 0x0014,
      refuseIf (decide ((port n d).link ≠ 3)) 0x0014,
      refuseIf (drainOf (.queue n 2 (u8 p 1)) d).isSome 0x0002,
      refuseIf (queueOf n 2 (u8 p 1) d).stopped 0x0014,
      refuseIf (!canTake n 2 (u8 p 1) (cellsOf f) d) 0x0005]
  apply a d :=
    let p := a.payload
    let n := u8 p 0
    let body := p.drop 8 ++ List.replicate (60 - u16 p 2) 0
    offer n (u8 p 1) { len := body.length + 4, bytes := body } d

def cmdMacRxFrame : CmdSpec where
  opcode := 0x0408
  len := len 4
  unitLocal := true
  fields _ := [res 1 3]
  check a d :=
    let o := u8 a.payload 0
    firstOf [refuseIf (decide (15 < o) || decide (numPorts o d = 0)) 0x0010, refuseIf (decide ((tget d.macs o).host = [])) 0x0015]
  apply a d := updMac (u8 a.payload 0) (fun m => { m with host := m.host.drop 1 }) d
  reply a d _ :=
    match (tget d.macs (u8 a.payload 0)).host with
    | f :: _ =>
      { payload := le 1 f.port ++ le 1 f.queue ++ le 2 f.vid ++ le 1 f.pcp ++ le 1 0 ++ le 2 f.frame.bytes.length ++ le 8 0
                     ++ f.frame.bytes }
    | [] => {}

def cmdMacStatusRead : CmdSpec where
  opcode := 0x0409
  len := len 4
  unitLocal := true
  fields _ := [res 1 3]
  check a d := noPort (u8 a.payload 0) d
  reply a _ d :=
    let n := u8 a.payload 0
    { payload := le 4 (portStatus n d) ++ le 4 (bufStatus (n / 8) d) ++ le 8 0 ++ ctrBytes (port n d).ctrs 0x100 22 }

/-- Family 0x04. -/
def family04 : List CmdSpec :=
  [cmdMacPortConfig, cmdMacPortEnable, cmdMacPortDisable, cmdMacQueueConfig, cmdMacQueueDisable, cmdMacFilter, cmdMacTxFrame,
   cmdMacRxFrame, cmdMacStatusRead]

end Sys2Proof.Machine
end

