-- ==== Sys2Proof/Machine/RtpWords.lean ====
section
/-! DEFINITION. The payloads of media packets (R187 to R190, R202, R209 to R211, R217): header extensions, the pixel groups of
ST 2110-20, audio samples and AM824 subframes, the ancillary packets of RFC 8331, and the lines that the datagrams of ST 2022-6 carry.
Log entry 15 says what is taken from those standards. -/

namespace Sys2Proof.Machine

/-! ### Big-endian fields -/

/-- A number as `n` bytes, the most significant first. -/
def beBytes (n v : Nat) : List Byte := (le n v).reverse

/-- `w` bits of a list of bytes from bit `off` on, the most significant bit of the first byte being bit 0. -/
def beBits (l : List Byte) (off w : Nat) : Nat := beNat l / 2 ^ (8 * l.length - off - w) % 2 ^ w

/-- Fields of (width, value) as a number of bits, the first the most significant. -/
def packFields (fs : List (Nat × Nat)) : Nat × Nat := fs.foldl (fun a f => (a.1 + f.1, a.2 * 2 ^ f.1 + f.2 % 2 ^ f.1)) (0, 0)

/-- Fields as bytes, filled with zeros to a whole number of `unit` bytes. -/
def packBytes (unit : Nat) (fs : List (Nat × Nat)) : List Byte :=
  let p := packFields fs
  let n := ceilDiv p.1 (8 * unit) * unit
  beBytes n (p.2 * 2 ^ (8 * n - p.1))

/-! ### The claim element (R202 step 5, R217) -/

/-- The elements of a one-byte header extension of RFC 8285: identifiers with their data. Identifier 0 is padding, and 15 ends the
list. -/
def extElements : Nat → List Byte → List (Nat × List Byte)
  | 0, _ => []
  | _, [] => []
  | fuel + 1, b :: t =>
    let id := b.toNat / 16
    let n := b.toNat % 16 + 1
    if id = 0 then extElements fuel t
    else if id = 15 then []
    else (id, t.take n) :: extElements fuel (t.drop n)

/-- The claim that a header extension carries under a CLAIM_ID; profiles other than 0xBEDE are skipped. -/
def claimOf (id : Nat) (ext : Option (Nat × List Byte)) : Option Nat :=
  match ext with
  | some (profile, l) =>
    if profile = 0xBEDE then ((extElements l.length l).find? fun e => decide (e.1 = id ∧ e.2.length = 4)).map fun e => beNat e.2
    else none
  | none => none

/-- The claim extension (R217). -/
def claimExt (id : Nat) (claim : Word) : List Byte :=
  [0xBE, 0xDE, 0x00, 0x02, BitVec.ofNat 8 (16 * id + 3)] ++ beBytes 4 claim.toNat ++ [0, 0, 0]

/-! ### ST 2110-20 (R185, R202, R211) -/

/-- The samples of a pixel group in the order sent: plane, place on the plane's line from the group's first pixel, and line of the
group. -/
def groupOrder (s : Nat) : List (Nat × Nat × Nat) :=
  let pixels (n : Nat) (ps : List Nat) : List (Nat × Nat × Nat) := (List.range n).flatMap fun i => ps.map fun p => (p, i, 0)
  let square (x : Nat) : List (Nat × Nat × Nat) := [(0, x, 0), (0, x + 1, 0), (0, x, 1), (0, x + 1, 1), (1, x, 0), (1, x + 1, 0)]
  match s with
  | 0 | 1 => [(1, 0, 0), (0, 0, 0), (1, 1, 0), (0, 1, 0)]
  | 2 => pixels 4 [1, 0, 2]
  | 3 => pixels 2 [1, 0, 2]
  | 4 => pixels 4 [2, 0, 1]
  | 5 => pixels 2 [2, 0, 1]
  | 6 => square 0 ++ square 2
  | 7 => square 0
  | _ => pixels 1 [2, 0, 1]

/-- Pixels that a pixel group spans on a line. -/
def groupCols (s : Nat) : Nat := (pixelGroup s).2.1 / (pixelGroup s).2.2

/-- Lines of a frame, or of a field where a format goes field by field. -/
def fieldLines (f : Nat) : Nat := activeLines f / (if byField f then 2 else 1)

/-- The frame row of a row of a frame or field (R322). -/
def frameRow (f : Nat) (second : Bool) (y : Nat) : Nat :=
  if byField f then 2 * y + (if second then 1 - firstRow f else firstRow f) else y

/-- The line of a plane that holds line `dy` of the pixel groups of row `row` of a frame or field. -/
def groupLine (f s p row dy : Nat) (second : Bool) : Nat :=
  if p = 1 ∧ (s = 6 ∨ s = 7) then row / 2 else frameRow f second (row + dy)

/-- The sample row data headers of a packet, at most three, each with its length, and the data that follows them. -/
def rowHeaders : Nat → List Byte → Option (List (Nat × RowSeg) × List Byte)
  | 0, _ => none
  | fuel + 1, l =>
    match l with
    | a :: b :: c :: d :: e :: f :: t =>
      let h : Nat × RowSeg := (beNat [a, b], ⟨beNat [c, d] % 32768, decide (128 ≤ c.toNat), beNat [e, f] % 32768, []⟩)
      if 128 ≤ e.toNat then (rowHeaders fuel t).map fun r => (h :: r.1, r.2) else some ([h], t)
    | _ => none

/-- The row segments of a packet; none where its headers and lengths do not make up its payload. -/
def rowSegs (payload : List Byte) : Option (List RowSeg) :=
  match rowHeaders 3 (payload.drop 2) with
  | none => none
  | some (hs, data) =>
    if (hs.map (·.1)).sum ≠ data.length then none
    else some (hs.foldl (fun (a : List RowSeg × List Byte) h => (a.1 ++ [{ h.2 with data := a.2.take h.1 }], a.2.drop h.1)) ([], data)).1

/-- A segment lies in the raster and holds whole pixel groups of the sampling (R202 step 4). -/
def segOk (f s : Nat) (g : RowSeg) : Bool :=
  let p := pixelGroup s
  decide (g.data.length % p.1 = 0 ∧ g.offset % groupCols s = 0 ∧ g.row % p.2.2 = 0 ∧ g.row < fieldLines f
    ∧ g.offset + g.data.length / p.1 * groupCols s ≤ activeWidth f)

/-- One native component set in a picture. -/
def setComp (pic : Planes) (p y i v : Nat) : Planes := pic.modify p fun rows => rows.modify y fun row => row.set i v

/-- A segment drawn into a frame's picture. -/
def drawSeg (f s : Nat) (pic : Planes) (g : RowSeg) : Planes :=
  let size := (pixelGroup s).1
  (List.range (g.data.length / size)).foldl (fun pic k =>
    let bytes := (g.data.drop (k * size)).take size
    (groupOrder s).zipIdx.foldl (fun pic q =>
      setComp pic q.1.1 (groupLine f s q.1.1 g.row q.1.2.2 g.second) (g.offset + k * groupCols s + q.1.2.1)
        (toNative (codeBits s) (beBits bytes (codeBits s * q.2) (codeBits s)))) pic) pic

/-- The bytes of the pixel groups of one row of a frame or field. -/
def rowBytes (f s : Nat) (second : Bool) (row : Nat) (pic : Planes) : List Byte :=
  (List.range (activeWidth f / groupCols s)).flatMap fun k =>
    packBytes (pixelGroup s).1 ((groupOrder s).map fun q =>
      (codeBits s, toCode (codeBits s) (((pic.getD q.1 []).getD (groupLine f s q.1 row q.2.2 second) []).getD (k * groupCols s + q.2.1) 0)))

/-- The data of a row of a frame or field in bytes, and how many such rows there are. -/
def rowLength (f s : Nat) : Nat := activeWidth f / groupCols s * (pixelGroup s).1
def rowCount (f s : Nat) : Nat := fieldLines f / (pixelGroup s).2.2

/-- Where the data of packet `k` of a frame or field begins and ends in its rows one after another (R211). -/
def packetRange (f s payload : Nat) (bpm : Bool) (k : Nat) : Nat × Nat :=
  let len := rowLength f s
  if bpm then (1260 * k, min (1260 * (k + 1)) (rowCount f s * len))
  else
    let per := max 1 (payload / (pixelGroup s).1) * (pixelGroup s).1
    let n := max 1 (ceilDiv len per)
    let a := k / n * len + k % n * per
    (a, min (a + per) ((k / n + 1) * len))

/-- A packet's row headers, as bytes, for the data from `a` up to `b`, and that data (R185, R211): the extended sequence number, then
one header for each row that it touches. -/
def videoPayload (f s : Nat) (second : Bool) (ext a b : Nat) (pic : Planes) : List Byte :=
  let len := max 1 (rowLength f s)
  let rows := (List.range (ceilDiv b len - a / len)).map (a / len + ·)
  let part (r : Nat) : Nat × Nat := (max a (r * len) - r * len, min b ((r + 1) * len) - r * len)
  beBytes 2 ext
    ++ rows.flatMap (fun r =>
      let q := part r
      beBytes 2 (q.2 - q.1) ++ beBytes 2 (r * (pixelGroup s).2.2 + 32768 * b2n second)
        ++ beBytes 2 (q.1 / (pixelGroup s).1 * groupCols s + 32768 * b2n (decide (r + 1 < ceilDiv b len))))
    ++ rows.flatMap fun r => let q := part r; ((rowBytes f s second (r * (pixelGroup s).2.2) pic).drop q.1).take (q.2 - q.1)

/-- Row headers of all packets of a frame or field: one for each packet, and in BPM one more wherever a row ends inside one. -/
def rowHeaderCount (f s payload : Nat) (bpm : Bool) : Nat :=
  nPackets f s payload bpm
    + if bpm then
        let r := rowCount f s - 1
        r - r / (1260 / Nat.gcd 1260 (rowLength f s))
      else 0

/-! ### Audio (R187, R188) -/

/-- An AM824 subframe: V, U, C and P, the block start B and the 24 data bits. -/
def am824 (l : List Byte) : Sample :=
  let b := (l.getD 0 0).toNat
  { v24 := BitVec.ofNat 24 (beNat (l.drop 1)), v := bitOf b 0, u := bitOf b 1, c := bitOf b 2, z := bitOf b 5 }

/-- A sample as an AM824 subframe with its parity and, on the first channel of a pair, the frame start. -/
def am824Bytes (first : Bool) (x : Sample) : List Byte :=
  let par := ((List.range 24).map fun i => b2n (x.v24.getLsbD i)).sum + b2n x.v + b2n x.u + b2n x.c
  BitVec.ofNat 8 (b2n x.v + 2 * b2n x.u + 4 * b2n x.c + 8 * (par % 2) + 16 * b2n first + 32 * b2n x.z) :: beBytes 3 x.v24.toNat

/-- The samples of an audio payload of `n` instants of `ch` channels, instant by instant; none where it has another length. An L16
sample has zero in its low byte. -/
def audioSamples (type ch n : Nat) (payload : List Byte) : Option (List Sample) :=
  let cut (w : Nat) (f : List Byte → Sample) : List Sample := (List.range (n * ch)).map fun i => f ((payload.drop (w * i)).take w)
  if type = 3 then (if payload.length = 4 * n * ch then some (cut 4 am824) else none)
  else if payload.length = 3 * n * ch then some (cut 3 fun l => { v24 := BitVec.ofNat 24 (beNat l) })
  else if payload.length = 2 * n * ch then some (cut 2 fun l => { v24 := BitVec.ofNat 24 (beNat l * 256) })
  else none

/-! ### RFC 8331 (R189) -/

/-- The packets that follow a header: `n` of them, each aligned to 32 bits. -/
def ancRead (field : Bool) : Nat → List Byte → Option (List AncPacket)
  | 0, _ => some []
  | n + 1, l =>
    let dc := beBits l 52 10
    let size := 4 * ceilDiv (62 + 10 * (dc % 256) + 10) 32
    if l.length < 8 ∨ l.length < size then none
    else
      let p : AncPacket :=
        { c := decide (beBits l 0 1 = 1), line := beBits l 1 11, hoff := beBits l 12 12, s := decide (beBits l 24 1 = 1), stream := beBits l 25 7,
          link := 0, field := field, did := beBits l 32 10, sdid := beBits l 42 10, dc := dc,
          udw := (List.range (dc % 256)).map fun i => beBits l (62 + 10 * i) 10, checksum := beBits l (62 + 10 * (dc % 256)) 10 }
      (ancRead field n (l.drop size)).map fun ps => p :: ps

/-- The ancillary packets of a payload; none where it is not of the form of RFC 8331. -/
def ancPayload (l : List Byte) : Option (List AncPacket) :=
  if l.length < 8 ∨ beBits l 16 16 ≠ l.length - 8 ∨ beBits l 40 2 = 1 then none
  else ancRead (decide (beBits l 40 2 = 3)) (beBits l 32 8) (l.drop 8)

/-- A packet in the form of RFC 8331. -/
def ancBytes (p : AncPacket) : List Byte :=
  packBytes 4 ([(1, b2n p.c), (11, p.line), (12, p.hoff), (1, b2n p.s), (7, p.stream), (10, p.did), (10, p.sdid), (10, p.dc)]
    ++ p.udw.map (fun w => (10, w)) ++ [(10, p.checksum)])

/-- Packets gathered into payloads that are filled up to `room` bytes: counts with bytes. -/
def fillPayloads (room : Nat) (ps : List (List Byte)) : List (Nat × List Byte) :=
  ps.foldl (fun out b =>
    match out.getLast? with
    | some (n, l) => if l.length + b.length ≤ room then out.dropLast ++ [(n + 1, l ++ b)] else out ++ [(1, b)]
    | none => [(1, b)]) []

/-- The payloads of a frame's or field's packets, without their extended sequence numbers (R189): at least one, which the marker is
set on. F is 0 for a frame, 2 for a first and 3 for a second field. -/
def ancLoads (maxPayload fbits : Nat) (ps : List AncPacket) : List (List Byte) :=
  let groups := fillPayloads (maxPayload - 8) (ps.map ancBytes)
  (if groups = [] then [(0, [])] else groups).map fun g => packBytes 4 [(16, g.2.length), (8, g.1), (2, fbits), (22, 0)] ++ g.2

/-! ### ST 2022-6 (R190) -/

/-- The media bytes of a datagram: those after its header with the extensions that the header names; none unless they are 1,376. -/
def datagramMedia (l : List Byte) : Option (List Byte) :=
  let head := 4 + 4 * beBits l 4 1 + (if beBits l 27 4 = 0 then 0 else 4) + 4 * beBits l 0 4
  if l.length = head + 1376 ∧ 4 ≤ l.length then some (l.drop head) else none

/-- Bytes as bits, each byte's most significant first. -/
def byteBits (l : List Byte) : List Bool := l.flatMap fun b => (List.range 8).map fun i => b.getLsbD (7 - i)

/-- Bits as 10-bit words, the most significant bit first. -/
def wordsOf (s : List Bool) : List Nat :=
  (List.range (s.length / 10)).map fun k => (List.range 10).foldl (fun n i => 2 * n + b2n (s.getD (10 * k + i) false)) 0

/-- 10-bit words as bits. -/
def wordBits (ws : List Nat) : List Bool := ws.flatMap fun w => (List.range 10).map fun i => bitOf w (9 - i)

/-- Bits as bytes. -/
def bitBytes (s : List Bool) : List Byte :=
  (List.range (s.length / 8)).map fun k => BitVec.ofNat 8 ((List.range 8).foldl (fun n i => 2 * n + b2n (s.getD (8 * k + i) false)) 0)

/-- Words of a line on all channels of a mapping. -/
def wireLine (mapping f : Nat) : Nat :=
  mappingWays mapping * lineSamples (streamFormat f) * (if mapping = 0 then 2 else 1)

/-- Bits of a frame. -/
def wireFrame (mapping f : Nat) : Nat := 10 * wireLine mapping f * totalLines (streamFormat f)

/-- The words of channel `c` of `k` interleaved channels, and channels interleaved. -/
def channelOf (k c : Nat) (ws : List Nat) : List Nat := (ws.zipIdx.filter fun x => decide (x.2 % k = c)).map (·.1)
def interleave (cs : List (List Nat)) : List Nat := (List.range ((cs.map (·.length)).foldl max 0)).flatMap fun i => cs.map fun c => c.getD i 0

/-- The ST 291 packets among words: DID, SDID, Data_Count, user data words and checksum, without the ADF. -/
def findAnc : Nat → List Nat → List (List Nat)
  | 0, _ => []
  | fuel + 1, ws =>
    match ws with
    | 0 :: 0x3FF :: 0x3FF :: a :: b :: dc :: t => (a :: b :: dc :: t.take (dc % 256 + 1)) :: findAnc fuel (t.drop (dc % 256 + 1))
    | _ :: t => findAnc fuel t
    | [] => []

/-- A packet of a channel's words on a line. -/
def ancOf (c : Bool) (line hoff stream : Nat) (ws : List Nat) : AncPacket :=
  { c := c, line := line, hoff := hoff, s := false, stream := stream, link := 0, field := false,
    did := ws.getD 0 0, sdid := ws.getD 1 0, dc := ws.getD 2 0, udw := (ws.drop 3).dropLast, checksum := ws.getLastD 0 }

/-! ### Audio packets as words (ST 272, ST 299-1) -/

/-- One bit into the register of the error correction code of ST 299-1, (x + 1)(x^5 + x^2 + 1). -/
def eccStep (r : Nat) (b : Bool) : Nat := Nat.xor (r * 2 % 64) (if (decide (32 ≤ r)) != b then 0x2F else 0)

/-- The six ECC words over the words from the ADF to the 18th user data word, bit by bit of their low eight. -/
def eccWords (ws : List Nat) : List Nat :=
  let r (i : Nat) : Nat := ws.foldl (fun r w => eccStep r (bitOf w i)) 0
  (List.range 6).map fun k => parityWord (((List.range 8).map fun i => r i / 2 ^ (5 - k) % 2 * 2 ^ i).sum)

/-- The four words of a sample of ST 299-1: Z, the 24 bits, V, U, C and P. -/
def embWords (x : EmbSample) : List Nat :=
  let v := x.sample.toNat
  let par := ((List.range 24).map fun i => v / 2 ^ i % 2).sum + b2n x.v + b2n x.u + b2n x.c + b2n x.z
  [v % 16 * 16 + 8 * b2n x.z, v / 16 % 256, v / 4096 % 256, v / 2 ^ 20 + 16 * b2n x.v + 32 * b2n x.u + 64 * b2n x.c + 128 * (par % 2)].map parityWord

/-- A sample from its four words. -/
def embOf (ch : Nat) (ws : List Nat) : EmbSample :=
  let w (i : Nat) : Nat := ws.getD i 0
  ⟨ch, BitVec.ofNat 24 (bits (w 0) 7 4 + 16 * bits (w 1) 7 0 + 4096 * bits (w 2) 7 0 + 2 ^ 20 * bits (w 3) 3 0),
    bitOf (w 3) 4, bitOf (w 3) 5, bitOf (w 3) 6, bitOf (w 0) 3, true⟩

/-- A sample of ST 272 from its three words: Z, the channel, 20 bits, V, U and C. -/
def embOfSd (ws : List Nat) : EmbSample :=
  let w (i : Nat) : Nat := ws.getD i 0
  ⟨bits (w 0) 2 1 + 1, BitVec.ofNat 24 (16 * (bits (w 0) 8 3 + 64 * bits (w 1) 8 0 + 2 ^ 15 * bits (w 2) 4 0)),
    bitOf (w 2) 5, bitOf (w 2) 6, bitOf (w 2) 7, bitOf (w 0) 0, false⟩

/-- A sample of ST 272 as its three words. -/
def embWordsSd (x : EmbSample) : List Nat :=
  let v := x.sample.toNat / 16
  let par := ((List.range 20).map fun i => v / 2 ^ i % 2).sum + b2n x.v + b2n x.u + b2n x.c + b2n x.z + (x.channel - 1) % 2 + (x.channel - 1) / 2 % 2
  [word9 (b2n x.z + 2 * ((x.channel - 1) % 4) + 8 * (v % 64)), word9 (v / 64 % 512),
   word9 (v / 2 ^ 15 % 32 + 32 * b2n x.v + 64 * b2n x.u + 128 * b2n x.c + 256 * (par % 2))]

/-- The rate of an AES pair from three bits of an audio control packet, 0 where they name none. -/
def pairRate (v : Nat) : Nat := match v with | 0 => 48000 | 1 => 44100 | 2 => 32000 | 4 => 96000 | _ => 0

/-- The audio packet that an ST 291 packet is; `ext` gives the extended data words of SD that follow it (R139, R140). -/
def audioOf (mapping : Nat) (ext : List Nat) (p : AncPacket) : AudioPacket :=
  let w (i : Nat) : Nat := p.udw.getD i 0
  let rate := w (if mapping = 0 then 2 else 1)
  match audioDid mapping (p.did % 256) with
  | some (2, _) =>
    { stream := p.stream, did := p.did % 256, ok := ancOk p,
      pairs := [(pairRate (bits rate 3 1), bitOf rate 0), (pairRate (bits rate 7 5), bitOf rate 4)], samples := [] }
  | _ =>
    if mapping = 0 then
      { stream := p.stream, did := p.did % 256, ok := ancOk p, pairs := [],
        samples := (List.range (p.udw.length / 3)).map fun i =>
          let x := embOfSd ((p.udw.drop (3 * i)).take 3)
          match ext[i / 2]? with
          | some e => { x with sample := x.sample + BitVec.ofNat 24 (e / 16 ^ (i % 2) % 16), ext := true }
          | none => x }
    else
      { stream := p.stream, did := p.did % 256,
        ok := ancOk p && decide (p.udw.length = 24) && decide (p.udw.drop 18 = eccWords ([0, 0x3FF, 0x3FF, p.did, p.sdid, p.dc] ++ p.udw.take 18)),
        pairs := [], samples := (List.range 4).map fun c => embOf (c + 1) ((p.udw.drop (2 + 4 * c)).take 4) }

/-- The audio data packet of a group as a transmitter places it, in words: the clock phase, the samples and the ECC on HD and
above; the samples and an extended data packet on SD (R147). -/
def embPackets (mapping : Nat) (e : EmbPacket) : List AncPacket :=
  let made (did : Nat) (udw : List Nat) : AncPacket :=
    { madePacket e.line e.stream did 0 udw with c := decide (pairedChannels mapping), hoff := 0xFFE }
  if mapping = 0 then
    [made (0xFF - 2 * (e.group - 1)) (e.samples.flatMap embWordsSd),
     made (0xFE - 2 * (e.group - 1)) ((List.range 2).map fun i =>
       parityWord ((((e.samples.drop (2 * i)).take 2).zipIdx.map fun x => x.1.sample.toNat % 16 * 16 ^ x.2).sum))]
  else
    let did := if e.group ≤ 4 then 0xE7 - (e.group - 1) else 0xA7 - (e.group - 5)
    let udw := [parityWord (e.phase % 256), parityWord (e.phase / 256 % 16 + e.phase / 4096 % 2 * 32)] ++ e.samples.flatMap embWords
    let p := made did (udw ++ List.replicate 6 0)
    [made did (udw ++ eccWords ([0, 0x3FF, 0x3FF, p.did, p.sdid, p.dc] ++ udw))]

/-- The words of a line on all channels, interleaved, as a transmitter sends them (R144): EAV, line number and the CRC words of the
line before, the horizontal blanking with its packets, SAV and the active words. -/
def lineWords (t : SdiTx) (f line : Nat) : List Nat :=
  let m := t.mapping
  let ds := streamFormat f
  let get (s l : Nat) : Option TxLine := t.lines.find? fun x => decide (x.stream = s ∧ x.line = l)
  let before := if line = 1 then totalLines ds else line - 1
  let packets := (t.emb.filter fun e => decide (e.line = line)).flatMap (embPackets m) ++ t.out.filter fun p => decide (p.line = line ∧ p.hoff = 0xFFE)
  let ways := mappingWays m
  interleave ((List.range ways).map fun w =>
    let s := if pairedChannels m then w / 2 else w
    let chroma := pairedChannels m && decide (w % 2 = 0)
    match get s line with
    | none => List.replicate (wireLine m f / max 1 ways) 0
    | some x =>
      let crc := match get s before with
        | some b => crcWords (if chroma then b.crcC else b.crcY)
        | none => crcWords 0
      let head := [0x3FF, 0, 0, x.eav] ++ x.ln ++ (if m = 0 then [] else crc)
      let active := if chroma then x.c else x.y
      let room := wireLine m f / max 1 ways - head.length - 4 - active.length
      let anc := (packets.filter fun p => decide (p.stream = s) && (decide (m = 0) || p.c == chroma)).flatMap ancWordList
      head ++ (anc ++ (blankWords m room chroma).drop anc.length).take room ++ [0x3FF, 0, 0, x.sav] ++ active)

/-- The media bytes of datagram `k`, from bit `from_` of the frame on. -/
def datagramBytes (t : SdiTx) (f from_ k : Nat) : List Byte :=
  let w := 10 * max 1 (wireLine t.mapping f)
  let a := from_ + 11008 * k
  let s := ((List.range (11008 / w + 2)).map (a / w + ·)).flatMap fun l =>
    if l < totalLines (streamFormat f) then wordBits (lineWords t f (l + 1)) else List.replicate w false
  bitBytes ((s.drop (a % w)).take 11008)

/-- The header of a datagram (log entry 15). -/
def datagramHeader (mapping f frames : Nat) : List Byte :=
  packBytes 4 [(4, 0), (1, 1), (3, 0), (8, frames), (2, 0), (2, 0), (3, 0), (4, 0), (5, 0)]
    ++ beBytes 4 (Config.datagramFormat mapping f).toNat

end Sys2Proof.Machine
end

