-- ==== Sys2Proof/Machine/Framer.lean ====
section
/-! DEFINITION. The SDI-over-IP receive framers (R190): the datagrams of a flow in order, the word stream that they recover, and the
lines read from it, to which chapter 4 applies as to a lane's. -/

namespace Sys2Proof.Machine

/-- Each data stream of a receiver in turn. -/
def eachStream (n : Nat) (f : Nat → Dev → Dev) (d : Dev) : Dev := (List.range (streamsOf n d)).foldl (fun d s => f s d) d

def updWire (n : Nat) (f : Wire → Wire) (d : Dev) : Dev := updRx n (fun r => { r with wire := f r.wire }) d

/-- The words at which a TRS stands (R119, R120). Words that a datagram gap has lost, which stand as zeros, are counted by the gap. -/
def wireTrs (n : Nat) (ws : List Nat) (d : Dev) : Dev :=
  if (ws.all fun w => decide (w = 0)) = true then d
  else if (trsOf ws).isNone then eachStream n (trsAbsent n) d
  else eachStream n (fun s => trsStep n s 0 ws) d

/-- The ST 291 packets among the words of a line, channel by channel (R134, R139). -/
def wireAnc (n line hoff : Nat) (ws : List Nat) (d : Dev) : Dev :=
  let m := (rx n d).cfgMapping
  let ways := mappingWays m
  (List.range ways).foldl (fun d w =>
    let s := if pairedChannels m then w / 2 else w
    let ps := (findAnc ws.length (channelOf ways w ws)).map (ancOf (pairedChannels m && decide (w % 2 = 0)) line hoff s)
    ps.zipIdx.foldl (fun d p =>
      match audioDid m (p.1.did % 256) with
      | some _ =>
        let ext := match ps[p.2 + 1]? with
          | some q => if (audioDid m (q.did % 256)).map (·.1) = some 1 then q.udw.map (· % 256) else []
          | none => []
        audioPacket n (audioOf m ext p.1) d
      | none => ancPacket n p.1 d) d) d

/-- The line before ends with the EAV, the line number and the CRC words at the front of `ws` (R123, R124). -/
def wireEnd (n : Nat) (ws : List Nat) (d : Dev) : Dev :=
  let r := rx n d
  let m := r.cfgMapping
  let ways := mappingWays m
  if r.wire.prev = [] then d
  else
    let all := r.wire.prev ++ ws.take (8 * ways)
    updWire n (fun w => { w with prev := [] }) (eachStream n (fun s =>
      if pairedChannels m then sdiLine n s (channelOf ways (2 * s + 1) all) (channelOf ways (2 * s) all) []
      else sdiLine n s (channelOf ways s all) [] []) d)

/-- A line from its EAV to its last active word. -/
def wireRead (n : Nat) (ws : List Nat) (d : Dev) : Dev :=
  let r := rx n d
  let m := r.cfgMapping
  let ds := streamFormat r.cfgFormat
  let ways := mappingWays m
  let line := r.wire.line + 1
  let head := (if m = 0 then 4 else 8) * ways
  let active := ws.drop (ws.length - vancRoom m r.cfgFormat * ways)
  let sav := (ws.drop (ws.length - (vancRoom m r.cfgFormat + 4) * ways)).take (4 * ways)
  let hanc := (ws.take (ws.length - (vancRoom m r.cfgFormat + 4) * ways)).drop head
  let d := updWire n (fun w => { w with
    line := if line = totalLines ds then 0 else line, prev := if m = 0 then [] else active, edge := 0 }) d
  let d := wireTrs n sav (wireAnc n line 0xFFE hanc (wireTrs n (ws.take (4 * ways)) d))
  let d := if (rowOfLine ds line).isNone then wireAnc n line 0xFFF active d else d
  if m = 0 then sdiLine n 0 active hanc [] d else d

/-- The lines that have come are read. A frame that does not begin with a TRS is no frame of the mapping, and the stream waits for
the next marker. At the line-1 EAV of a receiver past SEARCH the frame boundary comes first. -/
def wireRun : Nat → Nat → Dev → Dev
  | 0, _, d => d
  | fuel + 1, n, d =>
    let r := rx n d
    let w := r.wire
    let size := 10 * wireLine r.cfgMapping r.cfgFormat
    if size = 0 ∨ w.bits.length < size ∨ w.edge = 1 then d
    else
      let ws := wordsOf (w.bits.take size)
      let eav := ws.take (4 * mappingWays r.cfgMapping)
      if w.line = 0 ∧ trsOf eav = none ∧ (eav.any fun v => decide (v ≠ 0)) = true then updWire n (fun _ => {}) d
      else
        let d := wireEnd n ws d
        if w.line = 0 ∧ w.edge = 0 ∧ 2 ≤ r.state then updWire n (fun w => { w with edge := 1 }) d
        else wireRun fuel n (wireRead n ws (updWire n (fun w => { w with bits := w.bits.drop size }) d))

/-- As many lines as the bits hold. -/
def wireLines (n : Nat) (d : Dev) : Dev := wireRun ((rx n d).wire.bits.length / 8000 + 1) n d

/-- Datagrams of a frame, and of half a frame where a sender goes field by field (R212). -/
def wireGrams (r : SdiRx) : Nat := ceilDiv (wireFrame r.cfgMapping r.cfgFormat) 11008
def wireHalf (r : SdiRx) : Nat := if byField r.cfgFormat then ceilDiv (wireFrame r.cfgMapping r.cfgFormat / 2) 11008 else 0

/-- A datagram of the stream. What follows the last word in the datagram with the marker is padding. -/
def wireFeed (n : Nat) (marker : Bool) (media : List Byte) (d : Dev) : Dev :=
  let r := rx n d
  match r.wire.index with
  | none => if marker then updWire n (fun _ => { index := some 0 }) d else d
  | some i =>
    let frame := wireFrame r.cfgMapping r.cfgFormat
    let whole := if i + 1 = wireHalf r then frame / 2 else frame
    let keep := if marker then 11008 - ((i + 1) * 11008 - whole) else 11008
    wireLines n (updWire n (fun w => { w with
      bits := w.bits ++ (byteBits media).take keep, index := some (if marker then 0 else i + 1) }) d)

/-- A gap of `g` datagrams: an absent TRS (R190). One that passes the end of the frame or field loses the frame. -/
def wireGap (n g : Nat) (d : Dev) : Dev :=
  let d := eachStream n (trsAbsent n) d
  let r := rx n d
  match r.wire.index with
  | none => d
  | some i =>
    if i + g < (if i < wireHalf r then wireHalf r else wireGrams r) then
      wireLines n (updWire n (fun w => { w with bits := w.bits ++ List.replicate (g * 11008) false, index := some (i + g) }) d)
    else updWire n (fun _ => {}) d

/-- The datagrams of a flow reach its framer in the order of their numbers. On a merged flow a missing one is waited for until SKEW
after the arrival of the one behind it. -/
def gramRun : Nat → Nat → Dev → Dev
  | 0, _, d => d
  | fuel + 1, n, d =>
    let x := rxFlow n d
    match x.nextGram with
    | none => d
    | some q =>
      let m := 192 + x.dest
      match x.grams.find? fun g => decide (g.1 = q) with
      | some g =>
        gramRun fuel n (wireFeed m g.2.1 g.2.2.2 (updRxFlow n (fun x => { x with
          grams := x.grams.filter (fun h => decide (h.1 ≠ q)), nextGram := some ((q + 1) % 65536) }) d))
      | none =>
        let far := (x.grams.map fun g => ((seqDiff x g.1 q).toNat, g.2.2.1)).filter fun g => decide (0 < g.1)
        match far.foldl (fun (a : Option (Nat × Time)) g => match a with
            | some b => if g.1 < b.1 then some g else some b
            | none => some g) none with
        | some (k, t) =>
          if !merged x || decide (t + (x.skew : Rat) * us ≤ d.up) then
            gramRun fuel n (wireGap m k (updRxFlow n (fun x => { x with nextGram := some ((q + k) % 65536) }) d))
          else d
        | none => d

/-- The datagrams that wait are looked at again. -/
def gramsDue (n : Nat) (d : Dev) : Dev := gramRun (2 * (rxFlow n d).grams.length + 1) n d

/-- An accepted datagram. One that comes after the framer has passed its number brings nothing. -/
def gramIn (n s : Nat) (r : Rtp) (d : Dev) : Dev :=
  let x := rxFlow n d
  let q := x.nextGram.getD s
  if seqDiff x s q < 0 then d
  else gramsDue n (updRxFlow n (fun x => { x with
    nextGram := some q, grams := x.grams ++ [(s, r.marker, d.up, (datagramMedia r.payload).getD [])] }) d)

end Sys2Proof.Machine
end

