-- ==== Sys2Proof/Machine/Flow.lean ====
section
/-! DEFINITION. Chapter 6: IP media flows; the commands of family 0x05 and the events of this chapter. -/

namespace Sys2Proof.Machine

/-! ### Status (R225) -/

def flowTblStatus (d : Dev) : Nat :=
  let b := d.flows.tbl
  fld b.state 30 2 + fld (b2n b.half) 29 1 + fld (stashCount b.active) 21 8 + fld b.stashTh 14 7

def flowRxStatus (n : Nat) (d : Dev) : Nat :=
  let x := rxFlow n d
  let st := if (drainOf (.rxFlow n) d).isSome then 2 else b2n x.en
  fld st 30 2 + fld (b2n x.upA) 29 1 + fld (b2n x.upB) 28 1 + fld (b2n x.held.isSome) 27 1 + fld (b2n (merged x)) 26 1
    + fld x.blocks 21 5 + fld x.type 17 4

/-- The twin block suppresses a claim-flagged flow (R216). -/
def suppressed (n : Nat) (d : Dev) : Bool := (txFlow n d).claim && (txFlow n d).dual && d.twn.suppress

def flowTxStatus (n : Nat) (d : Dev) : Nat :=
  let x := txFlow n d
  let st := if (drainOf (.txFlow n) d).isSome then 2 else b2n x.en
  fld st 30 2 + fld (b2n x.dual) 29 1 + fld (b2n x.claimSent) 28 1 + fld (b2n (suppressed n d)) 27 1 + fld x.type 23 4

/-! ### Receiving (R194, R202 to R208) -/

/-- The span over which R219 looks for the highest claim. -/
def claimSpan (x : RxFlow) : Time := if x.type = 2 ∨ x.type = 3 then 2 * ms else 2 * framePeriod x.format

/-- Step 5 of R202 and R218: the claim element of a packet that arrived at `t` is kept in the path's registers and among the claims
seen. -/
def keepClaim (n leg claim : Nat) (t : Time) (d : Dev) : Dev :=
  let d := updRxFlow n (fun x =>
    let x := { x with claims := (x.claims.filter fun c : Nat × Time => decide (t - claimSpan x ≤ c.2)) ++ [(claim, t)] }
    if leg = 0 then { x with claimA := BitVec.ofNat 32 claim, seenA := ns48 t }
    else { x with claimB := BitVec.ofNat 32 claim, seenB := ns48 t }) d
  let x := rxFlow n d
  -- R220: a witness passes each claim to the twin block.
  if x.witness ∨ x.type = 6 then witnessClaim (BitVec.ofNat 32 claim) d else d

/-- The claim filter passes a packet (R219). -/
def claimPasses (x : RxFlow) (claim : Option Nat) (t : Time) : Bool :=
  if !x.claimFilter then true
  else match claim with
  | none => false
  | some c => x.claims.all fun k => decide (k.2 < t - claimSpan x) || decide (k.1 ≤ c)

/-- The frame in progress is abandoned at once (R202 step 4). -/
def abandonFrame (n : Nat) (d : Dev) : Dev :=
  match (rxFlow n d).frames.getLast? with
  | none => d
  | some f =>
    if some f.ts = (rxFlow n d).lastTs then
      flowAbandon n f (rxfBump n fABANDON 1 (updRxFlow n (fun x => { x with frames := x.frames.dropLast }) d))
    else d

/-- The media time of a 90 kHz timestamp that arrives at a house time (R208, R281): the start of the tick with that count
modulo 2^32 that lies nearest. -/
def mediaStart (ts : Nat) (now : Time) : Time :=
  let n := (now * 90000 / 1000000000).floor
  ((n + signed 32 (twos 32 ((ts : Int) - n)) : Int) : Rat) * 1000000000 / 90000

/-- An accepted packet of a video or ancillary flow joins its frame (R206, R207). A marker gives the frame after it the
number of its first packet. A flow that drains begins no frame (R30). -/
def framePacket (n s : Nat) (r : Rtp) (d : Dev) : Dev :=
  let more := (drainOf (.rxFlow n) d).isNone
  updRxFlow n (fun x =>
    let next := (s + 1) % 2 ^ seqBits x
    let known := x.frames.any fun f => decide (f.ts = r.ts)
    let segs := if x.type = 1 then (rowSegs r.payload).getD [] else []
    let head := match segs with
      | g :: _ => decide (g.row = 0 ∧ g.offset = 0)
      | [] => false
    let fresh := !known && more && decide (x.lastTs ≠ some r.ts)
    let frames := x.frames.map fun f =>
      if f.ts = r.ts then
        { f with got := f.got ++ [s], segs := f.segs ++ segs, head := if seqDiff x s f.first < 0 then head else f.head,
                 first := if seqDiff x s f.first < 0 then s else f.first,
                 marker := if r.marker then some (s, d.up) else f.marker }
      else
        { f with
          own := if r.marker ∧ f.prev = some r.ts then some next else f.own,
          later := if seqDiff x f.first s < 0 then
              match f.later with
              | some (q, t) => some (if seqDiff x s q < 0 then s else q, t)
              | none => some (s, d.up)
            else f.later }
    { x with
      frames := if fresh then
          frames ++ [{ ts := r.ts, first := s, prev := x.lastTs,
                       own := match x.lastMark with
                         | some (t, m) => if x.lastTs = some t then some ((m + 1) % 2 ^ seqBits x) else none
                         | none => none,
                       got := [s], second := segs.any (fun g => g.second), head := head, segs := segs,
                       start := mediaStart r.ts d.house, marker := if r.marker then some (s, d.up) else none }]
        else frames,
      lastTs := if fresh then some r.ts else x.lastTs,
      lastMark := if r.marker ∧ (fresh ∨ x.lastTs = some r.ts) then some (r.ts, s) else x.lastMark }) d

/-- Instants in a packet of an audio flow (R187, R188). -/
def packetInstants (ptime : Nat) (d : Dev) : Nat := fsHz d / (if ptime = 1 then 8000 else 1000)

/-- What an accepted packet brings, by type (R183, R187 to R190, R208). -/
def packetPayload (n s : Nat) (r : Rtp) (d : Dev) : Dev :=
  let x := rxFlow n d
  match x.type with
  | 1 => framePacket n s r d
  | 4 => ancStore n r.ts ((ancPayload r.payload).getD []) (framePacket n s r d)
  | 2 | 3 => placeSamples n r.ts ((audioSamples x.type x.channels (packetInstants x.ptime d) r.payload).getD []) d
  | 5 => gramIn n s r d
  | _ => d

/-- A packet's payload fits its flow's type (R202 step 2): its headers and lengths are of the type's form. -/
def payloadFits (x : RxFlow) (r : Rtp) (d : Dev) : Bool :=
  match x.type with
  | 1 => (rowSegs r.payload).isSome
  | 2 | 3 => (audioSamples x.type x.channels (packetInstants x.ptime d) r.payload).isSome
  | 4 => (ancPayload r.payload).isSome
  | 5 => (datagramMedia r.payload).isSome
  | _ => true

/-- A video packet's rows, offsets and lengths agree with the raster and the sampling (R202 step 4). -/
def formatFits (x : RxFlow) (r : Rtp) : Bool := ((rowSegs r.payload).getD []).all (segOk x.format x.sampling)

/-- The sequence number of a packet (R203). -/
def packetSeq (x : RxFlow) (r : Rtp) : Nat := if x.type = 1 then beNat (r.payload.take 2) * 65536 + r.seq else r.seq

/-- Steps 5 to 7 of R202 for a packet that arrived at the house time `at_`. -/
def passPacket (n leg : Nat) (at_ : Time) (r : Rtp) (d : Dev) : Dev :=
  let x := rxFlow n d
  let claim := claimOf x.claimId r.ext
  let d := match claim with
    | some c => keepClaim n leg c at_ d
    | none => d
  if x.type = 6 then
    rxfBump n fWITNESSED 1 (updRxFlow n (fun y => { y with held := if y.ssrcLock then none else some (y.held.getD r.ssrc) }) d)
  else if !claimPasses (rxFlow n d) claim at_ then rxfBump n fREJECT_CLAIM 1 d
  else
    let s := packetSeq x r
    let (y, ok) := merge (rxFlow n d) s leg
    let y := if ok ∧ !y.ssrcLock then { y with held := some (y.held.getD r.ssrc) } else y
    let y := if y.top = none then { y with lastTs := none, lastMark := none } else y
    let d := updRxFlow n (fun _ => y) d
    if ok then packetPayload n s r d else d

/-- A waiting packet of an ancillary flow (R189): it passes when its video frame has come, and is discarded after one frame period. -/
def ancWaiting (n : Nat) (d : Dev) (w : Nat × Rtp × Time × Time) : Dev :=
  if ancMatches n w.2.1.ts d then passPacket n w.1 w.2.2.1 w.2.1 d
  else if w.2.2.2 + framePeriod (rxFlow n d).format ≤ d.up then rxfBump n fREJECT_FORMAT 1 d
  else updRxFlow n (fun x => { x with waiting := x.waiting ++ [w] }) d

/-- The waiting packets of a flow in the order of their arrival. -/
def ancDue (n : Nat) (d : Dev) : Dev :=
  (rxFlow n d).waiting.foldl (ancWaiting n) (updRxFlow n (fun x => { x with waiting := [] }) d)

/-- What waits at the receive flows is looked at again as time passes. -/
def flowsDue (d : Dev) : Dev :=
  let d := (tfind d.flows.rx fun x => decide (x.waiting ≠ [])).foldl (fun d n => ancDue n d) d
  (tfind d.flows.rx fun x => decide (x.grams ≠ [])).foldl (fun d n => gramsDue n d) d

/-- A packet of a flow, after the classifier (R202). -/
def flowPacket (n leg : Nat) (r : Rtp) (d : Dev) : Dev :=
  let d := rxfBump n (fRX_PKTS + 8 * leg) 1 (ancDue n d)
  let d := updRxFlow n (fun x => if leg = 0 then { x with upA := true, lastA := d.up } else { x with upB := true, lastB := d.up }) d
  let x := rxFlow n d
  if !x.en then rxfBump n fDISABLED 1 d
  else if r.version ≠ 2 ∨ (x.pt ≠ 0x80 ∧ r.pt ≠ x.pt) ∨ !payloadFits x r d then rxfBump n fREJECT_RTP 1 d
  else if (if x.ssrcLock then decide (r.ssrc ≠ x.ssrc) else match x.held with | some h => decide (r.ssrc ≠ h) | none => false) then
    rxfBump n fREJECT_RTP 1 d
  else if x.type = 1 ∧ !formatFits x r then abandonFrame n (rxfBump n fREJECT_FORMAT 1 d)
  else if x.type = 4 then ancWaiting n d (leg, r, d.house, d.up)
  else passPacket n leg d.house r d

/-- FLOW_CLASSIFY (R194): the frame at the head of RQ6 is looked up, checked and handed to its flow. -/
def flowClassify (p : Nat) (table : List WordErr) (window : SymErr) (d : Dev) : Dev :=
  match (queueOf p 1 6 d).rx with
  | [] => d
  | f :: _ =>
    let d := delivered p f.frame.len (takeRx p 6 d)
    let tbl (k : Nat) (d : Dev) : Dev := { d with flows.tbl.ctrs := bump d.flows.tbl.ctrs k }
    match f.frame.ip with
    | none => tbl 0x10 d
    | some ip =>
      if !ip.headerOk ∨ ip.fragment ∨ ip.proto ≠ 17 ∨ !ip.udpOk then tbl 0x10 d
      else
        let d := tbl 0x00 d
        -- The table and window checkers (R26): no entry of a word found uncorrectable matches.
        let key := flowKey ⟨f.port, ip.dst, 0, ip.dport, f.vid⟩
        let (bad, d) := sramChecks 0x240 0 0 (wordsRead d.flows.tbl.key key) table d
        match lookupKey d.flows.tbl.active key bad with
        | none => tbl 0x08 d
        | some e =>
          if e.path.src ≠ 0 ∧ e.path.src ≠ ip.src then tbl 0x18 d
          else
          let d := (sramCheck 0x241 e.flow e.flow window d).2
          match ip.rtp with
          | some r => flowPacket e.flow e.leg r d
          | none =>
            flowPacket e.flow e.leg
              { version := 0, pt := 0, ssrc := 0, seq := 0, ts := 0, marker := false, ext := none, payload := [] } d

def execFlowClassify (p : Nat) (s : State) (table : List WordErr := []) (window : SymErr := []) : Out :=
  onDevIf (fun d => blocksRun d && decide (p < 128)) (flowClassify p table window) s

/-- FLOW_PATH_DOWN (R205): no packet for 10 ms. -/
def execFlowPathDown (n leg : Nat) (s : State) : Out :=
  onDevIf (fun d => let x := rxFlow n d
      blocksRun d && (if leg = 0 then x.upA && decide (x.lastA + 10 * ms ≤ d.up) else x.upB && decide (x.lastB + 10 * ms ≤ d.up)))
    (fun d => postEvent 0x0201 n (le 1 leg) (rxfBump n (fPATH_LOSS + 8 * b2n (decide (leg ≠ 0))) 1
      (updRxFlow n (fun x => if leg = 0 then { x with upA := false } else { x with upB := false }) d))) s

/-- How many sequence numbers of a frame have not been accepted, from its first packet through its marker, or through the
number below the lowest of a later frame (R207); none where neither is known yet. -/
def missing (x : RxFlow) (f : IpFrame) : Option Nat :=
  let last : Option Nat := match f.marker with
    | some (m, _) => some m
    | none => f.later.map fun q => twos (seqBits x) ((q.1 : Int) - 1)
  last.map fun m => ((seqDiff x m (f.own.getD f.first) + 1).toNat) - f.got.length

/-- A frame's first packet was not received (R207): the marker before it shows an earlier number; or it is a video frame whose lowest
packet does not begin with the raster's first pixel, or an ancillary frame with none before it since enable or resync. -/
def headLost (x : RxFlow) (f : IpFrame) : Bool :=
  decide (f.own.getD f.first ≠ f.first) || (if x.type = 1 then !f.head else f.prev.isNone)

/-- The frame closes now (R206). -/
def frameDue (x : RxFlow) (f : IpFrame) (now : Time) : Bool :=
  let skew := (x.skew : Rat) * us
  match f.marker with
  | some (_, t) => decide (missing x f = some 0) || !merged x || decide (t + skew ≤ now)
  | none => match f.later with
    | some (_, t) => decide (t + skew ≤ now)
    | none => false

/-- A flow's oldest due frame closes: ready, patched or abandoned (R207). -/
def frameClose (n : Nat) (d : Dev) : Dev :=
  let x := rxFlow n d
  match x.frames.find? fun f => frameDue x f d.up with
  | none => d
  | some f =>
    let d := updRxFlow n (fun x => { x with frames := x.frames.filter fun g => decide (g ≠ f) }) d
    let keep := updRxFlow n (fun x => { x with closed := x.closed ++ [f] })
    match missing x f with
    | some m =>
      if headLost x f then flowAbandon n f (rxfBump n fABANDON 1 d)
      else if m = 0 then keep (rxfBump n fREADY 1 d)
      else if m ≤ x.lossLimit then keep (rxfBump n fPATCHED 1 d)
      else flowAbandon n f (rxfBump n fABANDON 1 d)
    | none => d

/-- The picture of a ring's frame as its flow has received it (R207): the segments of its closed frame, or fields, over FILL, which
is the sampling's black where none is configured. -/
def flowPicture (flow format : Nat) (s : Slot) (d : Dev) : Planes :=
  let x := rxFlow flow d
  let fill := if x.fill = [] then blackOf x.sampling else BitVec.ofNat 48 (leNat x.fill)
  ((x.closed.filter fun f => ofSlot format f s).flatMap (·.segs)).foldl (drawSeg x.format x.sampling)
    (plainPicture x.format x.sampling fill)

/-- Closed frames that no ring is still writing are kept no longer. -/
def forgetClosed (flow : Nat) (d : Dev) : Dev :=
  let rs := tfind d.fab.streams fun x => decide (x.n ≠ 0 ∧ x.kind = 3 ∧ x.id = flow)
  let wanted (f : IpFrame) : Bool := rs.any fun r => (stream r d).slots.any fun s => decide (s.state = 1) && ofSlot (stream r d).format f s
  updRxFlow flow (fun x => { x with closed := x.closed.filter wanted }) d

/-! ### Re-keying (R198 to R201) -/

/-- The order in which a re-key places entries (R200 step 2). -/
def rekeyOrder (t : Half) : List TblEntry :=
  let rank (e : TblEntry) := (e.flow * 2 + e.leg) * 2 + b2n e.pending.isSome
  (t.filterMap fun x => x.2).mergeSort fun a b => decide (rank a ≤ rank b)

/-- Every entry placed under a key; none where one does not fit. -/
def placeAll (key : BitVec 128) (es : List TblEntry) : Option Half :=
  es.foldl (fun t e => match t with
    | some t => placeEntry key t e
    | none => none) (some [])

/-- Every entry that finds a place, where no draw placed them all. -/
def placeFitting (key : BitVec 128) (es : List TblEntry) : Half :=
  es.foldl (fun t e => (placeEntry key t e).getD t) []

/-- The draws of step 2 (R200): the first whose stash holds at most STASH_TH, or after 8 the one with the fewest. Answers
the key, the half and the number of further draws. -/
def rekeyDraws (th : Nat) (es : List TblEntry) : Nat → Nat → Nat → BitVec 128 → Option (BitVec 128 × Half) → (BitVec 128 × Half × Nat)
  | 0, _, used, key, best =>
    match best with
    | some (k, h) => (k, h, used)
    | none => (key, placeFitting key es, used)
  | n + 1, free, used, key, best =>
    match placeAll key es with
    | some h =>
      if stashCount h ≤ th then (key, h, used)
      else
        let best := match best with
          | some (k, b) => if stashCount h < stashCount b then some (key, h) else some (k, b)
          | none => some (key, h)
        if n = 0 then rekeyDraws th es 0 free used key best
        else rekeyDraws th es n (free + 1) (used + 1) ((Config.entropy free).extractLsb' 0 128) best
    | none =>
      if n = 0 then rekeyDraws th es 0 free used key best
      else rekeyDraws th es n (free + 1) (used + 1) ((Config.entropy free).extractLsb' 0 128) best

/-- REKEY_PLACEMENT_DONE (R200 steps 2 and 3): the spare half is complete. A shadow places under the lead's key and draws
none; a lead sends KEYS with a switch instant 10 ms ahead; a unit outside a pair switches at once. -/
def rekeyPlaced (d : Dev) : Dev :=
  let b := d.flows.tbl
  let es := rekeyOrder b.active
  if roleMode d = SHADOW ∨ d.twn.newKeys.map (·.1) = some b.newKey then { d with flows.tbl := { b with spare := (placeAll b.newKey es).getD [], placed := true } }
  else
    let r := rekeyDraws b.stashTh es 8 d.free 0 b.newKey none
    let d := { d with
      free := d.free + r.2.2,
      flows.tbl := { b with newKey := r.1, spare := r.2.1, placed := true, ctrs := bumpBy b.ctrs 0x28 r.2.2,
                            switchAt := if d.twn.pair ≠ 0 then some (d.house + 10 * ms) else none } }
    if d.twn.pair ≠ 0 ∧ roleMode d = LEAD then sendTwin (.keys r.1 d.memc.key (d.house + 10 * ms)) d else d

def execRekeyPlacementDone (s : State) : Out :=
  onDevIf (fun d => perbyServes d && decide (d.flows.tbl.state = 2) && !d.flows.tbl.placed) rekeyPlaced s

/-- REKEY_SWITCH (R200 step 3): every MAC's lookups change to the new half in one cycle. -/
def execRekeySwitch (s : State) : Out :=
  onDevIf (fun d => let b := d.flows.tbl
      decide (b.state = 2) && b.placed && b.switched.isNone
        && (match b.switchAt with
            | some t => decide (t ≤ d.house)
            | none => true))
    (fun d => let b := d.flows.tbl
      { d with flows.tbl := { b with half := !b.half, key := b.newKey, active := b.spare, spare := b.active,
                                     switched := some d.up } }) s

/-- REKEY_COMPLETE (R200 step 4): 1 ms later the old half is cleared. -/
def execRekeyComplete (s : State) : Out :=
  onDevIf (fun d => match d.flows.tbl.switched with
      | some t => decide (d.flows.tbl.state = 2 ∧ t + ms ≤ d.up)
      | none => false)
    (fun d => let b := d.flows.tbl
      { d with
        cfg.epoch := d.cfg.epoch + 1,
        flows.tbl := { b with spare := [], epoch := b.epoch + 1, state := 1, switched := none, placed := false,
                              ctrs := bump b.ctrs 0x20 } }) s

/-! ### Sending (R209 to R217) -/

/-- The samples per second of the device audio rate. -/
def audioRate (d : Dev) : Nat := fsHz d

/-- Bytes of an audio sample: L24 or L16 (R187, R383), or an AM824 subframe (R188). -/
def sampleBytes (x : TxFlow) : Nat := if x.type = 3 then 4 else if Config.l16 x.pt then 2 else 3

/-- Packets of a frame or field (NPACKETS of R211); an ST 2022-6 flow's 1,376-byte datagrams carry its mapping's bits. -/
def packetsPer (x : TxFlow) : Nat :=
  if x.type = 5 then (mappingBitRate x.sampling x.format * fieldPeriod x.format / (1376 * 8)).ceil.toNat
  else nPackets x.format x.sampling x.maxPayload x.bpm

/-- A packet's time span for audio (R187, R188). -/
def audioPtime (x : TxFlow) : Time := if x.ptime = 1 then 125 * us else ms

/-- The raster of a send flow's egress slots (R183, R278): that which feeds it, or its framer. The one whose frames an ancillary flow
reads is open (log entry 226). -/
def flowRaster (n : Nat) (d : Dev) : Option Nat :=
  let x := txFlow n d
  match x.type with
  | 4 => if (raster (Config.ancRaster n) d).n = 0 then none else some (Config.ancRaster n)
  | 5 => rasterFeeding 4 x.source d
  | _ => rasterFeeding 3 n d

/-- The frame boundary at or before a time (R209): of the timing group of the egress slots, or of the format with phase 0. -/
def referenceAt (n : Nat) (t : Time) (d : Dev) : Time :=
  let p := framePeriod (txFlow n d).format
  match flowRaster n d with
  | some slot => let g := timGroup (rasterTg slot d) d; tgTime g (tgIndex g t)
  | none => if p ≤ 0 then t else ((t / p).floor : Rat) * p

/-- The frame reference (R209). -/
def frameReference (n : Nat) (d : Dev) : Time := referenceAt n d.house d

/-- The reference of the frame or field in progress: the second field of a frame begins a field period after the frame. -/
def fieldReference (n : Nat) (d : Dev) : Time :=
  let f := (txFlow n d).format
  let b := frameReference n d
  if byField f ∧ b + fieldPeriod f ≤ d.house then b + fieldPeriod f else b

/-- A flow's frame or field in progress is a second field. -/
def inSecondField (n : Nat) (x : TxFlow) (d : Dev) : Bool := byField x.format && decide (referenceAt n x.base d < x.base)

/-- A packet's time (R212): what it waits for from `base`, the reference of its frame or field or, for audio, the block of the
packet before it, rounded up to a PKT cycle (425 MHz, R72). -/
def packetTime (x : TxFlow) (k : Nat) : Time :=
  let t := match x.type with
    | 1 =>
      let k := if x.typeW then k / 4 * 4 else k
      let tro : Time := if x.tro = 0 then (Config.troDefault x.format : Rat) else (x.tro : Rat)
      x.base + tro + (k : Rat) * fieldPeriod x.format * (activeLines x.format : Rat) / (totalLines x.format : Rat)
        / (packetsPer x : Rat)
    | 4 => x.base + (k : Rat) * framePeriod x.format / (totalLines x.format : Rat)
    | 5 => x.base + (k : Rat) * fieldPeriod x.format / (packetsPer x : Rat)
    | _ => x.base + audioPtime x
  ((t * 425 / 1000).ceil : Rat) * 1000 / 425

/-- The ancillary payloads of a frame or field (R189): the packets of the frame that its slots read. -/
def ancLoad (n : Nat) (x : TxFlow) (d : Dev) : List (List Byte) :=
  let second := inSecondField n x d
  let ps := match flowRaster n d with
    | some slot => if byField x.format then (rasterAnc slot d).filter (fun p => p.field == second) else rasterAnc slot d
    | none => []
  ancLoads x.maxPayload (if byField x.format then 2 + b2n second else 0) ps

/-- The flow with the reference of its next packet's frame or field: a frame in progress keeps its own, and the next one takes
the newest, when that has come, with the claim of that frame (R217) and its ancillary packets. -/
def rebased (n : Nat) (d : Dev) : Option TxFlow :=
  let x := txFlow n d
  if x.type = 2 ∨ x.type = 3 ∨ x.k ≠ 0 then some x
  else if fieldReference n d = x.base then none
  else
    let x := { x with base := fieldReference n d, frameClaim := claimSupplied d }
    some (if x.type = 4 then { x with load := ancLoad n x d } else x)

/-- The flow's next packet is due. -/
def packetDue (n : Nat) (d : Dev) : Bool :=
  match rebased n d with
  | some x => decide (packetTime x x.k ≤ d.house)
  | none => false

/-- A sample as a send flow carries it (R187, R188, R383). -/
def sampleSent (x : TxFlow) (first : Bool) (s : Sample) : List Byte :=
  match sampleBytes x with
  | 4 => am824Bytes first s
  | 2 => beBytes 2 (twos 16 (clampI ((s.v24.toInt + 128) / 256) (-32768) 32767))
  | _ => beBytes 3 s.v24.toNat

/-- The payload of the next packet of an audio flow: the samples of its destinations, instant by instant, of the blocks that its span
covers; a block is sent two blocks after its own (R356, R549). -/
def audioPayload (x : TxFlow) (d : Dev) : List Byte :=
  let b := blockOf x.base - 2
  (List.range (if x.ptime = 1 then 1 else 8)).flatMap fun i =>
    (List.range (spb d)).flatMap fun j => (List.range x.channels).flatMap fun c =>
      sampleSent x (decide (c % 2 = 0)) (((tget x.taken (b + i)).getD c []).getD j {})

/-- The payload of the next packet, and whether it is the last of its frame or field (R183, R189, R190, R209, R211). -/
def packetContent (n : Nat) (x : TxFlow) (d : Dev) : List Byte × Bool :=
  let ext := x.seq / 65536 % 65536
  let second := inSecondField n x d
  let last := decide (packetsPer x ≤ x.k + 1)
  match x.type with
  | 1 =>
    let q := packetRange x.format x.sampling x.maxPayload x.bpm x.k
    let pic : Planes := match flowRaster n d with
      | some slot => if referenceAt n x.base d < frameReference n d then (raster slot d).prior else (raster slot d).sent
      | none => []
    (videoPayload x.format x.sampling second ext q.1 q.2 pic, last)
  | 4 => (beBytes 2 ext ++ x.load.getD x.k [], decide (x.load.length ≤ x.k + 1))
  | 5 =>
    let t := tx (192 + x.source) d
    (datagramHeader t.mapping x.format t.frames
      ++ datagramBytes t x.format (if second then wireFrame t.mapping x.format / 2 else 0) x.k, last)
  | _ => (audioPayload x d, false)

/-- The RTP timestamp of a packet scheduled now (R209): the 90 kHz count of the frame reference, or the fs count of the
packet's first sample, its media index (R355). -/
def rtpTs (x : TxFlow) (d : Dev) : Nat :=
  if x.type = 2 ∨ x.type = 3 then (((x.base - 250 * us) * (audioRate d : Rat) / 1000000000).floor % (2 : Int) ^ 32).toNat
  else ((x.base * 90000 / 1000000000).floor % (2 : Int) ^ 32).toNat

/-- The destination MAC address (R210): RFC 1112's mapping for a multicast group, DST_MAC for a unicast address. -/
def destMac (q : TxPath) : List Byte :=
  if q.dst / 2 ^ 28 = 0xE then [0x01, 0x00, 0x5E] ++ (le 3 (q.dst % 2 ^ 23)).reverse else q.mac

/-- The headers of a flow's packets on a path (R210). -/
def mediaHdr (x : TxFlow) (q : TxPath) (d : Dev) : MediaHdr :=
  { mac := destMac q, tag := if q.vid = 0xFFFF then none else some (q.vid, q.pcp), src := (port q.port d).ip, dst := q.dst,
    sport := x.srcUdp, dport := q.udp, ttl := x.ttl, dscp := x.dscp }

/-- A media packet's length with tag and FCS (R210, R217). -/
def mediaLen (path : TxPath) (claim : Bool) (payload : Nat) : Nat :=
  payload + 12 + (if claim then 12 else 0) + 8 + 20 + 14 + (if path.vid = 0xFFFF then 0 else 4) + 4

/-- A send flow's essence is there: its egress raster reads frames, and a framer has begun the present one; audio needs no raster. -/
def essenceReady (n : Nat) (d : Dev) : Bool :=
  let x := txFlow n d
  if x.type = 2 ∨ x.type = 3 then true
  else match flowRaster n d with
    | some slot =>
      let t := tx (192 + x.source) d
      rasterReads slot d && (decide (x.type ≠ 5) || (decide (t.state = 2)
        && decide (t.lastK = some (tgIndex (timGroup (rasterTg slot d) d) d.house))))
    | none => false

/-- A send flow schedules its next packet now. -/
def sendsNow (n : Nat) (d : Dev) : Bool := (txFlow n d).en && essenceReady n d && packetDue n d

/-- No other packet goes before the next one of flow `n` (R213): packets are entered in the order of their cycles, and those of one
cycle in ascending flow number. -/
def firstInTurn (n : Nat) (d : Dev) : Bool :=
  let at_ (m : Nat) : Time := match rebased m d with
    | some x => packetTime x x.k
    | none => 0
  d.flows.tx.all fun e => decide (e.1 = n) || !sendsNow e.1 d || decide (at_ n < at_ e.1) || (decide (at_ n = at_ e.1) && decide (n < e.1))

/-- The next packet of flow `n` has this sequence number and this place. -/
def packetIs (n seq k : Nat) (d : Dev) : Bool :=
  let x := (rebased n d).getD (txFlow n d)
  decide (x.seq = seq ∧ x.k = k)

/-- PACKET_SCHEDULED (R209, R210, R212, R213, R215 to R217): the packet is built once and entered in TQ6 of each path's port,
path A before path B; while suppressed it only consumes its sequence number. Audio carries the claim in force as it is built. -/
def packetScheduled (n : Nat) (d : Dev) : Dev :=
  let x := (rebased n d).getD (txFlow n d)
  let c := packetContent n x d
  let sched := packetTime x x.k
  let audio := x.type = 2 ∨ x.type = 3
  let claim := if audio then claimSupplied d else x.frameClaim
  let withClaim := x.claim && decide (claim ≠ 0)
  let d := updTxFlow n (fun _ => { x with seq := (x.seq + 1) % 2 ^ 32, k := if audio ∨ c.2 then 0 else x.k + 1,
                                          base := if audio then x.base + audioPtime x else x.base,
                                          taken := x.taken.filter fun e => decide (blockOf (x.base + audioPtime x) - 2 ≤ e.1),
                                          claimSent := withClaim && !suppressed n d }) d
  let d := txfBump n tTX_PKTS 1 d
  if suppressed n d then txfBump n tSUPPRESSED 1 d
  else
    let send (leg : Nat) (o : Option TxPath) (d : Dev) : Dev :=
      match o with
      | none => updTxFlow n (fun f => { f with lacked := if f.lacked.contains leg then f.lacked else f.lacked ++ [leg] }) d
      | some path =>
        offer path.port 6
          { len := mediaLen path withClaim c.1.length,
            media := some { flow := n, path := leg, seq := x.seq, ts := rtpTs x d, marker := c.2,
                            ext := if withClaim then claimExt x.claimId claim else [], sched := sched, pt := x.pt, ssrc := x.ssrc,
                            payload := c.1, hdr := mediaHdr x path d } } d
    let d := send 0 x.pathA d
    send 1 (if x.dual then x.pathB else none) d

/-- The packet comes about when it is the flow's next: it is named by its sequence number and its place in its frame or field. -/
def execPacketScheduled (n seq k : Nat) (s : State) : Out :=
  onDevIf (fun d => outputsRun d && decide (n < 8192) && sendsNow n d && firstInTurn n d && packetIs n seq k d) (packetScheduled n) s

/-- The wire rate of a flow on a path in bits per ns, with every header, preamble and gap (R214): that of the span in which its packets
are scheduled. Every packet of a frame is counted with its own length; those of an ancillary flow, whose lengths the content
decides, as one full packet a line. -/
def paceOf (x : TxFlow) (path : TxPath) (d : Dev) : Time :=
  let wire (payload : Nat) : Nat := mediaLen path x.claim payload + 20
  let per (bytes : Nat) (t : Time) : Time := 8 * (bytes : Rat) / t
  match x.type with
  | 1 => per (nPackets x.format x.sampling x.maxPayload x.bpm * wire 2 + 6 * rowHeaderCount x.format x.sampling x.maxPayload x.bpm
      + rowCount x.format x.sampling * rowLength x.format x.sampling) (activeSpan x.format)
  | 4 => per (wire (x.maxPayload + 2)) (framePeriod x.format / (totalLines x.format : Rat))
  | 5 => per (packetsPer x * wire 1384) (fieldPeriod x.format)
  | _ => per (wire (x.channels * packetInstants x.ptime d * sampleBytes x)) (audioPtime x)

/-- The media packets of some port would exceed its PACE_LIMIT (R214). -/
def overPaced (d : Dev) : Bool :=
  let flows := d.flows.tx.filter fun e => e.2.en
  (List.range 128).any fun p =>
    let sum := flows.foldl (fun (n : Time) e =>
      let on (o : Option TxPath) : Time := match o with
        | some q => if q.port = p then paceOf e.2 q d else 0
        | none => 0
      n + on e.2.pathA + (if e.2.dual then on e.2.pathB else 0)) 0
    decide ((portGbps p d : Rat) * ((port p d).pace : Rat) / 100 < sum)

/-- IGMP_QUERY (R221): Perby reports the groups asked for that it has joined. -/
def execIgmpQuery (p group : Nat) (s : State) : Out :=
  onDevIf (fun d => blocksRun d && perbyServes d && portExists p d && decide (queriedGroups p group d ≠ []))
    (fun d => sendIgmp p (queriedGroups p group d) d) s

/-- ARP_REQUEST (R221): Perby answers for the port's own address. -/
def execArpRequest (p ip : Nat) (s : State) : Out :=
  onDevIf (fun d => blocksRun d && perbyServes d && portExists p d && decide ((port p d).ip ≠ 0 ∧ (port p d).ip = ip))
    (fun d => offer p 5 { len := 64 } { d with flows.arpSent := tupd d.flows.arpSent p (· + 1) }) s

/-! ### Commands of family 0x05 (R226 to R228) -/

def flowField (off : Nat) : Fld := rng off 2 0 8191

/-- An IPv4 address, a little-endian field of the payload like every other (R10). -/
def ipv4 (p : List Byte) (off : Nat) : Nat := u32 p off

def cmdFlowPortIp : CmdSpec where
  opcode := 0x0501
  len := len 12
  fields _ := [rng 1 1 2 3, rng 2 1 8 30, res 3 1, rng 8 1 50 95, res 9 3]
  stageable := true
  unitLocal := true
  obj p := [u8 p 0]
  check a d :=
    let p := a.payload
    firstOf [
      noPort (u8 p 0) d,
      refuseIf (overPaced (updPort (u8 p 0) (fun x => { x with pace := u8 p 8 }) d)) 0x0014]
  apply a d :=
    let p := a.payload
    updPort (u8 p 0) (fun x => { x with ip := ipv4 p 4, plen := u8 p 2, igmp := u8 p 1, pace := u8 p 8 }) d

/-- Combinations of type, format, sampling, channels and packet time that R185 to R190 list. -/
def flowComboOk (type f s ch pt : Nat) : Bool :=
  match type with
  | 1 => decide (s ≤ 8) && !(decide (s = 6 ∨ s = 7) && (interlaced f || segmented f)) && decide (ch = 0)
  | 2 => decide (s = 0 ∧ 1 ≤ ch ∧ ch ≤ (if pt = 1 then 64 else 8))
  | 3 => decide (s = 0 ∧ 2 ≤ ch ∧ ch ≤ 16 ∧ ch % 2 = 0)
  | 4 => decide (s = 0 ∧ ch = 0)
  | 5 => decide (s ≤ 4 ∧ ch = 0) && (List.range 6).any fun k => sdiCarries s f k
  | 6 => decide (s = 0 ∧ ch = 0)
  | _ => false

/-- The format field: a defined format for types 1, 4 and 5, else 0 (R572). -/
def formatField (off type : Nat) : Fld :=
  fok off 1 fun v => if type = 1 ∨ type = 4 ∨ type = 5 then definedFormat v else decide (v = 0)

/-- A receive flow's configuration fields from its payload. -/
def rxConfigured (p : List Byte) (x : RxFlow) : RxFlow :=
  { x with
    type := u8 p 2, ssrcLock := bitOf (u8 p 3) 0, witness := bitOf (u8 p 3) 1, claimFilter := bitOf (u8 p 3) 2,
    format := u8 p 4, sampling := u8 p 5, pt := u8 p 6, claimId := u8 p 7, ssrc := BitVec.ofNat 32 (u32 p 8), dest := u16 p 12,
    channels := u8 p 14, ptime := u8 p 15, skew := u16 p 16, lossLimit := u16 p 18, offset := u16 p 20,
    minPayload := u16 p 22, fill := (p.drop 24).take 6 }

/-- Witness flows (R220). -/
def witnesses (d : Dev) : Nat := (d.flows.rx.filter fun e => e.2.witness || decide (e.2.type = 6)).length

/-- The source channels that a receive flow writes. -/
def flowChannels (x : RxFlow) : List Nat :=
  if x.type = 2 ∨ x.type = 3 then (List.range x.channels).map (x.dest + ·) else []

/-- The point of a receive flow's unstaged change (R227): its next frame boundary, or the next block for audio; a flow
with no frame in progress changes at once. -/
def rxFlowPoint (n : Nat) (d : Dev) : Point :=
  let x := rxFlow n d
  if !x.en then .now
  else if x.type = 2 ∨ x.type = 3 then .block (nextBlock d.house)
  else if x.frames = [] then .now else .flowFrame n

/-- The source channels of a flow follow its configuration (R359, R361): those it leaves are given up, those it writes take
its lead. -/
def flowSources (n : Nat) (x y : RxFlow) (d : Dev) : Dev :=
  let d := ((flowChannels x).filter fun c => !(flowChannels y).contains c).foldl (fun d c => dropSource 2 n c d) d
  (flowChannels y).foldl (fun d c => takeSource 2 n c d) d

def cmdFlowRxConfig : CmdSpec where
  opcode := 0x0502
  len := len 32
  fields p := [flowField 0, fok 3 1 (fun v => decide (v < 8)), formatField 4 (u8 p 2), rng 6 1 0 128, rng 7 1 1 14,
    rng 16 2 100 10000,
    fok 20 2 (fun v => decide (u8 p 2 ≠ 2 ∧ u8 p 2 ≠ 3) || decide (125 ≤ v ∧ v ≤ 8000)),
    fok 22 2 (fun v => decide (v = 0) || (decide (u8 p 2 = 1) && decide (180 ≤ v ∧ v ≤ 8900))), res 30 2]
  stageable := true
  obj p := [u16 p 0]
  removal p := some ⟨0x0506, p.take 2 ++ le 2 0⟩
  check a d :=
    let p := a.payload
    let n := u16 p 0
    let x := rxFlow n d
    let y := rxConfigured p x
    let need := blocksNeeded y
    firstOf [
      refuseIf (decide (u8 p 2 < 1 ∨ 6 < u8 p 2 ∨ 1 < u8 p 15) || !flowComboOk (u8 p 2) (u8 p 4) (u8 p 5) (u8 p 14) (u8 p 15)) 0x0011,
      refuseIf (x.en && decide (x.type ≠ u8 p 2)) 0x0006,
      refuseIf (decide (y.type = 5 ∧ 63 < y.dest)) 0x0015,
      refuseIf (decide ((y.type = 1 ∨ y.type = 4 ∨ y.type = 6) ∧ y.dest ≠ 0xFFFF)) 0x0015,
      refuseIf ((flowChannels y).any fun c => decide (srcCount d ≤ c) || srcHeldByOther 2 n c d) 0x0015,
      refuseIf (decide (y.type = 5) && d.flows.rx.any fun e => decide (e.1 ≠ n ∧ e.2.type = 5 ∧ e.2.dest = y.dest)) 0x0015,
      refuseIf (decide (64 < witnesses (updRxFlow n (fun _ => y) d))) 0x0015,
      refuseIf (decide (16 < need ∨ d.flows.free + x.blocks < need)) 0x0013,
      refuseIf (!poolOk (flowSources n x y (updRxFlow n (fun _ => y) d))) 0x0005]
  point p d := rxFlowPoint (u16 p 0) d
  apply a d :=
    let p := a.payload
    let n := u16 p 0
    let x := rxFlow n d
    let y := rxConfigured p x
    let d := updRxFlow n (rewindow x) (setBlocks n (blocksNeeded y) (flowSources n x y (updRxFlow n (rxConfigured p) d)))
    if y.type = 5 then
      let m := 192 + y.dest
      let r := rx m d
      let put (d : Dev) : Dev := updRx m (fun r => { r with cfgFormat := y.format, cfgMapping := y.sampling, cfgSampling := 0xFF }) d
      if y.en = false ∨ r.state = 0 ∨ (r.cfgFormat = y.format ∧ r.cfgMapping = y.sampling) then put d
      else reconfigured m r.state (put (sdiAbandon m d))
    else d

/-- The active and pending entries that hold a key, other than those of one path. -/
def holders (k n leg : Nat) (d : Dev) : List TblEntry :=
  d.flows.tbl.active.filterMap fun x => match x.2 with
    | some e => if flowKey e.path = k ∧ ¬ (e.flow = n ∧ e.leg = leg) then some e else none
    | none => none

/-- An entry is placed in the active half; none where the placement fails (R197). -/
def tryPlace (e : TblEntry) (remove : TblEntry → Bool) (d : Dev) : Bool :=
  (placeEntry d.flows.tbl.key (removeEntries d.flows.tbl.key d.flows.tbl.active remove) e).isSome

/-- A path of a receive flow from its payload. -/
def rxPathOf (p : List Byte) : RxPath := ⟨u8 p 3, ipv4 p 4, ipv4 p 8, u16 p 12, u16 p 14⟩

/-- The path, the window blocks and the window of a receive flow follow a path change (R204). -/
def setRxPath (n leg : Nat) (o : Option RxPath) (d : Dev) : Dev :=
  let x := rxFlow n d
  let d := updRxFlow n (fun x => if leg = 0 then { x with pathA := o } else { x with pathB := o }) d
  updRxFlow n (rewindow x) (setBlocks n (blocksNeeded (rxFlow n d)) d)

def cmdFlowRxPath : CmdSpec where
  opcode := 0x0503
  len := len 16
  fields p := [flowField 0, rng 2 1 0 1]
    ++ (if u8 p 3 = 0xFF then [] else [rng 12 2 1 65535, rng 14 2 1 4094])
  stageable := true
  obj p := [u16 p 0, u8 p 2]
  removal p := some ⟨0x0503, p.take 3 ++ [0xFF] ++ p.drop 4⟩
  sheds p := decide (u8 p 3 = 0xFF)
  check a d :=
    let p := a.payload
    let n := u16 p 0
    let leg := u8 p 2
    if u8 p 3 = 0xFF then none
    else
      let q := rxPathOf p
      let x := rxFlow n d
      let y := if leg = 0 then { x with pathA := some q } else { x with pathB := some q }
      let need := blocksNeeded y
      let hs := holders (flowKey q) n leg d
      firstOf [
        refuseIf (!portExists q.port d || decide ((port q.port d).ip = 0)) 0x0010,
        refuseIf (decide (d.flows.tbl.state = 0)) 0x0016,
        -- R196, R227: one active entry at most, and beside it one pending.
        refuseIf (hs.any fun e => e.pending.isNone || decide (a.mbx = 0xFF)) 0x0006,
        refuseIf (!tryPlace { path := q, flow := n, leg := leg } (fun e => decide (e.flow = n ∧ e.leg = leg) && e.pending.isNone) d) 0x0012,
        refuseIf (decide (16 < need ∨ d.flows.free + x.blocks < need)) 0x0013]
  apply a d :=
    let p := a.payload
    let n := u16 p 0
    let leg := u8 p 2
    let o := if u8 p 3 = 0xFF then none else some (rxPathOf p)
    let own (e : TblEntry) : Bool := decide (e.flow = n ∧ e.leg = leg) && e.pending.isNone
    -- A bank's entry has been placed as the bank was sealed, and stands active from the commit instant (R196).
    let stands := d.flows.tbl.active.any fun x => match x.2 with
      | some e => own e && decide (o = some e.path)
      | none => false
    if stands then setRxPath n leg o d
    else
      let d := changeTable (fun key t => removeEntries key t own) d
      let d := match o with
        | some q => rekeyIfFull (changeTable (fun key t => (placeEntry key t { path := q, flow := n, leg := leg }).getD t) d)
        | none => d
      setRxPath n leg o d

def cmdFlowRxEnable : CmdSpec where
  opcode := 0x0504
  len := len 4
  fields _ := [flowField 0, res 2 2]
  stageable := true
  obj p := [u16 p 0]
  removal p := some ⟨0x0505, le 4 0 ++ p.take 2 ++ le 2 0⟩
  check a d :=
    let n := u16 a.payload 0
    firstOf [refuseIf (drainOf (.rxFlow n) d).isSome 0x0002, refuseIf (decide ((rxFlow n d).type = 0)) 0x0011]
  -- R202, R204: no packet has been accepted and no SSRC is held since the enable.
  apply a d :=
    let n := u16 a.payload 0
    let x := rxFlow n d
    if x.en then d
    else
      let d := updRxFlow n (fun x => { restartMerge x with
        en := true, frames := [], lastTs := none, lastMark := none, claims := [], closed := [], csBits := [], grams := [], nextGram := none }) d
      if x.type = 5 then
        updRx (192 + x.dest) (fun r => { r with en := true, wire := {}, cfgFormat := x.format, cfgMapping := x.sampling,
                                                cfgSampling := 0xFF, state := if r.state = 0 then 1 else r.state }) d
      else d

def cmdFlowRxDisable : CmdSpec where
  opcode := 0x0505
  len := len 8
  fields _ := [disableWord, flowField 4, res 6 2]
  stageable := true
  obj p := [u16 p 4]
  sheds _ := true
  disables := some fun p _ => [.rxFlow (u16 p 4)]

def cmdFlowRxDelete : CmdSpec where
  opcode := 0x0506
  len := len 4
  fields _ := [flowField 0, res 2 2]
  stageable := true
  obj p := [u16 p 0]
  sheds _ := true
  check a d := refuseIf (rxFlow (u16 a.payload 0) d).en 0x0002
  apply a d :=
    let n := u16 a.payload 0
    let x := rxFlow n d
    let d := changeTable (fun key t => removeEntries key t fun e => decide (e.flow = n)) d
    let d := (flowChannels x).foldl (fun d c => dropSource 2 n c d) (setBlocks n 0 d)
    updRxFlow n (fun x => { ctrs := (restartMerge x).ctrs }) d

/-- A send flow's configuration fields from its payload. -/
def txConfigured (p : List Byte) (x : TxFlow) : TxFlow :=
  { x with
    type := u8 p 2, dual := bitOf (u8 p 3) 0, claim := bitOf (u8 p 3) 1, typeW := bitOf (u8 p 3) 2, bpm := bitOf (u8 p 3) 3,
    format := u8 p 4, sampling := u8 p 5, pt := u8 p 6, claimId := u8 p 7, ssrc := BitVec.ofNat 32 (u32 p 8), source := u16 p 12,
    channels := u8 p 14, ptime := u8 p 15, maxPayload := u16 p 16, seqInit := u16 p 18, tro := u32 p 20, dscp := u8 p 24,
    ttl := u8 p 25, srcUdp := u16 p 26 }

/-- The point of a send flow's unstaged change (R227). -/
def txFlowPoint (n : Nat) (t : Time) (now : Bool) (d : Dev) : Point :=
  let x := txFlow n d
  if !x.en then (if now then .now else .strobe t)
  else if x.type = 2 ∨ x.type = 3 then .block (nextBlock t)
  else match flowRaster n d with
    | some slot => .frame (rasterTg slot d) t
    | none => if now then .now else .strobe t

def cmdFlowTxConfig : CmdSpec where
  opcode := 0x0507
  len := len 32
  fields p := [flowField 0, fok 3 1 (fun v => decide (v < 16)), formatField 4 (u8 p 2), rng 6 1 96 127, rng 7 1 1 14,
    rng 16 2 180 8900, rng 24 1 0 63, rng 25 1 1 255, res 28 4]
  stageable := true
  obj p := [u16 p 0]
  removal p := some ⟨0x050A, le 4 0 ++ p.take 2 ++ le 2 0⟩
  check a d :=
    let p := a.payload
    let n := u16 p 0
    let x := txFlow n d
    let y := txConfigured p x
    let ch := if y.type = 2 ∨ y.type = 3 then (List.range y.channels).map (y.source + ·) else []
    firstOf [
      refuseIf (decide (u8 p 2 < 1 ∨ 5 < u8 p 2 ∨ 1 < u8 p 15) || !flowComboOk (u8 p 2) (u8 p 4) (u8 p 5) (u8 p 14) (u8 p 15)) 0x0011,
      refuseIf (x.en && decide (x.type ≠ u8 p 2)) 0x0006,
      refuseIf (decide (y.type = 5 ∧ 63 < y.source)) 0x0015,
      refuseIf (decide ((y.type = 1 ∨ y.type = 4) ∧ y.source ≠ 0xFFFF)) 0x0015,
      refuseIf (ch.any fun c => decide (destCount d ≤ c)) 0x0015,
      refuseIf (decide (y.type = 5) && d.flows.tx.any fun e => decide (e.1 ≠ n ∧ e.2.type = 5 ∧ e.2.source = y.source)) 0x0015,
      refuseIf (overPaced (updTxFlow n (fun _ => y) d)) 0x0014]
  point p d := txFlowPoint (u16 p 0) d.house true d
  commit p d t := txFlowPoint (u16 p 0) t false d
  apply a d :=
    let p := a.payload
    let n := u16 p 0
    let d := updTxFlow n (txConfigured p) d
    if u8 p 2 = 5 then updTx (192 + u16 p 12) (fun t => { t with cfgMapping := u8 p 5, claimIns := bitOf (u8 p 3) 1 }) d else d

def cmdFlowTxPath : CmdSpec where
  opcode := 0x0508
  len := len 20
  fields _ := [flowField 0, rng 2 1 0 1, rng 8 2 1 65535, fok 10 2 (fun v => decide (1 ≤ v ∧ v ≤ 4094) || decide (v = 0xFFFF)),
    rng 12 1 0 7, res 13 1]
  stageable := true
  obj p := [u16 p 0, u8 p 2]
  check a d :=
    let p := a.payload
    let q : TxPath := ⟨u8 p 3, ipv4 p 4, u16 p 8, u16 p 10, u8 p 12, (p.drop 14).take 6⟩
    firstOf [
      refuseIf (!portExists q.port d || decide ((port q.port d).ip = 0)) 0x0010,
      refuseIf (overPaced (updTxFlow (u16 p 0) (fun x => if u8 p 2 = 0 then { x with pathA := some q } else { x with pathB := some q }) d)) 0x0014]
  point p d := txFlowPoint (u16 p 0) d.house true d
  commit p d t := txFlowPoint (u16 p 0) t false d
  apply a d :=
    let p := a.payload
    let q : TxPath := ⟨u8 p 3, ipv4 p 4, u16 p 8, u16 p 10, u8 p 12, (p.drop 14).take 6⟩
    updTxFlow (u16 p 0) (fun x => if u8 p 2 = 0 then { x with pathA := some q } else { x with pathB := some q }) d

def cmdFlowTxEnable : CmdSpec where
  opcode := 0x0509
  len := len 4
  fields _ := [flowField 0, res 2 2]
  stageable := true
  obj p := [u16 p 0]
  removal p := some ⟨0x050A, le 4 0 ++ p.take 2 ++ le 2 0⟩
  check a d :=
    let n := u16 a.payload 0
    firstOf [
      refuseIf (drainOf (.txFlow n) d).isSome 0x0002,
      refuseIf (decide ((txFlow n d).type = 0)) 0x0011,
      refuseIf (overPaced (updTxFlow n (fun x => { x with en := true }) d)) 0x0014]
  -- R209, R213: the first packet carries SEQ_INIT, with the next frame or field or the samples from here on, and the lateness
  -- starts anew.
  apply a d :=
    let n := u16 a.payload 0
    let x := txFlow n d
    if x.en then d
    else
      let base := if x.type = 2 ∨ x.type = 3 then (blockOf d.house : Rat) * (125 * us) else fieldReference n d
      let d := updTxFlow n (fun x => { x with en := true, seq := x.seqInit, late := 0, k := 0, base := base, load := [], taken := [], claimSent := false }) d
      if x.type = 5 then updTx (192 + x.source) (fun t => { t with en := true, cfgMapping := x.sampling,
                                                                    state := if t.state = 0 then 1 else t.state }) d
      else d

def cmdFlowTxDisable : CmdSpec where
  opcode := 0x050A
  len := len 8
  fields _ := [disableWord, flowField 4, res 6 2]
  stageable := true
  obj p := [u16 p 4]
  sheds _ := true
  disables := some fun p _ => [.txFlow (u16 p 4)]

def cmdFlowRekey : CmdSpec where
  opcode := 0x050B
  len := len 4
  fields _ := [fok 0 1 (fun v => decide (v = 0) || decide (8 ≤ v ∧ v ≤ 120)), res 1 3]
  check _ d :=
    firstOf [refuseIf (decide (d.flows.tbl.state = 2 ∨ roleMode d = SHADOW)) 0x0017, refuseIf (decide (d.flows.tbl.state = 0)) 0x0016]
  apply a d :=
    let v := u8 a.payload 0
    startRekey (if v = 0 then d else { d with flows.tbl.stashTh := v })
  reply _ d _ := { payload := le 4 d.flows.tbl.epoch.toNat }

def cmdFlowStatusRead : CmdSpec where
  opcode := 0x050C
  len := len 4
  fields _ := [rng 0 1 1 3, res 1 1, flowField 2]
  reply a _ d :=
    let n := u16 a.payload 2
    let words := match u8 a.payload 0 with
      | 1 =>
        let x := rxFlow n d
        le 4 (flowRxStatus n d) ++ le 4 x.claimA.toNat ++ le 4 x.claimB.toNat ++ le 4 0 ++ le 8 x.seenA ++ le 8 x.seenB
          ++ ctrBytes x.ctrs 0x40 22
      | 2 =>
        let x := txFlow n d
        le 4 (flowTxStatus n d) ++ le 4 (min x.late (2 ^ 32 - 1)) ++ ctrBytes x.ctrs 0x40 6
      | _ =>
        let b := d.flows.tbl
        le 4 (flowTblStatus d) ++ le 4 (entryCount b.active) ++ le 4 b.epoch.toNat ++ le 4 d.flows.free ++ ctrBytes b.ctrs 0 6
    { payload := words }

/-- Family 0x05. -/
def family05 : List CmdSpec :=
  [cmdFlowPortIp, cmdFlowRxConfig, cmdFlowRxPath, cmdFlowRxEnable, cmdFlowRxDisable, cmdFlowRxDelete, cmdFlowTxConfig,
   cmdFlowTxPath, cmdFlowTxEnable, cmdFlowTxDisable, cmdFlowRekey, cmdFlowStatusRead]

end Sys2Proof.Machine
end

