-- ==== Sys2Proof/Machine/Memc.lean ====
section
/-! DEFINITION. Chapter 7: the frame store; the commands of family 0x06 and the events of this chapter. -/

namespace Sys2Proof.Machine

/-! ### Registers (R272) -/

def memcCfgWord (d : Dev) : Nat :=
  let m := d.memc
  fld (b2n m.autoRetire) 31 1 + fld m.migPar 24 7 + fld m.ueTh 16 8 + fld m.ceExp 11 5

def memcStatusWord (d : Dev) : Nat :=
  let m := d.memc
  let r := match m.retire with
    | some r => r.pcs.headD 0x7F
    | none => 0x7F
  fld m.keyState 30 2 + fld (b2n (anyMigration d)) 29 1 + fld r 22 7 + fld m.set.length 15 7 + fld m.epoch 0 15

def inServiceWord (hi : Bool) (d : Dev) : Nat :=
  (List.range 32).foldl (fun n i => n + b2n (d.memc.set.contains (if hi then 32 + i else i)) * 2 ^ i) 0

def memcWinWord (d : Dev) : Nat := fld (b2n d.memc.winEn) 31 1 + fld d.memc.winPc 0 6
def memcScrubWord (d : Dev) : Nat := fld (b2n d.memc.scrubEn) 31 1 + fld d.memc.periodH 23 8
def memcHolidayWord (d : Dev) : Nat := fld d.memc.retrainMs 22 10 + fld d.memc.tempStep 17 5

def pcStatusWord (k : Nat) (d : Dev) : Nat :=
  let x := pc k d
  let (h, kind) := match x.holiday with
    | some (r, _) => (true, r)
    | none => (false, false)
  fld x.state 29 3 + fld (b2n h) 28 1 + fld (b2n kind) 27 1 + fld (tagsFree x) 17 10 + fld x.lastSym 11 6

/-- L_j of a pseudo-channel in service, 0 for another. -/
def pcLoadWord (k : Nat) (d : Dev) : Nat :=
  match findIdx? (fun j => decide (j = k)) d.memc.set with
  | some (i, _) => loadMB ((loadsOn d.memc.set d).getD i 0)
  | none => 0

/-! ### Requests, bursts and Holidays (R247 to R256) -/

/-- MEMORY_REQUEST (R247, R251, R261): a request takes a tag and is queued, or waits for one; a pseudo-channel in reset or
failure answers it at once. -/
def memoryRequest (k : Nat) (q : MemReq) (d : Dev) : Dev :=
  let x := pc k d
  if pcBad x then answerBad k q d
  else if x.state ≠ 2 ∧ x.state ≠ 3 then d
  else if canTag x q.requester then updPc k (fun x => { x with queue := x.queue ++ [{ req := q }], taken := x.taken + 1 }) d
  else pcBump k mTAG_WAIT 1 (updPc k (fun x => { x with waiting := x.waiting ++ [q] }) d)

def execMemoryRequest (k : Nat) (q : MemReq) (s : State) : Out :=
  onDevIf (fun _ => decide (k < 64 ∧ q.requester < 66 ∧ q.word < pcBytes / 32)) (memoryRequest k q) s

/-- An enabled client stands behind a requester, so that its tolerance is its own and not 65,535 (R253). -/
def requesterActive (q : Nat) (d : Dev) : Bool :=
  if q < 16 then (rings d).any fun r => decide (r / 72 = q) && (stream r d).bound
  else if q < 32 then (rasters d).any fun e => decide (e / 72 = q - 16) && rasterReads e d
  else if q < 64 then (conversions d).any fun e => decide (e / 3 = q % 16)
  else false

/-- The words of HBM for which a raster's port has reads outstanding, of the frame that the raster shows (R342). -/
def awaitedWords (e : Nat) (d : Dev) : List Nat :=
  let parts := ((raster e d).shown.map (·.parts)).getD []
  d.memc.pcs.flatMap fun p =>
    (((p.2.queue ++ p.2.issued ++ p.2.returning).map (·.req)) ++ p.2.waiting).filterMap fun q =>
      if q.write = false ∧ q.requester = 16 + e / 72 ∧ ((ringOfWord q.word d).any fun r => parts.any fun t => decide (t.1 = r.1)) = true then
        some (wordKey p.1 q.word)
      else none

/-- The times at which a raster's consumer is due the samples of a word of its frame. -/
def dueTimes (e key : Nat) (d : Dev) : List Time :=
  let x := raster e d
  let g := timGroup x.tg d
  let t := tgTime g g.confK
  match x.shown with
  | none => []
  | some f => (groupMask f.parts key d).zipIdx.flatMap fun p =>
      let up := decide (p.2 = 1 ∧ (x.sampling = 6 ∨ x.sampling = 7))
      p.1.zipIdx.flatMap fun row => row.1.zipIdx.filterMap fun v =>
        if v.1 = 1 then some (t + sampleOffset g.format (if up then 2 * row.2 else row.2) v.2) else none

/-- The first active sample of the first line whose reads are not yet issued: a line's reads are issued from 2 line periods
before it (R342). -/
def nextFetch (g : TimGroup) (now : Time) : Time :=
  let after := now + 2 * linePeriod g.format
  let t := tgTime g (tgIndex g now)
  let starts := (List.range (activeLines g.format)).map fun y => t + sampleOffset g.format y 0
  ((starts.filter fun s => decide (after < s)).foldl min (t + framePeriod g.format + takeOffset g.format))

/-- A time in ns as a published tolerance. -/
def clampTol (t : Time) : Nat := (max 0 (min 65535 t.floor)).toNat

/-- A raster's tolerance (R342): until the first sample whose word has not arrived is due, less 64 ns; 65,535 where it does not
run. -/
def rasterTolerance (e : Nat) (d : Dev) : Nat :=
  if !rasterReads e d then 65535
  else
    let due := ((awaitedWords e d).flatMap fun w => dueTimes e w d).foldl min (nextFetch (timGroup (raster e d).tg d) d.house)
    clampTol (due - d.house - 64)

/-- A conversion's tolerance (R342): the time to the next write deadline of R315, one falling in every output line; the source
line that the line after it needs is wanted by then too (DESIGN CHOICE, log entry 235). -/
def engineTolerance (e : Nat) (d : Dev) : Nat :=
  let g := timGroup (cvTg (engine e d).conf) d
  let n := (d.house - tgPhase g) / linePeriod g.format
  clampTol ((((n.floor + 1 : Int) : Rat) - n) * linePeriod g.format)

/-- A requester's published tolerance in MEM cycles (R253, R342): 65,535 with no enabled client; an egress port's is the least of
its rasters', a converter port's the least of its engines'; how long an ingress port's buffers last the manual does not fix, a free
value. -/
def tolerance (q : Nat) (d : Dev) : Nat :=
  if !requesterActive q d then 65535
  else if q < 16 then freeNat d / 2 ^ q % 65536
  else if q < 32 then ((rasters d).filter fun e => decide (e / 72 = q - 16)).foldl (fun n e => min n (rasterTolerance e d)) 65535
  else ((conversions d).filter fun e => decide (e / 3 = q % 16)).foldl (fun n e => min n (engineTolerance e d)) 65535

/-- TOLMIN (R253). -/
def tolMin (d : Dev) : Nat := (List.range 64).foldl (fun m q => min m (tolerance q d)) 65535 - 8

/-- No older queued request is to the same word (R249). -/
def notOvertaking (x : Pc) (t : MemTask) : Bool :=
  match x.queue.find? fun u => decide (u.req.word = t.req.word) with
  | some u => decide (u = t)
  | none => true

/-- The request whose burst is issued (R248), and the direction after it: the oldest of a requester of tolerance below
1,000, else in the current direction the oldest to an open row, else the oldest. -/
def chooseBurst (x : Pc) (d : Dev) : Option (MemTask × Bool) :=
  let c := x.queue.filter (notOvertaking x)
  let writes := (x.queue.filter fun t => t.req.write).length
  let reads := x.queue.length - writes
  let urgent := c.find? fun t => decide (t.req.requester < 64) && decide (tolerance t.req.requester d < 1000)
  let writing := if x.writing then !(decide (writes ≤ 16) || (match urgent with
      | some t => !t.req.write
      | none => false)) || decide (reads = 0)
    else decide (64 ≤ writes ∨ reads = 0)
  match urgent with
  | some t => some (t, writing)
  | none =>
    let dir := c.filter fun t => decide (t.req.write = writing)
    let open_ := dir.find? fun t => decide (x.openRow = some t.req.row)
    (open_.or dir.head?).map fun t => (t, writing)

/-- BURST_ISSUE (R229, R248, R249): nothing is issued during a Holiday. -/
def burstIssue (k : Nat) (d : Dev) : Dev :=
  let x := pc k d
  match chooseBurst x d with
  | none => d
  | some (t, writing) =>
    useFree (pcBump k (if t.req.write then mWR else mRD) 1 (updPc k (fun x => { x with
      queue := x.queue.erase t, issued := x.issued ++ [{ t with issued := d.up }], writing := writing,
      openRow := some t.req.row }) d))

def execBurstIssue (k : Nat) (s : State) : Out :=
  onDevIf (fun d => let x := pc k d
      decide (k < 64 ∧ (x.state = 2 ∨ x.state = 3)) && x.holiday.isNone && (chooseBurst x d).isSome) (burstIssue k) s

/-- Waiting requests take the tags that have come free (R247). -/
def admitWaiting (k : Nat) (d : Dev) : Dev :=
  let x := pc k d
  (x.waiting).foldl (fun d q =>
    let x := pc k d
    if canTag x q.requester then
      updPc k (fun x => { x with waiting := x.waiting.erase q, queue := x.queue ++ [{ req := q }], taken := x.taken + 1 }) d
    else d) d

/-- Source number `i` of a pseudo-channel. -/
def pcSource (k i : Nat) : Nat := 0x280 + 4 * k + i

/-- The MEMC checker on a word that is read (R26, R233, R258, R259, R495): the errors with which it stands, with those that the
cells and the pins add to this read. -/
def checkRead (k w : Nat) (errs : SymErr) (scrub : Bool) (d : Dev) : Dev :=
  let e := wordErrs (wordKey k w) d ++ errs
  let inj := injSymbols (pcSource k 0) d
  let sig := readsSig e
  let own := wordOutcome e
  let out := if inj = [] then own else worse own (checkOutcome (e ++ inj))
  -- R259: a rewrite is dropped when a client write was queued after the scrubber's read.
  let later := (pc k d).queue.any fun t => t.req.write && decide (t.req.word = w)
  let target (d : Dev) : Dev :=
    updPc k (fun x => { x with targets := if x.targets.length < 16 then x.targets ++ [w] else x.targets }) d
  checkerReport (pcSource k 0) k own out (match out with
  | .clean => if sig then pcBump k mPOISON_RD 1 d else d
  | .corrected =>
    let d := pcBump k mCE 1 (updPc k (fun x => { x with lastSym := correctedSymbol (if own = .corrected then e else e ++ inj) }) d)
    if !scrub then target d
    else if later then d else pcBump k mSCRUB_FIX 1 (if own = .corrected then setErrs (wordKey k w) [] d else d)
  | .poisoned =>
    let d := pcBump k mUE 1 d
    if sig then d
    else if scrub then (if later then d else pcBump k mPOISON_WR 1 (setErrs (wordKey k w) poisonSig d))
    else target d)

/-- A read word is delivered poisoned: it bears the signature, or its check found it uncorrectable. -/
def readBad (k w : Nat) (errs : SymErr) (d : Dev) : Bool :=
  let e := wordErrs (wordKey k w) d ++ errs
  readsSig e || decide (injectedOutcome e (injSymbols (pcSource k 0) d) = .poisoned)

/-- A read word at the consumer's end of the fabric, which has carried its check bits unchanged (R25): the consumer's checker
(source 0x261) meets the errors of the way. Whether the word is then poisoned. -/
def consumerCheck (q : MemReq) (fabric : SymErr) (d : Dev) : Bool × Dev :=
  if 64 ≤ q.requester then (false, d)
  else
    let out := injectedOutcome fabric (injSymbols 0x261 d)
    (decide (out = .poisoned), checkerReport 0x261 q.requester (checkOutcome fabric) out d)

/-- BURST_COMPLETE (R247, R233, R26): the oldest issued burst completes: a write takes its place in HBM, poisoned or not,
and frees its tag; a read's data passes the checker into its requester's return FIFO. -/
def burstComplete (k : Nat) (errs fabric : SymErr) (d : Dev) : Dev :=
  match (pc k d).issued with
  | [] => d
  | t :: rest =>
    let d := if t.req.write then
        let d := updPc k (fun x => { x with issued := rest, taken := x.taken - 1 }) d
        let d := setErrs (wordKey k t.req.word) (if t.req.poisoned then poisonSig else fabric) d
        if t.req.poisoned then pcBump k mPOISON_WR 1 d else d
      else
        let poisoned := readBad k t.req.word errs d
        let d := updPc k (fun x => { x with issued := rest, returning := x.returning ++ [t] }) d
        let d := checkRead k t.req.word errs false d
        let c := if poisoned then (true, d) else consumerCheck t.req fabric d
        if c.1 then poisonedRead k t.req c.2 else c.2
    admitWaiting k d

/-- Read data in return FIFOs leaves for its requesters, and its tags come free (R247): by the next TIM cycle (DESIGN CHOICE,
log entry 233). -/
def drainReturns (d : Dev) : Dev :=
  (List.range 64).foldl (fun d k =>
    let n := (pc k d).returning.length
    if n = 0 then d
    else admitWaiting k (updPc k (fun x => { x with returning := [], taken := x.taken - n }) d)) d

/-- The temperature of a pseudo-channel's stack in units of 0.25 °C (R504). -/
def stackTemp (k : Nat) (d : Dev) : Int := (tget d.rst.mons (96 + k / 32)).value

/-- A retrain is due (R254): RETRAIN_MS after the last, or the stack's temperature has moved by TEMP_STEP since. -/
def retrainDue (k : Nat) (d : Dev) : Bool :=
  let x := pc k d
  decide (x.lastRetrain + (d.memc.retrainMs : Rat) * ms ≤ d.up)
    || decide ((4 * d.memc.tempStep : Nat) ≤ (stackTemp k d - x.tempAt).natAbs)

/-- HOLIDAY_DUE (R254). That six per-bank refreshes are postponed is what a refresh event brings. -/
def execHolidayDue (k : Nat) (retrain : Bool) (s : State) : Out :=
  onDevIf (fun d => let x := pc k d
      decide (k < 64 ∧ (x.state = 2 ∨ x.state = 3))
        && (if retrain then x.dueRetrain.isNone && retrainDue k d else x.due.isNone))
    (fun d => updPc k (fun x => if retrain then { x with dueRetrain := some d.up } else { x with due := some d.up }) d) s

/-- A Holiday's length in ns, one MEM cycle being 1 ns (R254). -/
def holidayLength (retrain : Bool) : Nat := if retrain then 2000 else 400

/-- Pseudo-channels in service or retiring with a Holiday due. -/
def holidaysDue (retrain : Bool) (d : Dev) : List Nat :=
  (List.range 64).filter fun k =>
    decide ((pc k d).state = 2 ∨ (pc k d).state = 3) && (if retrain then (pc k d).dueRetrain else (pc k d).due).isSome

/-- The Holiday that begins next (R255): refresh before retrain, the lowest pseudo-channel first. -/
def nextHoliday (d : Dev) : Option (Nat × Bool) :=
  match holidaysDue false d with
  | k :: _ => some (k, false)
  | [] => (holidaysDue true d).head?.map fun k => (k, true)

/-- No Holiday is in progress anywhere (R255). -/
def noHoliday (d : Dev) : Bool := d.memc.pcs.all fun e => e.2.holiday.isNone

/-- A Holiday begins. -/
def beginHoliday (k : Nat) (retrain : Bool) (d : Dev) : Dev :=
  pcBump k mHOLIDAY 1 (updPc k (fun x => { x with
    holiday := some (retrain, d.up + (holidayLength retrain : Rat)),
    due := if retrain then x.due else none, dueRetrain := if retrain then none else x.dueRetrain }) d)

/-- HOLIDAY_START (R255): TOLMIN covers the Holiday and 1,000 cycles, no other Holiday is in progress, and 10,000 cycles have
passed since the last ended. -/
def execHolidayStart (k : Nat) (s : State) : Out :=
  onDevIf (fun d =>
      (match nextHoliday d with
       | some (j, r) => decide (j = k) && decide (holidayLength r + 1000 ≤ tolMin d)
       | none => false)
      && noHoliday d && (match d.memc.lastHoliday with
        | some t => decide (t + 10000 ≤ d.up)
        | none => true))
    (fun d => match nextHoliday d with
      | some (_, r) => useFree (beginHoliday k r d)
      | none => d) s

/-- HOLIDAY_DEADLINE (R256): a retrain's deadline is 1 s after it is due; a refresh's is when an eighth would be
postponed, which the event brings. -/
def execHolidayDeadline (k : Nat) (s : State) : Out :=
  onDevIf (fun d => let x := pc k d
      decide (k < 64 ∧ (x.state = 2 ∨ x.state = 3)) && noHoliday d && (x.due.isSome || timerPast x.dueRetrain sec d.up))
    (fun d => major 0x381 k (pcBump k mHOLIDAY_FORCED 1 (beginHoliday k (pc k d).due.isNone d))) s

/-- HOLIDAY_END (R254). -/
def execHolidayEnd (k : Nat) (s : State) : Out :=
  onDevIf (fun d => match (pc k d).holiday with
      | some (_, t) => decide (t ≤ d.up)
      | none => false)
    (fun d => updPc k (fun x => { x with
      holiday := none, lastRetrain := if (x.holiday.map (·.1)) = some true then d.up else x.lastRetrain,
      tempAt := if (x.holiday.map (·.1)) = some true then stackTemp k d else x.tempAt })
      { d with
        memc.lastHoliday := some d.up,
        -- R528: new HBM microcode is taken at the next retrain Holiday.
        upd.hbmPart := if ((pc k d).holiday.map (·.1)) = some true then d.upd.hbmPart.filter (· ≠ k) else d.upd.hbmPart }) s

/-! ### Scrubbing, error windows, unanswered reads (R257 to R261) -/

/-- SCRUB_READ (R257 to R259): the targeted queue first, then the patrol in ascending order. -/
def scrubRead (k : Nat) (errs : SymErr) (d : Dev) : Dev :=
  let x := pc k d
  let w := x.targets.headD x.scrubNext
  let d := updPc k (fun x => match x.targets with
    | _ :: t => { x with targets := t }
    | [] => { x with
        scrubNext := (x.scrubNext + 1) % (pcBytes / 32), scrubAt := if x.scrubNext = 0 then some d.up else x.scrubAt }) d
  checkRead k w errs true (pcBump k mSCRUB_WORDS 1 d)

/-- The patrol may read its next word (R257): it reads every word once per PERIOD_H hours, so that a pass does not begin before
the period of the last is over. -/
def patrolDue (x : Pc) (d : Dev) : Bool :=
  d.memc.scrubEn && (decide (x.scrubNext ≠ 0) || match x.scrubAt with
    | some t => decide (t + (d.memc.periodH : Rat) * (3600 * sec) ≤ d.up)
    | none => true)

/-- The scrubber has left a retiring pseudo-channel only when it is RETIRED (R268 step 4). -/
def execScrubRead (k : Nat) (errs : SymErr) (s : State) : Out :=
  onDevIf (fun d => let x := pc k d
      decide (k < 64 ∧ (x.state = 2 ∨ x.state = 3)) && x.holiday.isNone && (decide (x.targets ≠ []) || patrolDue x d)
        && canTag x 65) (scrubRead k errs) s

/-- A retirement that starts by itself: refused with its source, or started (R260, R268). -/
def autoRetire (k : Nat) (d : Dev) : Dev :=
  if d.memc.retire.isSome ∨ (pc k d).state ≠ 2 then d
  else if retireOk k d then startRetire [k] false 0xFF 0 d
  else major 0x382 k d

/-- PC_ERROR_WINDOW (R260): at the end of a window of 1 s, the windows being consecutive. -/
def errorWindow (k : Nat) (d : Dev) : Dev :=
  let x := pc k d
  let ue := (tget x.ctrs mUE - x.ueAt).toNat
  let ce := (tget x.ctrs mCE - x.ceAt).toNat
  let bad := decide (d.memc.ueTh < ue ∨ 2 ^ d.memc.ceExp ≤ ce)
  let d := updPc k (fun x => { x with ueAt := tget x.ctrs mUE, ceAt := tget x.ctrs mCE, winAt := x.winAt + ((d.house - x.winAt) / sec).floor * sec }) d
  if bad then
    let d := major (pcSource k 1) k d
    if d.memc.autoRetire then autoRetire k d else d
  else d

def execPcErrorWindow (k : Nat) (s : State) : Out :=
  onDevIf (fun d => decide (k < 64 ∧ ((pc k d).state = 2 ∨ (pc k d).state = 3) ∧ (pc k d).winAt + sec ≤ d.house)) (errorWindow k) s

/-- READ_RESPONSE_TIMEOUT (R261): a read not answered within 10 us of issue, outside a Holiday. Its report's built-in
reaction is the reset, or the failure, of the pseudo-channel. -/
def execReadResponseTimeout (k : Nat) (s : State) : Out :=
  onDevIf (fun d => let x := pc k d
      decide (k < 64 ∧ (x.state = 2 ∨ x.state = 3)) && x.holiday.isNone
        && x.issued.any fun t => !t.req.write && decide (t.issued + 10 * us ≤ d.up))
    (major (pcSource k 2) k) s

/-! ### Migration and retirement (R246, R268) -/

/-- RING_MIGRATION_START (R246): the lowest-numbered waiting ring that can start does so. -/
def execRingMigrationStart (r : Nat) (s : State) : Out :=
  onDevIf (fun d => blocksRun d && decide ((migrating d).length < d.memc.migPar) && canMigrate r d
      && (rings d).all fun q => decide (r ≤ q) || !canMigrate q d) (migrate r) s

/-- RING_MIGRATION_END (R246): no slot holds a frame of the old layout. -/
def execRingMigrationEnd (r : Nat) (s : State) : Out :=
  onDevIf (fun d => let x := stream r d
      x.old.isSome && x.slots.all fun s => decide (s.state = 0) || !s.old)
    (fun d => updStream r (fun x => { x with old := none, slots := x.slots.map fun s => { s with old := false } }) d) s

/-! ### The system copy of a retirement (R268 step 2, R261) -/

/-- System granules of a pseudo-channel that the initial placement took: those s with s mod N its place (R234). -/
def sysBase (j : Nat) (d : Dev) : Nat :=
  let n := d.memc.sysSet.length
  match findIdx? (fun k => decide (k = j)) d.memc.sysSet with
  | some (i, _) => (131072 - i + n - 1) / n
  | none => 0

/-- The lowest free system granule of a pseudo-channel, granules being moved there in ascending order. -/
def sysNext (j : Nat) (moved : Tab (Option (Nat × Nat))) (d : Dev) : Nat :=
  sysBase j d + (moved.filter fun e => decide (e.2.map (·.1) = some j)).length

/-- Where each logical granule of the pseudo-channels that leave goes: round robin over the set in service, to the lowest
free system granules. -/
def sysMoves (pcs : List Nat) (d : Dev) : Tab (Option (Nat × Nat)) :=
  let n := d.memc.set.length
  let r := ((List.range 131072).filter fun s => pcs.contains (sysPlace s d).1).foldl (fun (acc : Tab (Option (Nat × Nat)) × Nat) s =>
    match (List.range n).find? fun i => decide (sysNext (d.memc.set.getD ((acc.2 + i) % n) 0) acc.1 d < 4096) with
    | some i =>
      let j := d.memc.set.getD ((acc.2 + i) % n) 0
      (tset acc.1 s (some (j, sysNext j acc.1 d)), acc.2 + i + 1)
    | none => acc) (d.memc.sysMoved, 0)
  r.1

/-- The first byte of a system granule in the device address space (R230). -/
def granuleKey (p : Nat × Nat) : Nat := p.1 * 2 ^ 30 + (dataGranules + p.2) * 2048

/-- The granules that move: the first byte before and after. -/
def sysCopies (pcs : List Nat) (d : Dev) : List (Nat × Nat) :=
  let moves := sysMoves pcs d
  ((List.range 131072).filter fun s => pcs.contains (sysPlace s d).1).filterMap fun s =>
    (tget moves s).map fun p => (granuleKey (sysPlace s d), granuleKey p)

/-- HBM after the copy: each destination granule holds what its source held. -/
def copyGranules (l : List (Nat × Nat)) (m : Mem) : Mem :=
  let within (x a : Nat) : Bool := decide (x ≤ a ∧ a < x + 2048)
  let cleared := (m.filter fun c => l.any fun x => within x.2 c.1).foldl (fun m c => Mem.write m c.1 0) m
  m.foldl (fun n c => match l.find? fun x => within x.1 c.1 with
    | some x => Mem.write n (x.2 + (c.1 - x.1)) c.2
    | none => n) cleared

/-- The words of a granule that read poisoned are written poisoned; every other is written as it reads, corrected. -/
def copyErrs (l : List (Nat × Nat)) (d : Dev) : Tab SymErr :=
  l.foldl (fun t x => (List.range 64).foldl (fun t i =>
    tset t (x.2 / 32 + i) (if standsBad (x.1 / 32 + i) d || pcBad (pc (x.1 / 2 ^ 30) d) then poisonSig else [])) t) d.memc.errs

/-- RETIREMENT_SYSTEM_COPY_DONE (R268 step 2). -/
def systemCopied (pcs : List Nat) (d : Dev) : Dev :=
  let l := sysCopies pcs d
  { d with
    memc.errs := copyErrs l d, memc.sysMoved := sysMoves pcs d,
    memc.retire := d.memc.retire.map fun r => { r with copied := true } }

/-- How long the copy of `n` granules takes at A_SYS, 0.25 GB/s (R268: 16.8 ms for 2,048 granules). -/
def copyTime (n : Nat) : Time := (n : Rat) * 8192

def execRetirementSystemCopyDone (s : State) : Out :=
  match s.dev.memc.retire with
  | some r =>
    if r.copied = false ∧ perbyServes s.dev = true ∧ r.since + copyTime (sysCopies r.pcs s.dev).length ≤ s.dev.up then
      .next { s with hbm := copyGranules (sysCopies r.pcs s.dev) s.hbm, dev := systemCopied r.pcs s.dev }
    else .next s
  | none => .next s

/-- The last old extents have been freed: no ring waits or migrates (R268 step 4). -/
def migrationsDone (d : Dev) : Bool := (rings d).all fun r => (stream r d).old.isNone && !needsMove r (stream r d) d

/-- RETIREMENT_COMPLETE (R268 step 4, R261, R269). -/
def retirementComplete (d : Dev) : Dev :=
  match d.memc.retire with
  | none => d
  | some r =>
    let d := r.pcs.foldl (fun d k => updPc k (fun x => { x with state := if x.state = 5 then 5 else 4 }) (pcFlush k d)) d
    let d := { d with memc.retire := none }
    let d := match d.memc.newKey with
      | some k => newPlaceEpoch { d with memc.key := k, memc.keyState := 2, memc.newKey := none }
      | none => d
    complete r.mbx r.tag 0x0604 0 0 d

def execRetirementComplete (s : State) : Out :=
  onDevIf (fun d => (match d.memc.retire with
    | some r => r.copied
    | none => false) && migrationsDone d) retirementComplete s

/-! ### Commands of family 0x06 (R273 to R275) -/

/-- The largest read delay of any reader of a ring in frames of its format (R242, R287, R318). -/
def largestDelay (r : Nat) (d : Dev) : Nat :=
  let v := (rasters d).foldl (fun m e =>
    let x := raster e d
    if readsRing x r d then (rasterRoutes x).foldl (fun m t => max m t.vdelay) m else m) 0
  (conversions d).foldl (fun m e =>
    let x := engine e d
    if (conversionRings x.conf d).contains r then
      max m ((x.tdelay : Rat) * us / framePeriod (stream r d).format).ceil.toNat
    else m) v

/-- The configuration of a ring's parameters. -/
def setRing (p : List Byte) (d : Dev) : Dev :=
  { d with
    memc.rings := tset d.memc.rings (u16 p 0) { depth := u8 p 2, key := bitOf (u8 p 3) 0, anc := u8 p 4 } }

/-- R265 after a change: every ring's extents held, with the new ones of the rings that must move. -/
def extentsFit (d : Dev) : Bool :=
  let n := (rings d).foldl (fun a r =>
    let x := stream r d
    let w := wantedLayout r x d
    a + (heldExtents x).length + (if needsMove r x d ∧ x.old.isNone then areaExtents w.depth w.g w.set.length else 0)) 0
  decide (n ≤ extentLimit)

def cmdMemcRingConfig : CmdSpec where
  opcode := 0x0601
  len := len 8
  fields _ := [res 5 3]
  stageable := true
  obj p := [u16 p 0]
  check a d :=
    let p := a.payload
    let r := u16 p 0
    let x := stream r d
    let d' := setRing p d
    firstOf [
      refuseIf (decide (1151 < r)) 0x0010,
      refuseIf ((rings d).any fun q => decide (q < r ∧ r < q + (stream q d).n)) 0x0010,
      refuseIf (decide (u8 p 2 < 4 ∨ 32 < u8 p 2 ∨ 64 < u8 p 4 ∨ 0 < u8 p 3)) 0x0011,
      refuseIf (decide (x.n ≠ 0 ∧ u8 p 2 < 4 + largestDelay r d)) 0x0011,
      refuseIf x.old.isSome 0x0002,
      refuseIf (decide (x.n ≠ 0) && (overAdmission d d' || (!extentsFit d' && extentsFit d))) 0x0005]
  apply a d := setRing a.payload d

def cmdMemcRingRead : CmdSpec where
  opcode := 0x0602
  len := len 4
  fields _ := [res 2 2]
  check a d := firstOf [refuseIf (decide (1151 < u16 a.payload 0)) 0x0010,
                        refuseIf (decide ((stream (u16 a.payload 0) d).n = 0)) 0x0010]
  reply a _ d :=
    let r := u16 a.payload 0
    let x := stream r d
    { payload := le 2 r ++ le 1 x.n ++ le 1 x.format ++ le 1 x.sampling ++ le 1 x.lay.depth
        ++ le 1 (2 * b2n (x.old.isSome || needsMove r x d) + 4 * b2n (isPart x)) ++ le 1 x.lay.anc ++ le 4 x.lay.g
        ++ le 2 (layoutQ x.lay) ++ le 2 (heldExtents x).length ++ le 4 x.lay.epoch ++ le 4 0 ++ le 8 x.overflow.toNat }

/-- The report of `MEMC_ADMIT_REPORT` on a configuration. -/
def admitReport (source : Nat) (d : Dev) : List Byte :=
  let ls := loadsOn d.memc.set d
  le 1 d.memc.set.length ++ le 1 source ++ le 2 0 ++ le 4 (extentLimit - extentsNeeded d)
    ++ le 4 (loadBound d / 1000000).ceil.toNat ++ le 4 0
    ++ (List.range 64).flatMap fun k => le 2 (match findIdx? (fun j => decide (j = k)) d.memc.set with
      | some (i, _) => loadMB (ls.getD i 0)
      | none => 0xFFFF)

def cmdMemcPcRetire : CmdSpec where
  opcode := 0x0604
  len := len 4
  fields _ := [res 1 3]
  unitLocal := true
  check a d :=
    let k := u8 a.payload 0
    firstOf [
      refuseIf (decide (63 < k)) 0x0011,
      refuseIf (decide ((pc k d).state ≠ 2) || d.memc.retire.isSome) 0x0013,
      refuseIf (!retireOk k d) 0x0012]
  apply a d := startRetire [u8 a.payload 0] false a.mbx a.tag d
  reply _ _ _ := { status := 1 }

/-- An error-handling, scrub or Holiday field out of range returns 0x0011 (R275). -/
def cmdMemcErrorConfig : CmdSpec where
  opcode := 0x0605
  len := len 4
  config := true
  unitLocal := true
  check a _ :=
    let p := a.payload
    refuseIf (decide (1 < u8 p 0 ∨ u8 p 1 < 1 ∨ u8 p 2 < 8 ∨ 24 < u8 p 2 ∨ u8 p 3 < 1 ∨ 127 < u8 p 3)) 0x0011
  apply a d :=
    let p := a.payload
    { d with
      memc.autoRetire := decide (u8 p 0 = 1), memc.ueTh := u8 p 1, memc.ceExp := u8 p 2, memc.migPar := u8 p 3 }

def cmdMemcScrubConfig : CmdSpec where
  opcode := 0x0606
  len := len 4
  fields _ := [res 2 2]
  config := true
  unitLocal := true
  check a _ := refuseIf (decide (1 < u8 a.payload 0 ∨ u8 a.payload 1 < 1 ∨ 168 < u8 a.payload 1)) 0x0011
  apply a d := { d with memc.scrubEn := decide (u8 a.payload 0 = 1), memc.periodH := u8 a.payload 1 }

def cmdMemcHolidayConfig : CmdSpec where
  opcode := 0x0607
  len := len 4
  fields _ := [res 3 1]
  config := true
  unitLocal := true
  check a _ :=
    let p := a.payload
    refuseIf (decide (u16 p 0 < 10 ∨ 1000 < u16 p 0 ∨ u8 p 2 < 1 ∨ 20 < u8 p 2)) 0x0011
  apply a d := { d with memc.retrainMs := u16 a.payload 0, memc.tempStep := u8 a.payload 2 }

def cmdMemcStatusRead : CmdSpec where
  opcode := 0x0608
  len := len 4
  fields _ := [res 1 3]
  check a _ := refuseIf (decide (63 < u8 a.payload 0)) 0x0011
  reply a _ d :=
    let k := u8 a.payload 0
    { payload := le 4 (memcStatusWord d) ++ le 4 (pcStatusWord k d) ++ le 4 (pcLoadWord k d) ++ le 4 0
        ++ ctrBytes (pc k d).ctrs 0x40 12 }

def cmdMemcWindow : CmdSpec where
  opcode := 0x0609
  len := len 4
  fields _ := [res 2 2]
  config := true
  unitLocal := true
  check a d := firstOf [
    refuseIf (decide (d.mode ≠ MAINTENANCE) || !d.host.debug) 0x0007,
    refuseIf (decide (1 < u8 a.payload 0 ∨ 63 < u8 a.payload 1)) 0x0011]
  apply a d := { d with memc.winEn := decide (u8 a.payload 0 = 1), memc.winPc := u8 a.payload 1 }

end Sys2Proof.Machine
end

