-- ==== Sys2Proof/Machine/Fab.lean ====
section
/-! DEFINITION. Chapter 8: routing and frame synchronisation; the commands of family 0x07 and the events of this chapter. -/

namespace Sys2Proof.Machine

/-! ### Registers (R307) -/

/-- FAB_IS_STATUS.RUNNING: a frame begun within 1.5 P̂. -/
def streamRunning (x : Stream) (now : Time) : Bool := decide (x.starts ≠ [] ∧ now ≤ x.begunAt + 3 / 2 * pHat x)

def slotCount (x : Stream) (st : Nat) : Nat := (x.slots.filter fun s => decide (s.state = st)).length

def isStatusWord (r : Nat) (d : Dev) : Nat :=
  let x := stream r d
  if x.n = 0 then 0
  else
    let st := if (drainOf (.ingress r) d).isSome then 2 else b2n x.bound
    fld st 30 2 + fld x.n 25 5 + fld x.format 17 8 + fld x.sampling 13 4 + fld (b2n (streamRunning x d.house)) 12 1
      + fld ((groupOfRing r d).getD 0x1FF) 3 9

def isProdWord (r : Nat) (d : Dev) : Nat := let x := stream r d; fld x.kind 29 3 + fld x.id 0 16

def isSlotsWord (r : Nat) (d : Dev) : Nat :=
  let x := stream r d
  fld (slotCount x 0) 26 6 + fld (slotCount x 1) 20 6 + fld (slotCount x 2) 14 6 + fld (slotCount x 3) 8 6

def isStart (r : Nat) (d : Dev) : Nat := ((stream r d).starts.head?.map ns48).getD 0

/-- FAB_ES_STATUS.MODE. -/
def esMode (x : Raster) : Nat := if x.route.locked then (if x.exited then 2 else 1) else 0

def esStatusWord (e : Nat) (d : Dev) : Nat :=
  let x := raster e d
  if x.n = 0 then 0
  else
    let st := if (drainOf (.raster e) d).isSome then 3 else if x.route.srcKind = 0 then 1 else 2
    let pend := x.takes.any fun t => decide (t.k ≤ (timGroup x.tg d).confK)
    fld st 30 2 + fld x.tg 24 6 + fld x.n 19 5 + fld (esMode x) 17 2 + fld x.kind 14 3 + fld x.route.vdelay 9 5
      + fld (twos 3 x.m) 6 3 + fld (b2n pend) 5 1

def esRouteWord (e : Nat) (d : Dev) : Nat := let x := (raster e d).route; fld x.srcKind 30 2 + fld x.src 0 16
def esAudioWord (e : Nat) (d : Dev) : Nat :=
  let x := raster e d
  if x.n = 0 then 0 else fld x.route.base 16 16 + fld x.route.count 8 8
def esDelayWord (e : Nat) (d : Dev) : Nat := twos 32 (raster e d).delay

def tgCfgWord (g : Nat) (d : Dev) : Nat := let x := timGroup g d; fld x.format 24 8 + fld x.hyst 18 6
def tgStatusWord (g : Nat) (d : Dev) : Nat :=
  fld ((rasters d).filter fun e => decide ((raster e d).tg = g)).length 21 11

def agStatusWord (a : Nat) (d : Dev) : Nat := let x := alignGroup a d; fld x.state 30 2 + fld x.members.length 26 4

/-! ### Producers (R281 to R283) -/

/-- A producer runs and its frames agree with the binding (R277, R310): an SDI receiver or framer in LOCKED on the bound
format, an enabled flow. Converter engines begin their frames at their own picture starts. -/
def producerRuns (r : Nat) (d : Dev) : Bool :=
  let x := stream r d
  x.bound && (match x.kind with
    | 3 => (rxFlow x.id d).en && (drainOf (.rxFlow x.id) d).isNone
    | 5 => false
    | _ => match receiverOf x.kind x.id d with
      | some n => let y := rx n d; y.en && decide (y.state = 3 ∧ y.format = x.format ∧ (y.sampling = x.sampling ∨ 192 ≤ n)) && !rxDrains n d
      | none => false)

/-- A producer has a frame with this START to begin (R281): a receiver's is the arrival of the frame it is receiving, a flow's
the media time of a frame, or first field, that it has begun. -/
def frameAtHand (r : Nat) (start : Time) (d : Dev) : Bool :=
  let x := stream r d
  !x.starts.contains start && (match x.kind with
    | 3 => (rxFlow x.id d).frames.any fun f => decide (f.start = start) && !(byField x.format && f.second)
    | _ => match receiverOf x.kind x.id d with
      | some n => (rx n d).began && decide ((rx n d).start = start)
      | none => false)

/-- PRODUCER_FRAME_START (R281, R282). A stream that is draining begins no further frame (R30). -/
def execProducerFrameStart (r : Nat) (start : Time) (s : State) : Out :=
  onDevIf (fun d => producerRuns r d && frameAtHand r start d && (drainOf (.ingress r) d).isNone)
    (fun d => sweep (beginWriting r start d)) s

/-- Counters of the explicit group of a ring whose reference frame has become READY (R292, R308). -/
def countGroup (r num : Nat) (d : Dev) : Dev :=
  match groupOfRing r d with
  | none => d
  | some a =>
    let bumpAg (k : Nat) (d : Dev) : Dev :=
      { d with fab.ags := tupd d.fab.ags a fun g => { g with ctrs := bump g.ctrs k } }
    match videoRings 2 a d with
    | [] => d
    | ref :: _ =>
      let x := stream ref d
      let f := if ref = r then some num
        else (startOf (stream r d) num).bind fun s => nearestFrame x s (pairTol 2 a x d)
      match f with
      | none => d
      | some f => match groupFrame 2 a f d with
        | some ps => if ps.contains (r, num) ∧ groupReady 2 a ps d then bumpAg 0x10 d else d
        | none => if ref = r then bumpAg 0x18 d else d

/-- Words of the frame being written that the fabric changed on their way, by their number in its slot, stand in HBM with those
errors, since MEMC keeps the check bits of the producer's encoder (R25). -/
def fabricWords (r : Nat) (fabric : List WordErr) (d : Dev) : Dev :=
  match (writingFrame r false d).bind (slotOf (stream r d)) with
  | none => d
  | some s =>
    let l := slotLayout (stream r d) s
    fabric.foldl (fun d w =>
      let key := slotAddr l (layoutPi r l) s.index w.1 / 32
      if w.1 < 64 * layoutQ l * l.set.length then setErrs key (wordErrs key d ++ w.2) d else d) d

/-- PRODUCER_FRAME_READY (R283): the oldest frame being written becomes READY. -/
def frameReady (r : Nat) (d : Dev) : Dev :=
  match writingFrame r false d with
  | none => d
  | some n =>
    let s := ((slotOf (stream r d) n).map (·.start)).getD 0
    let d := updSlot r n (fun s => { s with state := 2, ready := d.house }) (sBump r isREADY d)
    countGroup r n (engineFrameGone r n 0x48 (updStream r (fun x => { x with rs := ((d.house - s) :: x.rs).take 16 }) d))

/-- The oldest frame being written has its last write: an IP flow's frame has closed, both its fields where it comes field by
field (R206, R207); a receiver has passed the line-1 TRS that ends it. -/
def writeEnds (r : Nat) (d : Dev) : Bool :=
  let x := stream r d
  match (writingFrame r false d).bind (slotOf x) with
  | none => false
  | some s =>
    if x.kind = 3 then
      let y := rxFlow x.id d
      !(y.frames.any fun f => ofSlot x.format f s) && !(byField x.format && decide (y.lastTs = some s.ts))
    else if x.kind = 5 then
      (tfind d.cnv.engines fun y => y.frames.any fun f => decide (f.2 = (r, s.num))).all fun e =>
        let y := engine e d
        let last := if byField x.format then 1 else 0
        y.frames.all fun f => decide (f.2 ≠ (r, s.num)) || (match y.lastJ with
          | some j => decide (f.1 < j ∨ (f.1 = j ∧ last ≤ y.lastQ))
          | none => false)
    else match receiverOf x.kind x.id d with
      | some n => decide (s.start ≠ (rx n d).start)
      | none => true

/-- The picture of the frame that a stream's receiver has received: the active words of its lines (R128, R129). -/
def receivedPicture (x : Stream) (d : Dev) : Option Planes :=
  (receiverOf x.kind x.id d).map fun n => tget (rx n d).done (if x.kind = 1 then x.id / 256 else 0)

/-- A frame's words as its producer leaves them: a receiver's or a flow's picture and the ancillary
records (R237 to R241). An engine has written its own picture as it began it (R315). -/
def writeFrame (r : Nat) (d : Dev) (m : Mem) : Mem :=
  let x := stream r d
  match (writingFrame r false d).bind (slotOf x) with
  | none => m
  | some s => writeAnc r x s (if x.kind = 5 then m else writePicture r x s ((receivedPicture x d).getD (flowPicture x.id x.format s d)) m)

/-- The words of a received frame that its receiver's line buffers held uncorrectable go into HBM poisoned (R27, R233). -/
def poisonWords (r : Nat) (d : Dev) : Dev :=
  let x := stream r d
  match (writingFrame r false d).bind (slotOf x), receiverOf x.kind x.id d with
  | some s, some n =>
    let l := slotLayout x s
    let pi := layoutPi r l
    (tget (rx n d).doneBad (if x.kind = 1 then x.id / 256 else 0)).foldl (fun d w =>
      (slotPlanes x).zipIdx.foldl (fun d p =>
        let y := if p.1.2 < activeLines x.format then w.1 / 2 else w.1
        setErrs (slotAddr l pi s.index (planeWord x p.2 + storedRow x.format p.1.2 y * linePitch x.sampling p.1.1 + w.2) / 32) poisonSig d) d) d
  | _, _ => d

/-! ### Line-locked reading (R299, R300) -/

/-- The picture of a raster changes while it is sent, and the lines of its transmitters with it. -/
def changeSent (e : Nat) (pic : Planes) (toCome : Nat) (d : Dev) : Dev :=
  resend e pic (drawMarkers e pic d) (updRaster e (fun x => { x with toCome := toCome }) d)

/-- Picture row `y` of an essence has come when its line has, on each of the data streams that carry it (R128, R129). -/
def sdiRowCome (x : SdiRx) (essence y : Nat) : Bool :=
  let inter := decide (x.mapping = 5 ∨ x.mapping = 6 ∨ x.mapping = 9)
  let streams := if x.mapping = 4 then [essence] else List.range (dataStreams x.mapping)
  streams.all fun s => x.rows.any fun p =>
    decide (p.1 / 4096 = s ∧ rowOfLine (streamFormat x.format) (p.1 % 4096) = some (if inter then y / 2 else y))

/-- A row segment of a packet brings a part of picture row `y`. -/
def segmentRow (f s : Nat) (g : RowSeg) (y : Nat) : Bool :=
  (List.range (pixelGroup s).2.2).any fun dy => decide (groupLine f s 0 g.row dy g.second = y)

/-- What has come of a frame that a ring's producer is writing: its picture and which rows of it. -/
def arriving (r num : Nat) (d : Dev) : Option (Planes × (Nat → Bool)) :=
  let x := stream r d
  match slotOf x num with
  | some s =>
    if s.state ≠ 1 then none
    else if x.kind = 3 then
      let y := rxFlow x.id d
      let segs := ((y.frames ++ y.closed).filter fun f => ofSlot x.format f s).flatMap (·.segs)
      some (segs.foldl (drawSeg x.format x.sampling) (plainPicture x.format x.sampling 0),
        fun row => segs.any fun g => segmentRow x.format x.sampling g row)
    else (receiverOf x.kind x.id d).map fun n =>
      let y := rx n d
      let e := if x.kind = 1 then x.id / 256 else 0
      if y.start = s.start then (pictureOf y.mapping y.format y.sampling e y.rows, sdiRowCome y e)
      else (tget y.done e, fun _ => true)
  | none => none

/-- The rows that have come over those of the frame shown before. -/
def overlayRows (pic : Planes) (come : Nat → Bool) (under : Planes) (sampling : Nat) : Planes :=
  pic.zipIdx.map fun p => p.1.zipIdx.map fun row =>
    if come (if p.2 = 1 ∧ (sampling = 6 ∨ sampling = 7) then 2 * row.2 else row.2) then row.1
    else (under.getD p.2 []).getD row.2 row.1

/-- A line-locked raster reads the lines that its frame's producer has written since (R299): they are those of the frame shown
before until they come, and stay so when the frame is abandoned (R300). -/
def fillLocked (e : Nat) (d : Dev) : Dev :=
  let x := raster e d
  if readsUnready x d ∧ !x.keyout then
    match (x.shown.bind fun f => f.parts.head?).bind fun p => arriving p.1 p.2 d with
    | some a =>
      let h := activeLines (timGroup x.tg d).format
      changeSent e (overlayRows a.1 a.2 x.pic x.sampling) ((List.range h).filter fun y => !a.2 y).length d
    | none => d
  else d

def fillRasters (d : Dev) : Dev := ((rasters d).filter fun e => (raster e d).route.locked).foldl (fun d e => fillLocked e d) d

/-- Rasters that show a frame before it is READY, line-locked (R299), have all of it when it is. -/
def resendLocked (r num : Nat) (m : Mem) (d : Dev) : Dev :=
  (rasters d).foldl (fun d e =>
    if (match (raster e d).shown with
        | some f => f.parts.contains (r, num)
        | none => false) then changeSent e (fetchedPicture e d m) 0 d else d) d

/-! ### Planning (R289, R299, R300) -/

/-- C_k (R289). -/
def confTime (g : TimGroup) (k : Nat) : Time := tgTime g k - linePeriod g.format

/-- The plan to show group frame `pos` of a source, VDELAY frames back (R287, R289). -/
def planFor (t : Route) (k pos : Nat) (take repeats : Bool) (d : Dev) : Plan :=
  let parts := match videoRings t.srcKind t.src d with
    | r :: _ => ((framesBefore (stream r d) pos t.vdelay).bind fun f => groupFrame t.srcKind t.src f d).getD []
    | [] => []
  ⟨k, take, repeats, pos, parts⟩

/-- The frame that a line-locked route reads (R299): its START lies 3 lines to 3 lines + LL_WIN before T_k. -/
def lockedFrame (t : Route) (g : TimGroup) (k : Nat) (d : Dev) : Option Nat :=
  match videoRings t.srcKind t.src d with
  | [] => none
  | r :: _ =>
    let x := stream r d
    let line := linePeriod g.format
    (knownFrames x (tgTime g k)).find? fun f => match startOf x f with
      | some s => decide (3 * line ≤ tgTime g k - s) && decide (tgTime g k - s ≤ (3 + (t.llWin : Rat)) * line)
      | none => false

/-- The take that is tried at frame `k`: the last of those that apply to it or to an earlier frame (R302, R303). -/
def activeTake (x : Raster) (k : Nat) : Option Take := (x.takes.filter fun t => decide (t.k ≤ k)).getLast?

/-- The next group frame after `cur`: a reference frame whose partner is neither there nor to come is passed over, like an
abandoned one (R284, R292). -/
def nextGroup (t : Route) (x : Stream) (cur : Nat) (d : Dev) : Nat :=
  let l := (((x.slots.filter fun s => decide ((s.state = 1 ∨ s.state = 2) ∧ cur < s.num)).map (·.num)).mergeSort fun a b => decide (a ≤ b))
    ++ [max x.next (cur + 1)]
  (l.find? fun f => (groupFrame t.srcKind t.src f d).isSome).getD (nextAfter x cur)

/-- The plan of a route that has no take pending (R289): repeat, next, or the newest after a drop. -/
def planRoute (x : Raster) (g : TimGroup) (k : Nat) (d : Dev) : Option Plan :=
  let t := x.route
  match x.pos, videoRings t.srcKind t.src d with
  | some cur, r :: _ =>
    let nxt := nextGroup t (stream r d) cur d
    let ready := match (groupFrame t.srcKind t.src nxt d).bind fun ps => groupRhat ps d with
      | some h => decide (h ≤ confTime g k)
      | none => false
    if !ready then some (planFor t k cur false true d)
    else
      let f := newestReady t.srcKind t.src (nxt + 1) (confTime g k - (g.hyst : Rat) * linePeriod g.format) d
      some (planFor t k (f.getD nxt) false false d)
  | some cur, [] => some ⟨k, false, true, cur, []⟩
  | none, _ => none

/-- The line-locked part of a plan point (R299, R300): the frame in the window; without one the raster repeats, and after
two such frames in a row from a running producer the route is frame-synchronised from the next plan point. -/
def planLocked (e k : Nat) (x : Raster) (g : TimGroup) (d : Dev) : Dev :=
  match lockedFrame x.route g k d with
  | some f => updRaster e (fun y => { y with plan := some (planFor x.route k f false false d), misses := 0 }) d
  | none =>
    let running := match videoRings x.route.srcKind x.route.src d with
      | r :: _ => streamRunning (stream r d) d.house
      | [] => false
    let rep : Plan := ⟨k, false, true, x.pos.getD 0, []⟩
    if running = true ∧ 1 ≤ x.misses then
      postEvent 0x0102 e [] (rBump e esLL_EXIT 1 (updRaster e (fun y => { y with
        exited := true, misses := 0, plan := some rep }) d))
    else updRaster e (fun y => { y with plan := some rep, misses := if running = true then y.misses + 1 else y.misses }) d

/-- One raster's plan point for output frame `k` (R289). -/
def planRaster (k e : Nat) (d : Dev) : Dev :=
  let x := raster e d
  let g := timGroup x.tg d
  if x.halted ∨ tgTime g k < x.startAt then d
  else match activeTake x k with
  | some t =>
    -- The take branch; a take of the background needs no frame of a source.
    let d := updRaster e (fun y => { y with takes := t :: y.takes.filter fun u => decide (k < u.k) }) d
    let f := if t.route.srcKind = 0 then none
      else if t.route.locked then lockedFrame t.route g k d
      else newestReady t.route.srcKind t.route.src 0 (confTime g k) d
    updRaster e (fun y => { y with
      plan := if t.route.srcKind = 0 then some ⟨k, true, false, 0, []⟩
        else match f with
        | some f => some (planFor t.route k f true false d)
        | none => x.pos.map fun p => (⟨k, false, true, p, []⟩ : Plan) }) d
  | none =>
    if x.route.srcKind = 0 then updRaster e (fun y => { y with plan := none }) d
    else if x.route.locked ∧ !x.exited then planLocked e k x g d
    else updRaster e (fun y => { y with plan := planRoute y g k d }) d

/-- The takes that a commit has handed over and whose first frame is `k` (R301, R438): the first boundary at or after the
commit instant. -/
def routeOf (p : List Byte) : Route :=
  if u8 p 2 = 0 then {} else
  { srcKind := u8 p 2, locked := decide (u8 p 3 = 1), src := u16 p 4, vdelay := u8 p 6,
    llWin := if u8 p 7 = 0 then 8 else u8 p 7, base := u16 p 8, count := if u16 p 8 = 0xFFFF then 0 else u8 p 10,
    av := i32 p 12 }

/-- A take enters a raster's list at its frame, replacing one that applies to the same frame (R303). -/
def addTake (e : Nat) (t : Take) (d : Dev) : Dev :=
  updRaster e (fun x => { x with
    takes := (x.takes.filter fun u => decide (u.k < t.k)) ++ [t] ++ x.takes.filter fun u => decide (t.k < u.k) }) d

def armedTakes (tg k : Nat) (d : Dev) : Dev :=
  d.cfg.waiting.foldl (fun d w =>
    match w.point with
    | .frame g t =>
      let e := u16 w.change.payload 0
      if w.change.opcode = 0x0707 ∧ g = tg ∧ w.armed.isSome ∧ t ≤ tgTime (timGroup tg d) k
          ∧ !((raster e d).takes.any fun u => u.armed && decide (u.route = routeOf w.change.payload)) then
        addTake e ⟨routeOf w.change.payload, k, true⟩ d
      else d
    | _ => d) d

/-- The route entry of a raster's plan for output frame `k` (R467): the START of pos(k), whether it repeats pos(k-1), and in a take frame the
follow delay that R296 gives. -/
def routeEntry (e k : Nat) (d : Dev) : Option LedgerEntry :=
  let x := raster e d
  x.plan.map fun p =>
    let t := if p.take then ((activeTake x k).map (·.route)).getD x.route else x.route
    let at_ := (videoRings t.srcKind t.src d).head?.bind fun r => startOf (stream r d) p.pos
    let shown := p.parts.head?.bind fun s => startOf (stream s.1 d) s.2
    .route e (k % 2 ^ 48) ((at_.map ns48).getD 0) p.take (!p.take && decide (x.pos = some p.pos))
      (match p.take, shown with
        | true, some s => roundAway ((tgTime (timGroup x.tg d) k - s) * (fsHz d : Rat) / 1000000000) + t.av
        | _, _ => 0)

/-- PLAN_POINT (R289): at T_(k-1) every raster of the group is planned for output frame `k`; a lead sends a route entry for
each routed raster (R467). -/
def planPoint (tg k : Nat) (d : Dev) : Dev :=
  let es := (rasters d).filter fun e => decide ((raster e d).tg = tg)
  let d := armedTakes tg k d
  let d := es.foldl (fun d e => planRaster k e d) d
  let d := { d with fab.tgs := tupd d.fab.tgs tg fun g => { g with plannedK := k } }
  let d := if ledgerLead d then
      sendLedger (es.filterMap fun e => routeEntry e k d) d
    else d
  sweep d

/-- The engine plans in every in-service mode (R304), at the plan point of the frame at hand. -/
def execPlanPoint (tg k : Nat) (s : State) : Out :=
  onDevIf (fun d => let g := timGroup tg d
      blocksRun d && decide (tg < 64 ∧ definedFormat g.format ∧ 1 ≤ k ∧ g.plannedK < k)
        && decide (tgTime g (k - 1) ≤ d.house ∧ d.house < confTime g k))
    (planPoint tg k) s

/-! ### Confirmation (R289, R296, R302, R304) -/

/-- In SHADOW the lead's plan for the frame replaces the engine's own, where the engine holds the frame it names (R304). -/
def ledgerPlan (e k : Nat) (d : Dev) : Dev :=
  let x := raster e d
  if roleMode d ≠ SHADOW ∨ x.plan.isNone then d
  else match x.ledger.find? fun l => decide (l.k = k % 2 ^ 48) with
  | none => ledgerMiss e (rBump e esLEDGER_MISS 1 d)
  | some l =>
    let t := if l.take then (match activeTake x k with
      | some t => t.route
      | none => x.route) else x.route
    let found := match videoRings t.srcKind t.src d with
      | r :: _ =>
        let y := stream r d
        (knownFrames y d.house).find? fun f => match startOf y f with
          | some s => decide (absQ (wrapHalf ((ns48 s : Rat) - (l.start : Rat)) ((2 ^ 48 : Nat) : Rat)) ≤ pHat y / 4)
          | none => false
      | [] => none
    match found with
    | some f =>
      updRaster e (fun x => { x with plan := some { planFor t k f l.take (l.hold && !l.take) d with k := k } }) (ledgerHit e d)
    | none => if t.srcKind = 0 then d else ledgerMiss e (rBump e esLEDGER_MISS 1 d)

/-- The follow delay d of R296. -/
def followDelay (x : Raster) (m : Int) (period : Time) (d : Dev) : Int :=
  let v := x.lam + x.route.av + roundAway ((m : Rat) * (fsHz d : Rat) * period / 1000000000)
  if v < 0 then 0 else v

/-- The slip count at a frame (R296): e frames of the reference cadence begin in (T_(k-1), T_k], and a reference frames lie
from the frame shown before to the one shown. -/
def slipCount (e k : Nat) (a : Nat) (d : Dev) : Dev :=
  let x := raster e d
  let g := timGroup x.tg d
  match videoRings x.route.srcKind x.route.src d with
  | [] => d
  | r :: _ =>
    let y := stream r d
    let p := pHat y
    let n : Int := match y.starts.head? with
      | some s => if p ≤ 0 then 0 else ((tgTime g k - s) / p).floor - ((tgTime g (k - 1) - s) / p).floor
      | none => 0
    let m := x.m + n - a
    let out := decide (m < -3 ∨ 3 < m)
    let m := if out then 0 else m
    let d := if out then rBump e esAUD_RESET 1 d else d
    let v := followDelay x m p d
    let d := updRaster e (fun x => { x with m := m, delay := v }) d
    if v ≠ x.delay then
      changeDelay x.route v (tgTime g k) (if m ≠ x.m then rBump e esAUD_SLIP 1 d else d)
    else d

/-- A take is done (R302): the route changes, m and the follow set with it, the take record is written and event 0x0101
posted. `start` is the START of the frame shown. -/
def takeDone (e k : Nat) (t : Take) (start : Option Time) (d : Dev) : Dev :=
  let x := raster e d
  let g := timGroup x.tg d
  let tk := tgTime g k
  let own := match start with
    | some s => roundAway ((tk - s) * (fsHz d : Rat) / 1000000000)
    | none => 0
  let lam := match x.ledger.find? fun l => decide (l.k = k % 2 ^ 48) && l.take with
    | some l => if roleMode d = SHADOW then l.d - t.route.av else own
    | none => own
  let old := if x.route.srcKind = 0 then 0xFFFF else x.route.src
  let new := if t.route.srcKind = 0 then 0xFFFF else t.route.src
  let st := (start.map ns48).getD 0
  let y := { x with route := t.route, lam := lam }
  let v := if t.route.srcKind = 0 then 0 else followDelay y 0 0 d
  let d := updRaster e (fun x => { x with
    route := t.route, exited := false, misses := 0, m := 0, lam := lam, delay := v,
    takes := x.takes.filter fun u => decide (k < u.k), takeFb := tk, takeAt := tk + takeOffset g.format, takeStart := st, oldSrc := old, newSrc := new }) d
  let d := changeFollow e x.route (if t.route.srcKind = 0 then { t.route with base := 0xFFFF, count := 0 } else t.route) v tk d
  postEntry { code := 0x0101, object := e, time := ns48 tk, data := le 6 st ++ le 2 new ++ le 2 old }
    (rBump e esTAKES 1 { d with twn.judgeFrom := tset d.twn.judgeFrom e (k + 4) })

/-- READY frames of the reference that a drop passes over (R289). -/
def droppedFrames (x : Raster) (p : Plan) (d : Dev) : Nat :=
  match x.pos, videoRings x.route.srcKind x.route.src d with
  | some cur, r :: _ => ((stream r d).slots.filter fun s => decide (s.state = 2 ∧ cur < s.num ∧ s.num < p.pos)).length
  | _, _ => 0

/-- One raster's confirmation point for output frame `k` (R289, R302). -/
def confirmRaster (k e : Nat) (d : Dev) : Dev :=
  let d := ledgerPlan e k d
  let x := raster e d
  match x.plan with
  | none => d
  | some p =>
    if p.k ≠ k then d
    else
      let t := if p.take then (activeTake x k).getD ⟨x.route, k, false⟩ else ⟨x.route, k, false⟩
      let r := t.route
      -- The frame VDELAY frames before pos(k) as it stands now.
      let p := if p.repeats then p else { p with parts := (planFor r k p.pos p.take false d).parts }
      let count (c : Nat) (d : Dev) : Dev := rBump e c 1 (rBump e esOUT 1 d)
      let clear (d : Dev) : Dev := updRaster e (fun x => { x with plan := none }) d
      if p.take ∧ r.srcKind = 0 then
        takeDone e k t none (count esNEW (updRaster e (fun x => { x with plan := none, shown := none, pos := none }) d))
      else
        let begun := match p.parts with
          | (ring, n) :: _ => (slotOf (stream ring d) n).isSome
          | [] => false
        let ok := !p.repeats && (if r.locked ∧ (p.take ∨ !x.exited) then begun else groupReady r.srcKind r.src p.parts d)
        if ok then
          let start := match p.parts with
            | (ring, n) :: _ => (startOf (stream ring d) n).getD 0
            | [] => 0
          let num := match p.parts with
            | (_, n) :: _ => n
            | [] => 0
          let same := !p.take && (x.shown.map (·.num)) = some num
          let a := match x.shown with
            | some s => num - s.num
            | none => 0
          let drops := if p.take then 0 else droppedFrames x p d
          let d := updRaster e (fun x => { x with
            plan := none, pos := some p.pos, shown := some ⟨num, p.parts, start⟩,
            toCome := if groupReady r.srcKind r.src p.parts d then 0 else activeLines (timGroup x.tg d).format }) d
          let d := rBump e esDROP drops (count (if same then esREPEAT else esNEW) d)
          if p.take then takeDone e k t (some start) d else slipCount e k a d
        else
          let d := clear d
          if x.route.srcKind = 0 then d
          else
            let d := count esREPEAT d
            let d := if p.repeats then d else rBump e esLATE 1 d
            slipCount e k 0 d

/-- CONFIRMATION_POINT (R289): at C_k. -/
def confirmationPoint (tg k : Nat) (d : Dev) : Dev :=
  let es := (rasters d).filter fun e => decide ((raster e d).tg = tg)
  let d := es.foldl (fun d e => confirmRaster k e d) d
  sweep { d with
    fab.tgs := tupd d.fab.tgs tg fun g => { g with confK := k },
    fab.rasters := tmap d.fab.rasters fun _ x =>
      if x.tg = tg then { x with ledger := x.ledger.filter fun l => decide (k % 2 ^ 48 < l.k) } else x }

def execConfirmationPoint (tg k : Nat) (s : State) : Out :=
  onDevIf (fun d => let g := timGroup tg d
      blocksRun d && decide (tg < 64 ∧ definedFormat g.format ∧ g.plannedK = k ∧ g.confK < k) && decide (confTime g k ≤ d.house))
    (confirmationPoint tg k) s

/-! ### Frame boundaries and splices (R279, R297, R345, R347) -/

/-- What a frame boundary of a group does to its rasters: the output frame counter (R345), the hidden copy of a glyph
(R347), and the underrun report of the frame that ends (R343). -/
def boundaryRaster (k e : Nat) (d : Dev) : Dev :=
  let under := (raster e d).under
  let d := updRaster e (fun x => { x with frame := k % 2 ^ 48, under := false }) d
  let d := glyphPassed e d
  if under then major 0x3C9 e d else d

def frameBoundaryCore (tg k : Nat) (d : Dev) : Dev :=
  let es := (rasters d).filter fun e => decide ((raster e d).tg = tg)
  es.foldl (fun d e => boundaryRaster k e d) { d with fab.tgs := tupd d.fab.tgs tg fun g => { g with bK := k } }

/-- The boundary at hand: the last one at or before now, not yet passed. -/
def boundaryDue (tg k : Nat) (d : Dev) : Bool :=
  let g := timGroup tg d
  decide (tg < 64 ∧ definedFormat g.format ∧ g.bK < k) && decide (tgTime g k ≤ d.house ∧ d.house < tgTime g (k + 1))

/-- SPLICE_START (R297): at the first block boundary at or after the causing frame boundary. -/
def execSpliceStart (dst : Nat) (s : State) : Out :=
  onDevIf (fun d => match (audDst dst d).splice with
      | some sp => !sp.begun && decide (sp.n ≤ d.aud.block)
      | none => false)
    (updDst dst fun x => { x with splice := x.splice.map fun sp => { sp with begun := true } }) s

/-- SPLICE_END (R297): 16 blocks later cell 0 takes its new read, or returns to host control. -/
def execSpliceEnd (dst : Nat) (s : State) : Out :=
  onDevIf (fun d => match (audDst dst d).splice with
      | some sp => sp.begun && decide (sp.n + 16 ≤ d.aud.block)
      | none => false)
    (endSplice dst) s

/-- RASTER_UNDERRUN (R343): a word did not arrive when due; what arrives later for that line is discarded. -/
def execRasterUnderrun (e line sample lateWords : Nat) (s : State) : Out :=
  onDevIf (fun d => rasterReads e d && (raster e d).shown.isSome && outputsRun d
      && decide (line < activeLines (timGroup (raster e d).tg d).format ∧ sample < activeWidth (timGroup (raster e d).tg d).format))
    (fun d => underrunLine e line sample
      (updRaster e (fun x => { x with under := true }) (oBump e outLATE lateWords (oBump e outUNDERRUN 1 d)))) s

/-! ### Commands of family 0x07 (R309 to R311) -/

/-- Base stream units (R186). -/
def baseUnits (f : Nat) : Nat :=
  let r := rateCode f
  match rasterCode f with
  | 6 => if r ≤ 4 then 2 else if r ≤ 7 then 4 else 8
  | 7 => if r ≤ 4 then 8 else 16
  | _ => 1

/-- Stream units of an IP or converted stream (R186). -/
def streamUnits (f sampling : Nat) : Nat :=
  let e := (activeWidth f * activeLines f * bitsPerPixel sampling : Nat)
  max (baseUnits f) ((e : Rat) * framesPerSecond f / 2780000000).ceil.toNat

/-- A producer as configured: none where it is absent, automatic, or differs from the binding (R276, R277); otherwise its
stream units. -/
def producerUnits (kind id format sampling : Nat) (d : Dev) : Option Nat :=
  let sdi (n : Nat) : Option Nat :=
    let r := rx n d
    if r.en ∧ r.cfgFormat = format ∧ r.cfgMapping ≠ 0xFF ∧ (r.cfgSampling = sampling ∨ 192 ≤ n ∧ sampling = 0) then
      some (sdiSu r.cfgMapping) else none
  match kind with
  | 1 => if id % 256 < 192 ∧ (id < 192 ∨ (256 ≤ id ∧ id < 448 ∧ (rx (id % 256) d).cfgMapping = 4)) then sdi (id % 256) else none
  | 2 =>
    let m := mlink (id / 4) d
    if id < 192 ∧ m.used ∧ sampling = 0 ∧ sdiCarries m.mapping format 0 then some (sdiSu m.mapping / 4) else none
  | 3 =>
    let x := rxFlow id d
    if id < 8192 ∧ x.type = 1 ∧ x.format = format ∧ x.sampling = sampling then some (streamUnits format sampling) else none
  | 4 => if id < 64 then sdi (192 + id) else none
  | 5 =>
    let x := engine id d
    if id < 48 ∧ x.conf ≠ [] ∧ tgFormat (cvTg x.conf) d = format ∧ cvSampling x.conf = sampling then
      some (streamUnits format sampling) else none
  | _ => none

/-- The slots of a span are free and lie on one client port (R14, R276, R278). -/
def ingressFree (slot n : Nat) (d : Dev) : Bool :=
  decide (slot + n ≤ 1152 ∧ slot / 72 = (slot + n - 1) / 72)
    && (rings d).all fun r => decide (r + (stream r d).n ≤ slot ∨ slot + n ≤ r)

def egressFree (slot n : Nat) (d : Dev) : Bool :=
  decide (slot + n ≤ 1152 ∧ slot / 72 = (slot + n - 1) / 72)
    && (rasters d).all fun r => decide (r + (raster r d).n ≤ slot ∨ slot + n ≤ r)

/-- A binding that stands again on the ring that its readers have kept (R286). -/
def rebinds (p : List Byte) (d : Dev) : Bool :=
  let x := stream (u16 p 0) d
  decide (x.n ≠ 0 ∧ x.kind = u8 p 2 ∧ x.id = u16 p 4 ∧ x.format = u8 p 3 ∧ x.sampling = u8 p 6)

/-- A new ring (R236, R237, R245). -/
def makeRing (slot kind id format sampling n : Nat) (d : Dev) : Dev :=
  let x : Stream := { bound := true, n := n, kind := kind, id := id, format := format, sampling := sampling }
  let l := allocLayout slot x d
  updStream slot (fun o => { x with ctrs := o.ctrs, overflow := o.overflow, lay := l, slots := freeSlots l.depth }) d

/-- An ingress binding (R276, R310). -/
def bindIngress (p : List Byte) (d : Dev) : Dev :=
  if rebinds p d then updStream (u16 p 0) (fun x => { x with bound := true }) d
  else match producerUnits (u8 p 2) (u16 p 4) (u8 p 3) (u8 p 6) d with
  | some n => makeRing (u16 p 0) (u8 p 2) (u16 p 4) (u8 p 3) (u8 p 6) n d
  | none => d

def cmdRouteIngressBind : CmdSpec where
  opcode := 0x0701
  len := len 8
  fields _ := [rng 2 1 1 5, fok 3 1 definedFormat, rng 6 1 0 8, res 7 1]
  stageable := true
  obj p := [u16 p 0]
  removal p := some ⟨0x0702, le 4 0 ++ le 2 (u16 p 0) ++ le 2 0⟩
  check a d :=
    let p := a.payload
    let slot := u16 p 0
    let units := producerUnits (u8 p 2) (u16 p 4) (u8 p 3) (u8 p 6) d
    let n := units.getD 1
    let d' := bindIngress p d
    firstOf [
      refuseIf (decide (1151 < slot)) 0x0010,
      refuseIf ((rings d).any fun r => decide (r ≠ slot) && (stream r d).bound && decide ((stream r d).kind = u8 p 2 ∧ (stream r d).id = u16 p 4)) 0x0006,
      refuseIf units.isNone 0x0011,
      refuseIf ((stream slot d).bound || (!rebinds p d && !ingressFree slot n d)) 0x0010,
      refuseIf (decide (d.memc.keyState = 0 ∨ d.memc.set = [])) 0x0015,
      refuseIf (decide ((stream slot d').lay.extents.length < areaExtents (stream slot d').lay.depth (stream slot d').lay.g d.memc.set.length)
        || overAdmission d d') 0x0005]
  apply a d := bindIngress a.payload d

/-- An ingress slot that names the first slot of a bound stream, for a disable (R305). -/
def cmdRouteIngressUnbind : CmdSpec where
  opcode := 0x0702
  len := len 8
  fields _ := [disableWord, res 6 2]
  stageable := true
  obj p := [u16 p 4]
  sheds _ := true
  check a d :=
    let slot := u16 a.payload 4
    refuseIf (decide (1151 < slot) || ((rings d).any fun r => decide (r < slot ∧ slot < r + (stream r d).n))) 0x0010
  disables := some fun p _ => [.ingress (u16 p 4)]

/-- Timing-group configuration from a payload. -/
def tgFromPayload (p : List Byte) (g : TimGroup) : TimGroup :=
  if u8 p 1 = 0xFF then {} else { g with format := u8 p 1, hyst := u8 p 2, phase := u32 p 4, frac := u16 p 8 }

/-- The group's format or phase would change (R280). -/
def tgChanges (p : List Byte) (d : Dev) : Bool :=
  let g := timGroup (u8 p 0) d
  decide (g.format ≠ u8 p 1 ∨ g.phase ≠ u32 p 4 ∨ g.frac ≠ u16 p 8)

/-- Rasters and enabled conversions hold a timing group (R280, R352). -/
def tgHeld (g : Nat) (d : Dev) : Bool :=
  ((rasters d).any fun e => decide ((raster e d).tg = g)) || (conversions d).any fun e => decide (cvTg (engine e d).conf = g)

def cmdRouteTgConfig : CmdSpec where
  opcode := 0x0703
  len := len 12
  fields p := [rng 0 1 0 63, fok 1 1 (fun v => decide (v = 0xFF) || definedFormat v), rng 2 1 0 63, res 3 1,
    fok 4 4 (fun v => decide (u8 p 1 = 0xFF) || decide ((v : Rat) + (u16 p 8 : Rat) / 65536 < framePeriod (u8 p 1))), res 10 2]
  stageable := true
  obj p := [u8 p 0]
  removal p := some ⟨0x0703, p.take 1 ++ [0xFF, 1] ++ (le 9 0)⟩
  check a d := refuseIf (tgChanges a.payload d && tgHeld (u8 a.payload 0) d) 0x0015
  point p d := if tgChanges p d then .now else .frame (u8 p 0) d.house
  commit p d t := if tgChanges p d then .strobe t else .frame (u8 p 0) t
  apply a d :=
    let p := a.payload
    { d with
      fab.tgs := tset d.fab.tgs (u8 p 0)
        (let g := timGroup (u8 p 0) d
         let y := tgFromPayload p g
         if tgChanges p d then { y with plannedK := 0, confK := 0, bK := if definedFormat y.format then tgIndex y d.house else 0 } else y) }

/-- A consumer as configured for a raster's format and sampling (R278): its stream units, or none. -/
def consumerUnits (kind id format sampling : Nat) (d : Dev) : Option Nat :=
  let sdi (n : Nat) : Option Nat :=
    let t := tx n d
    if t.en ∧ t.cfgMapping ≠ 0xF ∧ sdiCarries t.cfgMapping format sampling ∧ t.cfgSampling = sampling then
      some (sdiSu t.cfgMapping) else none
  match kind with
  | 1 => if id < 192 ∧ (tx id d).group = 0x3F then sdi id else none
  | 2 =>
    let m := mlink (64 + id) d
    if id < 48 ∧ m.used ∧ sdiCarries m.mapping format sampling then some (sdiSu m.mapping) else none
  | 3 =>
    let x := txFlow id d
    if id < 8192 ∧ x.type = 1 ∧ x.format = format ∧ x.sampling = sampling then some (streamUnits format sampling) else none
  | 4 => if id < 64 then sdi (192 + id) else none
  | _ => none

def cmdRouteEgressBind : CmdSpec where
  opcode := 0x0704
  len := len 8
  fields _ := [rng 2 1 0 63, rng 3 1 0 8, rng 4 1 1 4, res 5 1]
  stageable := true
  commit p _ t := .frame (u8 p 2) t
  obj p := [u16 p 0]
  removal p := some ⟨0x0705, le 4 0 ++ le 2 (u16 p 0) ++ le 2 0⟩
  check a d :=
    let p := a.payload
    let slot := u16 p 0
    let f := tgFormat (u8 p 2) d
    let units := consumerUnits (u8 p 4) (u16 p 6) f (u8 p 3) d
    firstOf [
      refuseIf (decide (1151 < slot)) 0x0010,
      refuseIf (!definedFormat f) 0x0011,
      refuseIf (decide (6 ≤ u8 p 3 ∧ u8 p 3 ≤ 7) && byField f) 0x0011,
      refuseIf units.isNone 0x0011,
      refuseIf (rasterFeeding (u8 p 4) (u16 p 6) d).isSome 0x0006,
      refuseIf (!egressFree slot (units.getD 1) d) 0x0010]
  apply a d :=
    let p := a.payload
    let g := timGroup (u8 p 2) d
    match consumerUnits (u8 p 4) (u16 p 6) g.format (u8 p 3) d with
    | some n => updRaster (u16 p 0) (fun x => { x with
        n := n, tg := u8 p 2, sampling := u8 p 3, kind := u8 p 4, id := u16 p 6, bg := if x.bgSet then x.bg else blackOf (u8 p 3), frame := g.bK,
        startAt := tgTime g (tgNext g (d.house + 200 * us)), halted := false }) d
    | none => d

def cmdRouteEgressUnbind : CmdSpec where
  opcode := 0x0705
  len := len 8
  fields _ := [disableWord, res 6 2]
  stageable := true
  obj p := [u16 p 4]
  sheds _ := true
  check a d :=
    let slot := u16 a.payload 4
    refuseIf (decide (1151 < slot) || ((rasters d).any fun r => decide (r < slot ∧ slot < r + (raster r d).n))) 0x0010
  disables := some fun p _ => [.raster (u16 p 4)]

/-- The member entries of an alignment-group payload. -/
def alignMembers (p : List Byte) : List AlignMember :=
  (List.range (u8 p 2)).map fun i => ⟨u8 p (4 + 8 * i), u16 p (6 + 8 * i), u8 p (8 + 8 * i)⟩

/-- Two rates agree, or differ by exactly 1.001 (R285). -/
def ratesFit (a b : Nat) : Bool :=
  let x := rateHz (rateCode a)
  let y := rateHz (rateCode b)
  decide (x.1 * y.2 = y.1 * x.2) || decide (x.1 * y.2 * 1001 = y.1 * x.2 * 1000) || decide (x.1 * y.2 * 1000 = y.1 * x.2 * 1001)

/-- An alignment group keeps R291. -/
def alignOk (a : Nat) (ms : List AlignMember) (d : Dev) : Bool :=
  let rs := (ms.filter fun m => decide (m.kind = 1)).map (·.id)
  let chans := ms.flatMap fun m => if m.kind = 3 then (List.range m.channels).map (m.id + ·) else []
  let others := ((d.fab.ags.filter fun e => decide (e.1 ≠ a ∧ e.2.state = 1)).flatMap fun e => e.2.members)
    ++ (List.range 48).flatMap fun g => (alignGroup g d).members
  let own := (rs.filter fun r => decide ((stream r d).kind = 1 ∨ (stream r d).kind = 4)).length
  decide (ms.length + own ≤ 8 ∧ rs.length ≤ 4 ∧ rs.eraseDups.length = rs.length ∧ chans.eraseDups.length = chans.length)
    && ms.all (fun m => match m.kind with
      | 1 => (stream m.id d).bound && decide ((stream m.id d).kind ≠ 2)
      | 2 => decide (m.id < 8192 ∧ (rxFlow m.id d).type = 4)
      | 3 => decide (1 ≤ m.channels ∧ m.channels ≤ 64 ∧ m.id + m.channels ≤ srcCount d)
      | _ => false)
    && rs.all (fun r => decide ((stream r d).format = (stream (rs.headD 0) d).format ∧ (stream r d).sampling = (stream (rs.headD 0) d).sampling))
    && others.all (fun m => match m.kind with
      | 1 => !rs.contains m.id
      | 3 => chans.all fun c => decide (c < m.id ∨ m.id + m.channels ≤ c)
      | _ => true)

def cmdRouteAlignGroup : CmdSpec where
  opcode := 0x0706
  len p := decide (4 ≤ p.length ∧ p.length = 4 + 8 * u8 p 2)
  fields p := [res 3 1] ++ (List.range (u8 p 2)).flatMap fun i => [res (5 + 8 * i) 1, res (9 + 8 * i) 3]
  stageable := true
  obj p := [u16 p 0]
  removal p := some ⟨0x0706, p.take 2 ++ [0, 0]⟩
  check a d :=
    let p := a.payload
    refuseIf (decide (u16 p 0 < 48 ∨ 511 < u16 p 0 ∨ 8 < u8 p 2) || !alignOk (u16 p 0) (alignMembers p) d) 0x0014
  apply a d :=
    let p := a.payload
    { d with
      fab.ags := tupd d.fab.ags (u16 p 0) fun g =>
        if u8 p 2 = 0 then { g with state := 0, members := [] } else { g with state := 1, members := alignMembers p } }

/-- A source fits a raster (R285, R299, R316). -/
def sourceFits (x : Raster) (t : Route) (d : Dev) : Bool :=
  let f := tgFormat x.tg d
  let rs := videoRings t.srcKind t.src d
  let part := rs.any fun r => isPart (stream r d)
  decide (rs ≠ []) && decide (t.srcKind = 1 ∨ t.src < 512)
    && (decide (t.srcKind = 2) || (groupOfRing t.src d).isNone)
    && (!part || decide (t.srcKind = 2 ∧ rs.length = 4))
    && rs.all (fun r =>
      let y := stream r d
      decide (y.n ≠ 0 ∧ rasterCode y.format = rasterCode f ∧ y.sampling = x.sampling)
        && decide ((if part then y.n * 4 else y.n) = x.n) && ratesFit y.format f
        && (!t.locked || decide (rs.length = 1 ∧ y.format = f ∧ t.vdelay = 0 ∧ y.kind ≠ 5)))

/-- The largest follow delay of R298. -/
def largestFollow (x : Raster) (t : Route) (d : Dev) : Int :=
  let f := tgFormat x.tg d
  let p := match videoRings t.srcKind t.src d with
    | r :: _ => framePeriod (stream r d).format
    | [] => 0
  let fs := (fsHz d : Rat) / 1000000000
  roundAway ((2 * framePeriod f + 3 * linePeriod f + (t.vdelay : Rat) * p) * fs) + (t.av.natAbs : Int) + roundAway (3 * fs * p)

/-- The follow set reaches back no further than its sources' HOLD (R298, R360). -/
def followFits (x : Raster) (t : Route) (d : Dev) : Bool :=
  ((routeAudio t.srcKind t.src d).take t.count).all fun c => decide (largestFollow x t d ≤ ((audSrc c d).hold : Int))

/-- The follow set overlaps another raster's (R298). -/
def followOverlaps (e : Nat) (t : Route) (d : Dev) : Bool :=
  (rasters d).any fun o => decide (o ≠ e) && (rasterRoutes (raster o d)).any fun u =>
    (followSet t).any fun c => (followSet u).contains c

/-- A scheduled entry's bank names a raster in a take (R303). -/
def takeScheduled (e : Nat) (d : Dev) : Bool :=
  d.cfg.alm.any fun a => decide (a.2.state = 1 ∨ a.2.state = 2) && decide (a.2.action = 1)
    && (tget d.cfg.banks a.2.arg).changes.any fun c => decide (c.opcode = 0x0707 ∧ u16 c.payload 0 = e)

/-- The first frame to which an unstaged take applies: its plan point lies at least 200 us after acceptance (R301). -/
def takeFrame (e : Nat) (d : Dev) : Nat := let g := timGroup (raster e d).tg d; tgNext g (d.house + 200 * us) + 1

/-- The take is in the raster's list already: a commit's takes are handed over before their plan point. -/
def takeHere (e : Nat) (t : Route) (d : Dev) : Bool :=
  (raster e d).takes.any fun u => u.armed && decide (u.route = t)

def cmdRouteTake : CmdSpec where
  opcode := 0x0707
  len := len 24
  fields _ := [rng 2 1 0 2, rng 3 1 0 1, rng 10 1 0 64, res 11 1, res 16 8]
  stageable := true
  obj p := [u16 p 0]
  removal p := some ⟨0x0707, p.take 2 ++ le 6 0 ++ le 2 0xFFFF ++ le 14 0⟩
  sheds p := decide (u8 p 2 = 0)
  check a d :=
    let p := a.payload
    let e := u16 p 0
    let x := raster e d
    let t := routeOf p
    let rs := videoRings t.srcKind t.src d
    let d' := addTake e ⟨t, takeFrame e d, false⟩ d
    firstOf [
      refuseIf (decide (1151 < e ∨ x.n = 0)) 0x0010,
      refuseIf (drainOf (.raster e) d).isSome 0x0002,
      refuseIf (decide (a.mbx ≠ 0xFF) && takeScheduled e d) 0x0006,
      refuseIf (decide (t.srcKind ≠ 0) && !sourceFits x t d) 0x0012,
      refuseIf (decide (28 < u8 p 6) || rs.any fun r => decide ((ringCfg r d).depth < 4 + t.vdelay)) 0x0013,
      refuseIf (decide (i32 p 12 < -48000 ∨ 48000 < i32 p 12) || !followFits x t d) 0x0013,
      refuseIf ((decide (t.base ≠ 0xFFFF) && decide (destCount d < t.base + t.count)) || followOverlaps e t d) 0x0016,
      refuseIf (overAdmission d d') 0x0005]
  commit p d t := .frame (rasterTg (u16 p 0) d) t
  apply a d :=
    let e := u16 a.payload 0
    let t := routeOf a.payload
    addTake e ⟨t, takeFrame e d, false⟩ d
  reply a d _ := let e := u16 a.payload 0; { payload := le 12 (t96 (tgTime (timGroup (raster e d).tg d) (takeFrame e d))) ++ le 6 0 }

/-- Registers of a routed object in offset order, then its counters (R309). -/
def routeStatus (kind id : Nat) (d : Dev) : List Byte :=
  match kind with
  | 1 => le 4 (isStatusWord id d) ++ le 4 (isProdWord id d) ++ le 4 (isSlotsWord id d) ++ le 4 0 ++ le 8 (isStart id d)
      ++ ctrBytes (stream id d).ctrs 0x40 4
  | 2 =>
    let x := raster id d
    le 4 (esStatusWord id d) ++ le 4 (esRouteWord id d) ++ le 4 (esAudioWord id d) ++ le 4 (esDelayWord id d)
      ++ le 16 (t96 x.takeFb) ++ le 8 x.takeStart ++ le 8 (x.newSrc + 65536 * x.oldSrc) ++ ctrBytes x.ctrs 0x40 11
  | 3 =>
    let g := timGroup id d
    le 4 (tgCfgWord id d) ++ le 4 g.phase ++ le 4 (g.frac * 65536) ++ le 4 (tgStatusWord id d)
  | _ =>
    let g := alignGroup id d
    le 4 (agStatusWord id d) ++ ctrBytes g.ctrs 0x10 2
      ++ g.members.flatMap fun m => le 2 m.kind ++ le 2 m.id ++ le 1 m.channels ++ le 3 0

def cmdRouteStatusRead : CmdSpec where
  opcode := 0x0708
  len := len 4
  fields _ := [rng 0 1 1 4, res 1 1]
  check a d :=
    let i := u16 a.payload 2
    match u8 a.payload 0 with
    | 1 => refuseIf (decide (1151 < i) || ((rings d).any fun r => decide (r < i ∧ i < r + (stream r d).n))) 0x0010
    | 2 => refuseIf (decide (1151 < i) || ((rasters d).any fun r => decide (r < i ∧ i < r + (raster r d).n))) 0x0010
    | 3 => refuseIf (decide (63 < i)) 0x0004 2
    | _ => refuseIf (decide (511 < i)) 0x0014
  reply a _ d := { payload := routeStatus (u8 a.payload 0) (u16 a.payload 2) d }

/-- Family 0x07. -/
def family07 : List CmdSpec :=
  [cmdRouteIngressBind, cmdRouteIngressUnbind, cmdRouteTgConfig, cmdRouteEgressBind, cmdRouteEgressUnbind,
   cmdRouteAlignGroup, cmdRouteTake, cmdRouteStatusRead]

end Sys2Proof.Machine
end

