-- ==== Sys2Proof/Machine/Cnv.lean ====
section
/-! DEFINITION. Chapter 9: the conversion pool and output rasters; the commands of family 0x08 and the events of this
chapter. What an engine computes of its pictures is in Convert.lean. -/

namespace Sys2Proof.Machine

/-! ### Conversions (R312 to R318, R323) -/

def cvTdelay (p : List Byte) : Nat := u32 p 12
def cvHbank (p : List Byte) : Nat := u8 p 16
def cvVbank (p : List Byte) : Nat := u8 p 17
def cvColour (p : List Byte) : Bool := bitOf (u8 p 18) 0
def cvAncPass (p : List Byte) : Bool := bitOf (u8 p 18) 1

/-- The reference ring of a conversion's source. -/
def cvRing (p : List Byte) (d : Dev) : Option Nat := (conversionRings p d).head?

/-- The source's format; 0xFF where there is no source. -/
def cvFormat (p : List Byte) (d : Dev) : Nat :=
  match cvRing p d with
  | some r => (stream r d).format
  | none => 0xFF

/-- P_pic: the source picture period (R317); fields are pictures of an interlaced source. -/
def picturePeriod (f : Nat) : Time := if interlaced f then framePeriod f / 2 else framePeriod f

/-- R_nom (R317). -/
def nominalReady (p : List Byte) (d : Dev) : Time :=
  match cvRing p d with
  | none => 0
  | some r =>
    let x := stream r d
    framePeriod x.format + (match x.kind with
      | 3 => ((rxFlow x.id d).skew : Rat) * us
      | 4 => (match tfind d.flows.rx fun y => decide (y.type = 5 ∧ y.dest = x.id) with
        | n :: _ => ((rxFlow n d).skew : Rat) * us
        | [] => 0)
      | 5 => ((engine x.id d).tdelay : Rat) * us
      | _ => 0)

/-- TDELAY in microseconds: as set, or automatic (R317). -/
def tdelayOf (p : List Byte) (d : Dev) : Nat :=
  if cvTdelay p ≠ 0 then cvTdelay p
  else
    let ahead : Nat := if cvTmode p = 0 ∧ cvDeint p = 0 then 0 else if cvTmode p = 1 ∧ cvDeint p = 1 then 2 else 1
    (((ahead : Rat) * picturePeriod (cvFormat p d) + nominalReady p d + 8 * linePeriod (tgFormat (cvTg p) d) + 500 * us) / us).ceil.toNat

/-- The output window (R323): X, Y, W, H. -/
def cvWindow (p : List Byte) (d : Dev) : Nat × Nat × Nat × Nat :=
  let f := tgFormat (cvTg p) d
  if u16 p 76 = 0 then (0, 0, activeWidth f, activeLines f) else (u16 p 72, u16 p 74, u16 p 76, u16 p 78)

/-- A ratio of R323: from 1/8 to 16. -/
def ratioOk (out inp : Nat) : Bool := decide (inp ≤ 8 * out ∧ out ≤ 16 * inp ∧ 0 < inp)

/-- A sampling's chroma plane is halved horizontally, and vertically. -/
def chromaH (sampling : Nat) : Nat := if sampling ≤ 1 ∨ sampling = 6 ∨ sampling = 7 then 2 else 1
def chromaV (sampling : Nat) : Nat := if sampling = 6 ∨ sampling = 7 then 2 else 1

/-- A sampling of RGB. -/
def isRgb (sampling : Nat) : Bool := decide (sampling = 4 ∨ sampling = 5 ∨ sampling = 8)

/-- The combinations that a conversion supports (R353, status 0x0011). -/
def conversionOk (p : List Byte) (d : Dev) : Bool :=
  let f := tgFormat (cvTg p) d
  let src := cvFormat p d
  let ss := match cvRing p d with
    | some r => (stream r d).sampling
    | none => 0xF
  let (x, y, w, h) := cvWindow p d
  definedFormat f && definedFormat src
    && (decide (cvSrcKind p = 1) && (match cvRing p d with
          | some r => decide ((stream r d).n ≠ 0) && !isPart (stream r d)
          | none => false)
        || decide (cvSrcKind p = 2 ∧ (conversionRings p d).length = 4))
    && !(decide (cvSampling p = 6 ∨ cvSampling p = 7) && byField f)
    && !(decide (cvDeint p = 1) && !interlaced src)
    && decide (x + w ≤ activeWidth f ∧ y + h ≤ activeLines f)
    && ratioOk w (activeWidth src) && ratioOk h (activeLines src)
    && ratioOk w (activeWidth src / chromaH ss) && ratioOk h (activeLines src / chromaV ss)
    && (cvColour p || decide (isRgb ss = isRgb (cvSampling p)))

/-- The span and demand limits (R314). -/
def demandOk (p : List Byte) (d : Dev) : Bool :=
  let k := max 1 (cvGang p)
  let f := tgFormat (cvTg p) d
  let src := cvFormat p d
  let span := ceilDiv (activeWidth src) k + 8
  let vout := activeLines f / (if byField f then 2 else 1)
  let fac := (readFactor src (cvDeint p) (cvTmode p) * (activeLines src : Rat) / (vout : Rat)).ceil.toNat
  let dem := max (ceilDiv (activeWidth f) k) (span * fac) + 64
  decide (span ≤ 4096) && decide ((dem : Int) ≤ (linePeriod f * 3 / 4).floor)

/-- The source rings are deep enough (R318). -/
def depthOk (p : List Byte) (d : Dev) : Bool :=
  (conversionRings p d).all fun r =>
    let per := framePeriod (stream r d).format
    decide (0 < per) && decide (4 + ((tdelayOf p d : Rat) * us / per).ceil.toNat ≤ (ringCfg r d).depth)

/-- The engines that a configuration needs are the conversion's own or idle, and none is retired (R353, status 0x0010). -/
def gangOk (p : List Byte) (d : Dev) : Bool :=
  let e := u8 p 0
  let k := cvGang p
  decide (e + k ≤ 48 ∧ e % k = 0 ∧ (engine e d).lead = none) && !(engine e d).retired
    && (List.range k).all fun i => engineIdle (e + i) d || decide (conversionOf (e + i) d = some e) && !(engine (e + i) d).retired

/-- The output ring of a conversion: the stream whose producer is kind 5 with the first engine as ID (R312). -/
def outputRing (e : Nat) (d : Dev) : Option Nat :=
  (tfind d.fab.streams fun x => decide (x.n ≠ 0 ∧ x.kind = 5 ∧ x.id = e) && x.bound).head?

/-- A configuration comes into force, its TDELAY fixed now (R317). -/
def setConversion (p : List Byte) (d : Dev) : Dev :=
  let e := u8 p 0
  let old := gangOf e d
  let d := if (engine e d).conf = [] then d
    else old.foldl (fun d i => if i = e then d else updEngine i (fun x => { x with lead := none }) d) d
  let t := tdelayOf p d
  let d := updEngine e (fun x => { x with conf := p, tdelay := t }) d
  (gangOf e d).foldl (fun d i => if i = e then d else updEngine i (fun x => { x with lead := some e }) d) d

/-- The first-frame point of R352: an enabled conversion changes at an output frame; another has none in progress and
changes at once. -/
def cnvPoint (e : Nat) (t : Time) (now : Bool) (d : Dev) : Point :=
  if (engine e d).en then .picture e t else if now then .now else .strobe t

/-! ### Selection (R319 to R321) -/

/-- The pictures of a source frame with their times: its fields, or the frame (R319). -/
def picturesOf (x : Stream) (f : Nat) : List (Picture × Time) :=
  match startOf x f with
  | none => []
  | some s => if interlaced x.format then [(⟨f, 0⟩, s), (⟨f, 1⟩, s + framePeriod x.format / 2)] else [(⟨f, 0⟩, s)]

/-- The picture after one, by R284. -/
def pictureAfter (x : Stream) (p : Picture) : Picture :=
  if interlaced x.format ∧ p.field = 0 then ⟨p.num, 1⟩ else ⟨nextAfter x p.num, 0⟩

/-- A picture's time. -/
def pictureTime (x : Stream) (p : Picture) : Option Time :=
  (startOf x p.num).map fun s => s + (p.field : Rat) * framePeriod x.format / 2

/-- Pictures that may be named by a time, in order of frame. -/
def knownPictures (x : Stream) (t : Time) : List (Picture × Time) := (knownFrames x t).flatMap (picturesOf x)

/-- The newest picture with its time at or before `t`. -/
def newestPicture (l : List (Picture × Time)) (t : Time) : Option (Picture × Time) :=
  (l.filter fun p => decide (p.2 ≤ t)).foldl (fun o p => match o with
    | none => some p
    | some q => if q.2 < p.2 then some p else some q) none

/-- The picture whose time lies nearest `t`, the earlier on a tie. -/
def nearestPicture (l : List (Picture × Time)) (t : Time) : Option (Picture × Time) :=
  l.foldl (fun o p => match o with
    | none => some p
    | some q =>
      if absQ (p.2 - t) < absQ (q.2 - t) ∨ (absQ (p.2 - t) = absQ (q.2 - t) ∧ p.2 < q.2) then some p else some q) none

/-- σ for a picture (R319). -/
def sigma (e j q : Nat) (d : Dev) : Time :=
  let x := engine e d
  let g := timGroup (cvTg x.conf) d
  tgTime g j + (q : Rat) * framePeriod g.format / 2 - (x.tdelay : Rat) * us

/-- The selection of R319. -/
def pickPictures (e j q : Nat) (d : Dev) : Selection :=
  let x := engine e d
  match cvRing x.conf d with
  | none => {}
  | some r =>
    let y := stream r d
    let sg := sigma e j q d
    if cvTmode x.conf = 1 then
      match newestPicture (knownPictures y sg) sg with
      | none => {}
      | some (a, sa) =>
        let b := pictureAfter y a
        let sb := if b.num < y.next then (pictureTime y b).getD (sa + pHat y) else sa + pHat y
        let w := if sb ≤ sa then 0 else (64 * (sg - sa) / (sb - sa) + 1 / 2).floor.toNat
        { a := some a, b := some b, w := min 64 w }
    else
      let per := picturePeriod y.format
      let follow := match x.selA with
        | some p =>
          let n := pictureAfter y p
          (match pictureTime y n with
           | some s => if absQ (s - sg) ≤ 5 * per / 8 then some n else none
           | none => none)
        | none => none
      { a := match follow with
          | some n => some n
          | none => (nearestPicture (knownPictures y (sg + per)) sg).map (·.1) }

/-- A picture's frame is READY, in every part of the source. -/
def pictureReady (p : List Byte) (a : Picture) (d : Dev) : Bool :=
  match groupFrame (cvSrcKind p) (cvSrc p) a.num d with
  | some ps => groupReady (cvSrcKind p) (cvSrc p) ps d
  | none => false

/-- What R320 makes of a selection when a named picture is not READY; A is absent where the engine repeats its previous
output picture or writes background. -/
def lateSelection (e j q : Nat) (s : Selection) (d : Dev) : Selection :=
  let x := engine e d
  match cvRing x.conf d with
  | none => { s with a := none, w := 0, late := true }
  | some r =>
    let y := stream r d
    let sg := sigma e j q d
    let aOk := match s.a with
      | some a => pictureReady x.conf a d
      | none => false
    let bOk := match s.b with
      | some b => pictureReady x.conf b d
      | none => true
    if aOk && bOk then s
    else if aOk = true then { s with w := 0, late := true }
    else
      let c := (knownPictures y sg).filter fun p => pictureReady x.conf p.1 d
      { s with a := (newestPicture c sg).map (·.1), w := 0, late := true }

/-- The picture that the engine holds whose time matches a START of the ledger within P̂ ÷ 4 (R321). -/
def heldPicture (y : Stream) (t : Nat) (now : Time) : Option Picture :=
  ((knownPictures y now).find? fun p =>
    (slotOf y p.1.num).isSome && decide (absQ (wrapHalf ((ns48 p.2 : Rat) - (t : Rat)) ((2 ^ 48 : Nat) : Rat)) ≤ pHat y / 4)).map (·.1)

/-- The lead's selection, where an entry has arrived and names pictures that this engine holds (R321). -/
def ledgerSelection (e j q : Nat) (d : Dev) : Option Selection :=
  let x := engine e d
  match cvRing x.conf d, x.ledger.find? (fun l => decide (l.j = j % 2 ^ 48 ∧ l.q = q)) with
  | some r, some l =>
    let y := stream r d
    if l.noPic then some {}
    else match heldPicture y l.startA d.house with
    | none => none
    | some a =>
      if l.w = 0 then some { a := some a }
      else (heldPicture y l.startB d.house).map fun b => { a := some a, b := some b, w := l.w }
  | _, _ => none

/-- The selection that an engine makes at W_(j,q), and whether it missed the ledger (R319 to R321). -/
def selection (e j q : Nat) (d : Dev) : Selection × Bool :=
  if roleMode d = SHADOW then
    (match ledgerSelection e j q d with
     | some s => (lateSelection e j q s d, false)
     | none => (lateSelection e j q (pickPictures e j q d) d, true))
  else (lateSelection e j q (pickPictures e j q d) d, false)

/-! ### Substitution (R338, R339) -/

/-- A change that names engine `e` names `f` instead. -/
def moveChange (e f : Nat) (c : Change) : Change :=
  if (c.opcode = 0x0801 ∨ c.opcode = 0x0802) ∧ u8 c.payload 0 = e then { c with payload := BitVec.ofNat 8 f :: c.payload.drop 1 }
  else if c.opcode = 0x0701 ∧ u8 c.payload 2 = 5 ∧ u16 c.payload 4 = e then
    { c with payload := c.payload.take 4 ++ le 2 f ++ c.payload.drop 6 }
  else c

/-- A conversion moves from engine or gang `e` to `f`, beginning with output frame `j` (R338, R339). -/
def substitute (e f j : Nat) (auto : Bool) (d : Dev) : Dev :=
  let x := engine e d
  let k := max 1 (cvGang x.conf)
  let conf := BitVec.ofNat 8 f :: x.conf.drop 1
  let d := (gangOf e d).foldl (fun d i => updEngine i (fun y => { y with lead := none }) d) d
  let d := updEngine e (fun y => { y with
    conf := [], en := false, subst := none, resume := none, startA := none, ledger := [], sent := none,
    cur := {}, lastOut := [] }) d
  let d := updEngine f (fun y => { y with
    conf := conf, en := x.en, tdelay := x.tdelay, selA := x.selA, selB := x.selB, startA := x.startA, w := x.w, late := x.late,
    lastJ := x.lastJ, lastQ := x.lastQ, ledger := x.ledger, sent := x.sent, cur := x.cur, lastOut := x.lastOut, ctrs := bump y.ctrs 0x70 }) d
  let d := (List.range k).foldl (fun d i => if i = 0 then d else updEngine (f + i) (fun y => { y with lead := some f }) d) d
  let d := { d with
    fab.streams := tmap d.fab.streams fun _ s => if s.kind = 5 ∧ s.id = e ∧ s.n ≠ 0 then { s with id := f } else s,
    cfg.inForce := d.cfg.inForce.map (moveChange e f),
    cfg.waiting := d.cfg.waiting.map fun w => match w.point with
      | .picture n t => if n = e then { w with point := .picture f t, change := moveChange e f w.change } else w
      | _ => w }
  postEntry { code := 0x0B01, object := e, time := ns48 (tgTime (timGroup (cvTg conf) d) j),
              data := le 1 f ++ le 1 (b2n auto) ++ le 6 j } d

/-! ### Events -/

/-- The engines of a conversion are out of reset (R339). -/
def gangUp (e : Nat) (d : Dev) : Bool := (gangOf e d).all fun i => !d.flt.inReset.contains (7, i)

/-- CONVERTER_PICTURE_START is due (R315): an enabled conversion, at W_(j,q), the picture not begun; a draining engine
begins no further output frame (R30). -/
def pictureDue (e j q : Nat) (d : Dev) : Bool :=
  let x := engine e d
  let g := timGroup (cvTg x.conf) d
  blocksRun d && x.en && decide (x.conf ≠ []) && definedFormat g.format
    && decide (q < (if byField g.format then 2 else 1))
    && decide (pictureStart g j q ≤ d.house ∧ d.house < pictureStart g j q + picturePeriod g.format)
    && (match x.lastJ with
        | some l => decide (l < j ∨ (l = j ∧ x.lastQ < q))
        | none => decide (q = 0))
    && (decide (0 < q) || (drainOf (.engine e) d).isNone)
    && (match x.resume with
        | some r => decide (r ≤ j)
        | none => true)

/-- The substitution that an output frame brings, with the engine that makes it. -/
def takeOver (e j q : Nat) (d : Dev) : Nat × Dev :=
  match (engine e d).subst with
  | some (f, j0, auto) => if q = 0 ∧ j0 ≤ j then (f, substitute e f j auto d) else (e, d)
  | none => (e, d)

/-- The engine resumes its own conversion after a contained reset (R339): event 0x0B02. -/
def resumeEngine (e j : Nat) (d : Dev) : Dev :=
  if (engine e d).resume.isNone then d
  else postEntry { code := 0x0B02, object := e, data := le 6 j,
                   time := ns48 (tgTime (timGroup (cvTg (engine e d).conf) d) j) }
    (updEngine e (fun x => { x with resume := none }) d)

/-- The ancillary records of picture A's frame whose LINE exists in the output format go into the output slot (R331). -/
def passAnc (e ring num : Nat) (a : Option Picture) (d : Dev) : Dev :=
  let x := engine e d
  if !cvAncPass x.conf then d
  else match a, cvRing x.conf d with
  | some p, some r => (match slotOf (stream r d) p.num with
    | some s =>
      (s.anc.filter fun k => decide (k.line ≤ totalLines (tgFormat (cvTg x.conf) d))).foldl (fun d k => storeAnc ring num k d) d
    | none => d)
  | _, _ => d

/-- Output frame `j` begins in the output ring, with START = T_j − TDELAY (R316). -/
def beginOutput (e j : Nat) (a : Option Picture) (d : Dev) : Dev :=
  match outputRing e d with
  | none => d
  | some r =>
    if (drainOf (.ingress r) d).isSome then d
    else
      let x := engine e d
      let num := (stream r d).next
      let d := beginWriting r (tgTime (timGroup (cvTg x.conf) d) j - (x.tdelay : Rat) * us) d
      if (stream r d).next = num then d
      else passAnc e r num a (eBump e 0x40 1 (updEngine e (fun x => { x with frames := x.frames ++ [(j, r, num)] }) d))

/-- Tokens in each state while a picture is computed; how many stand in each is not stated (R334). -/
def drawTokens (e : Nat) (d : Dev) : Dev :=
  let v := freeNat d
  let f := v % 49
  let h := v / 49 % (49 - f)
  let o := v / 2401 % (49 - f - h)
  useFree (updEngine e (fun x => if x.frames = [] then x
    else { x with fetch := f, held := h, out := o, tokens := x.tokens + x.fetch + x.held + x.out - (f + h + o) }) d)

/-- The converter entry of a selection (R467). -/
def converterEntry (e j q : Nat) (s : Selection) (corr : Bool) (d : Dev) : LedgerEntry :=
  let t (p : Option Picture) : Nat := match cvRing (engine e d).conf d, p with
    | some r, some p => ((pictureTime (stream r d) p).map ns48).getD 0
    | _, _ => 0
  .converter e (j % 2 ^ 48) q (t s.a) (t s.b) s.w corr s.a.isNone

/-- A picture begins (R315, R319 to R321). -/
def beginPicture (e j q : Nat) (d : Dev) : Dev :=
  let (s, miss) := selection e j q d
  let x := engine e d
  let start := match s.a, cvRing x.conf d with
    | some a, some r => startOf (stream r d) a.num
    | _, _ => none
  let corr := ledgerLead d && (match x.sent with
    | some (j', q', t) => decide (j' = j ∧ q' = q) && decide (t.a ≠ s.a ∨ t.b ≠ s.b ∨ t.w ≠ s.w)
    | none => false)
  let d := updEngine e (fun x => { x with
    cur := s, lastJ := some j, lastQ := q, w := s.w, late := s.late, selA := if s.a.isSome then s.a else x.selA,
    selB := if s.b.isSome then s.b else x.selB, startA := if start.isSome then start else x.startA,
    ledger := x.ledger.filter fun l => decide (j < l.j ∨ (j = l.j ∧ q < l.q)) }) d
  let d := if s.late then eBump e 0x60 1 d else d
  let d := if 0 < s.w ∧ s.w < 64 then eBump e 0x58 1 d else d
  let d := if miss then ledgerMiss (4096 + e) (eBump e 0x78 1 d)
    else if roleMode d = SHADOW then ledgerHit (4096 + e) d else d
  let d := if corr then sendLedger [converterEntry e j q s true d] d else d
  let d := if q = 0 then beginOutput e j s.a d else d
  sweep (drawTokens e d)

/-- CONVERTER_PICTURE_START (R315), after the changes of R352 that wait for this output frame, with the engine that begins the
picture. -/
def converterPictureStart (e j q : Nat) (d : Dev) : Option Nat × Dev :=
  let (e, d) := takeOver e j q d
  if gangUp e d then (some e, beginPicture e j q (if q = 0 then resumeEngine e j d else d)) else (none, d)

/-- LEDGER_CONVERTER_SEND (R467): at W_(j,q) − 500 us, a lead sends the selection that R319 names then. -/
def execLedgerConverterSend (e j q : Nat) (s : State) : Out :=
  onDevIf (fun d =>
      let x := engine e d
      let g := timGroup (cvTg x.conf) d
      ledgerLead d && x.en && decide (q < (if byField g.format then 2 else 1))
        && decide (pictureStart g j q - 500 * us ≤ d.house ∧ d.house < pictureStart g j q)
        && (match x.sent with
            | some (j', q', _) => decide (j' < j ∨ (j' = j ∧ q' < q))
            | none => true))
    (fun d => let p := pickPictures e j q d
      sendLedger [converterEntry e j q p false d] (updEngine e (fun x => { x with sent := some (j, q, p) }) d)) s

/-! ### Registers (R350) -/

/-- CNV_STATUS.STATE. -/
def engineState (e : Nat) (d : Dev) : Nat :=
  let x := engine e d
  if x.retired then 4
  else match conversionOf e d with
  | none => if x.frames = [] then 0 else 2
  | some c => if (drainOf (.engine c) d).isSome then 3 else if (engine c d).en then 2 else 1

def cnvStatusWord (e : Nat) (d : Dev) : Nat :=
  let c := conversionOf e d
  let p := (engine (c.getD e) d).conf
  let gang := if cvGang p = 4 then 2 else if cvGang p = 2 then 1 else 0
  fld (engineState e d) 29 3 + fld gang 27 2 + fld (c.getD 0x3F) 21 6 + fld (cvTg p) 15 6 + fld (b2n d.cnv.spareAuto) 14 1

def cnvSelWord (e : Nat) (d : Dev) : Nat := let x := engine e d; fld x.w 25 7 + fld (b2n x.late) 24 1

def cnvTokensWord (e : Nat) (d : Dev) : Nat :=
  let x := engine e d
  fld x.tokens 26 6 + fld x.fetch 20 6 + fld x.held 14 6 + fld x.out 8 6

def selNum (p : Option Picture) : Nat := (p.map (·.num)).getD 0 % 2 ^ 48

/-- CNV_POOL_LO and CNV_POOL_HI. -/
def cnvPoolWord (hi : Bool) (d : Dev) : Nat :=
  (List.range (if hi then 16 else 32)).foldl (fun n i => n + b2n (engineIdle (if hi then 32 + i else i) d) * 2 ^ i) 0

def outCfgWord (e : Nat) (d : Dev) : Nat :=
  let x := raster e d
  let en := (List.range 4).foldl (fun n m => n + b2n (tget x.markers m).en * 2 ^ m) 0
  fld (b2n x.keyout) 31 1 + fld en 27 4

/-- OUT_TOL (R342). -/
def outTolWord (e : Nat) (d : Dev) : Nat := rasterTolerance e d

def markerPosWord (m : Marker) : Nat := fld m.x 16 16 + fld m.y 0 16
def markerCfgWord (m : Marker) : Nat := fld m.glyph 23 9 + fld m.scale 21 2 + fld m.on 13 8 + fld m.off 5 8

/-! ### Commands of family 0x08: conversions (R351 to R353) -/

def cmdCnvConfig : CmdSpec where
  opcode := 0x0801
  len := len 88
  fields p := [oneOf 1 1 [1, 2, 4], rng 2 1 0 63, rng 3 1 0 8, rng 4 1 1 2, res 5 1,
    rng 6 2 0 (if u8 p 4 = 2 then 47 else 1151), rng 8 1 0 1, rng 9 1 0 1, rng 10 1 0 254, rng 11 1 (u8 p 10 + 1) 255,
    fok 12 4 (fun v => decide (v = 0 ∨ (1000 ≤ v ∧ v ≤ 200000))), fok 16 1 (fun v => decide (v < 64 ∨ v = 0xFF)),
    fok 17 1 (fun v => decide (v < 64 ∨ v = 0xFF)), rng 18 1 0 15, rng 19 1 0 2, rng 20 1 0 2, rng 21 1 0 31, rng 22 1 0 31, res 23 1]
    ++ ((List.range 9).map fun i => srng (24 + 4 * i) 4 (-524288) 524288)
    ++ ((List.range 3).map fun i => srng (60 + 4 * i) 4 (-8388608) 8388607) ++ [res 86 2]
  stageable := true
  obj p := [u8 p 0]
  check a d :=
    let p := a.payload
    let e := u8 p 0
    let x := engine e d
    let d' := setConversion p d
    firstOf [
      refuseIf (!gangOk p d) 0x0010,
      refuseIf (decide (x.conf ≠ []) && (outputRing e d).isSome && decide (cvTg x.conf ≠ cvTg p ∨ cvSampling x.conf ≠ cvSampling p)) 0x0006,
      refuseIf (!conversionOk p d) 0x0011,
      refuseIf (!demandOk p d) 0x0012,
      refuseIf (!depthOk p d) 0x0016,
      refuseIf (x.en && overAdmission d d') 0x0005]
  point p d := cnvPoint (u8 p 0) (d.house + 200 * us) true d
  commit p d t := cnvPoint (u8 p 0) t false d
  apply a d := setConversion a.payload d

def cmdCnvEnable : CmdSpec where
  opcode := 0x0802
  len := len 4
  fields _ := [res 1 3]
  stageable := true
  obj p := [u8 p 0]
  removal p := some ⟨0x0803, le 4 0 ++ p.take 1 ++ le 3 0⟩
  check a d :=
    let e := u8 a.payload 0
    let p := (engine e d).conf
    firstOf [
      refuseIf (decide (47 < e ∨ p = []) || !gangOk p d) 0x0010,
      refuseIf (drainOf (.engine e) d).isSome 0x0002,
      refuseIf (!conversionOk p d) 0x0011,
      refuseIf (!demandOk p d) 0x0012,
      refuseIf (!depthOk p d) 0x0016,
      refuseIf (overAdmission d (updEngine e (fun x => { x with en := true }) d)) 0x0005]
  -- The selection starts anew with the first picture after the enable.
  apply a d := updEngine (u8 a.payload 0) (fun x =>
    if x.en then x else { x with
      en := true, lastJ := none, lastQ := 0, selA := none, selB := none, startA := none, resume := none,
      cur := {}, lastOut := [] }) d

def cmdCnvDisable : CmdSpec where
  opcode := 0x0803
  len := len 8
  fields _ := [disableWord, res 5 3]
  stageable := true
  obj p := [u8 p 4]
  sheds _ := true
  check a d := let e := u8 a.payload 4; refuseIf (decide (47 < e) || (engine e d).lead.isSome) 0x0010
  disables := some fun p _ => [.engine (u8 p 4)]

/-- The frame of a substitution: the next output frame whose W_(j,0) lies at least 200 us after acceptance (R338). -/
def substFrame (e : Nat) (d : Dev) : Nat := nextOutput (timGroup (cvTg (engine e d).conf) d) (d.house + 200 * us)

/-- A conversion that is not enabled has no output frame to wait for, and moves at once. -/
def startSubstitution (e f : Nat) (d : Dev) : Dev :=
  if (engine e d).en then updEngine e (fun x => { x with subst := some (f, substFrame e d, false) }) d
  else substitute e f (substFrame e d) false d

def cmdCnvSubstitute : CmdSpec where
  opcode := 0x0804
  len := len 4
  fields _ := [res 2 2]
  check a d :=
    let e := u8 a.payload 0
    let f := u8 a.payload 1
    let k := cvGang (engine e d).conf
    firstOf [
      refuseIf (decide (47 < e ∨ (engine e d).conf = []) || decide (48 < f + k ∨ f % max 1 k ≠ 0)
        || !((List.range k).all fun i => engineIdle (f + i) d)) 0x0010,
      refuseIf ((engine e d).subst.isSome || (drainOf (.engine e) d).isSome) 0x0002,
      refuseIf (overAdmission d (substitute e f (substFrame e d) false d)) 0x0005]
  apply a d := startSubstitution (u8 a.payload 0) (u8 a.payload 1) d
  reply a d _ := let e := u8 a.payload 0; { payload := le 12 (t96 (tgTime (timGroup (cvTg (engine e d).conf) d) (substFrame e d))) }

def cmdCnvSpareAuto : CmdSpec where
  opcode := 0x0805
  len := len 4
  fields _ := [rng 0 1 0 1, res 1 3]
  config := true
  apply a d := { d with cnv.spareAuto := decide (u8 a.payload 0 = 1) }

/-- The taps of each phase of a bank (R325): within range, and summing to 4,096. -/
def bankOk (b : List Byte) : Bool :=
  (List.range 256).all fun ph =>
    let taps := (List.range 8).map fun t => i16 b (16 * ph + 2 * t)
    taps.all (fun t => decide (-8192 ≤ t ∧ t ≤ 8191)) && decide (taps.foldl (· + ·) 0 = 4096)

/-- A sealed bank holds a change that satisfies `f` (R333). -/
def sealedNames (f : Change → Bool) (d : Dev) : Bool := d.cfg.banks.any fun b => decide (3 ≤ b.2.state) && b.2.changes.any f

/-- A coefficient bank is in use (R333). -/
def bankInUse (b : Nat) (d : Dev) : Bool :=
  let names (p : List Byte) : Bool := decide (cvHbank p = b ∨ cvVbank p = b)
  (conversions d).any (fun e => names (engine e d).conf) || sealedNames (fun c => decide (c.opcode = 0x0801) && names c.payload) d

/-- A table set is in use (R333). -/
def setInUse (t : Nat) (d : Dev) : Bool :=
  let names (p : List Byte) : Bool := decide (u8 p 21 = t ∨ u8 p 22 = t)
  (conversions d).any (fun e => cvColour (engine e d).conf && names (engine e d).conf)
    || sealedNames (fun c => decide (c.opcode = 0x0801) && names c.payload) d

def cmdCnvCoefLoad : CmdSpec where
  opcode := 0x0806
  len := len 8
  fields _ := [res 1 3, fok 4 4 fun v => decide (v % 32 = 0)]
  config := true
  check a d :=
    let b := u8 a.payload 0
    let o := u32 a.payload 4
    firstOf [
      refuseIf (decide (b < 4 ∨ 63 < b)) 0x0013,
      refuseIf (decide (stagingBytes < o + 4096)) 0x0013,
      refuseIf (bankInUse b d) 0x0013,
      refuseIf (!bankOk (stagingRead a.mem d o 4096)) 0x0013]
  apply a d := { d with cnv.banks := tset d.cnv.banks (u8 a.payload 0) (stagingRead a.mem d (u32 a.payload 4) 4096) }

def cmdCnvLutLoad : CmdSpec where
  opcode := 0x0807
  len := len 8
  fields _ := [res 1 3, fok 4 4 fun v => decide (v % 32 = 0)]
  config := true
  check a d :=
    let t := u8 a.payload 0
    firstOf [
      refuseIf (decide (t < 5 ∨ 31 < t)) 0x0013,
      refuseIf (decide (stagingBytes < u32 a.payload 4 + 23048)) 0x0013,
      refuseIf (setInUse t d) 0x0013]
  apply a d := { d with cnv.luts := tset d.cnv.luts (u8 a.payload 0) (stagingRead a.mem d (u32 a.payload 4) 23048) }

def cmdCnvStatusRead : CmdSpec where
  opcode := 0x0808
  len := len 4
  fields _ := [res 1 3]
  check a _ := refuseIf (decide (47 < u8 a.payload 0)) 0x0010
  reply a _ d :=
    let e := u8 a.payload 0
    let x := engine e d
    { payload := le 4 (cnvStatusWord e d) ++ le 4 (cnvSelWord e d) ++ le 4 x.tdelay ++ le 4 (cnvTokensWord e d)
        ++ le 8 (selNum x.selA) ++ le 8 (selNum x.selB) ++ ctrBytes x.ctrs 0x40 8 }

/-! ### Commands of family 0x08: output rasters (R344 to R349, R351) -/

/-- A slot is not the first slot of a bound raster. -/
def noRaster (e : Nat) (d : Dev) : Bool := decide (1151 < e) || decide ((raster e d).n = 0)

def cmdOutRasterConfig : CmdSpec where
  opcode := 0x0810
  len := len 12
  fields _ := [rng 2 1 0 1, res 3 1, res 10 2]
  stageable := true
  obj p := [u16 p 0]
  check a d := refuseIf (noRaster (u16 a.payload 0) d) 0x0014
  point p d := .frame (rasterTg (u16 p 0) d) (d.house + 200 * us)
  commit p d t := .frame (rasterTg (u16 p 0) d) t
  apply a d :=
    let p := a.payload
    updRaster (u16 p 0) (fun x => { x with keyout := decide (u8 p 2 = 1), bg := BitVec.ofNat 48 (un 6 p 4), bgSet := true }) d

def cmdOutGlyphLoad : CmdSpec where
  opcode := 0x0811
  len := len 2052
  fields _ := [res 2 2]
  config := true
  check a d := firstOf [refuseIf (decide (511 < u16 a.payload 0)) 0x0014, refuseIf (decide (d.fab.newGlyphs ≠ [])) 0x0015]
  apply a d :=
    loadGlyph (u16 a.payload 0) (a.payload.drop 4) d

def cmdOutMarker : CmdSpec where
  opcode := 0x0812
  len := len 16
  fields _ := [rng 3 1 0 1, res 13 3]
  stageable := true
  obj p := [u16 p 0, u8 p 2]
  check a d :=
    let p := a.payload
    firstOf [
      refuseIf (noRaster (u16 p 0) d) 0x0014,
      refuseIf (decide (3 < u8 p 2 ∨ 511 < u16 p 8) || !([1, 2, 4].contains (u8 p 10))) 0x0014]
  point p d := .frame (rasterTg (u16 p 0) d) (d.house + 200 * us)
  commit p d t := .frame (rasterTg (u16 p 0) d) t
  apply a d :=
    let p := a.payload
    let m : Marker := { en := decide (u8 p 3 = 1), x := u16 p 4, y := u16 p 6, glyph := u16 p 8,
                        scale := if u8 p 10 = 4 then 2 else if u8 p 10 = 2 then 1 else 0, on := u8 p 11, off := u8 p 12 }
    updRaster (u16 p 0) (fun x => { x with markers := tset x.markers (u8 p 2) m }) d

/-- The reserved bits of a palette entry are 0. -/
def paletteOk (v : Nat) : Bool := decide (bits v 63 58 = 0 ∧ bits v 47 42 = 0 ∧ bits v 31 26 = 0 ∧ bits v 15 8 = 0)

def cmdOutPalette : CmdSpec where
  opcode := 0x0813
  len p := decide (4 ≤ p.length ∧ p.length = 4 + 8 * u8 p 3)
  fields p := (List.range (u8 p 3)).map fun i => fok (4 + 8 * i) 8 paletteOk
  stageable := true
  obj p := [u16 p 0, u8 p 2, u8 p 3]
  check a d :=
    let p := a.payload
    firstOf [
      refuseIf (noRaster (u16 p 0) d) 0x0014,
      refuseIf (decide (u8 p 3 = 0 ∨ 16 < u8 p 2 + u8 p 3)) 0x0014]
  point p d := .frame (rasterTg (u16 p 0) d) (d.house + 200 * us)
  commit p d t := .frame (rasterTg (u16 p 0) d) t
  apply a d :=
    let p := a.payload
    updRaster (u16 p 0) (fun x => { x with
      palette := (List.range (u8 p 3)).foldl (fun t i => tset t (u8 p 2 + i) (u64 p (4 + 8 * i))) x.palette }) d

def cmdOutStatusRead : CmdSpec where
  opcode := 0x0814
  len := len 4
  fields _ := [res 2 2]
  check a d := refuseIf (noRaster (u16 a.payload 0) d) 0x0014
  reply a _ d :=
    let e := u16 a.payload 0
    let x := raster e d
    { payload := le 4 (outCfgWord e d) ++ le 4 (outTolWord e d) ++ le 8 x.bg.toNat ++ le 8 x.frame
        ++ ((List.range 4).flatMap fun m => le 4 (markerPosWord (tget x.markers m)) ++ le 4 (markerCfgWord (tget x.markers m)))
        ++ ((List.range 16).flatMap fun i => le 8 (tget x.palette i)) ++ ctrBytes x.outCtrs 0x40 3 }

/-- Family 0x08. -/
def family08 : List CmdSpec :=
  [cmdCnvConfig, cmdCnvEnable, cmdCnvDisable, cmdCnvSubstitute, cmdCnvSpareAuto, cmdCnvCoefLoad, cmdCnvLutLoad,
   cmdCnvStatusRead, cmdOutRasterConfig, cmdOutGlyphLoad, cmdOutMarker, cmdOutPalette, cmdOutStatusRead]

end Sys2Proof.Machine
end

