-- ==== Sys2Proof/Machine/Convert.lean ====
section
/-! DEFINITION. The arithmetic of conversions (R322 to R331): deinterlacing, blending, the scaler and its banks, colour, and the
output picture. A picture is three grids of native components, each a list of rows. -/

namespace Sys2Proof.Machine

abbrev Grid := List (List Nat)

/-- An index brought within a length: what lies beyond repeats the edge (R322, R323). -/
def clampIdx (n : Nat) (i : Int) : Nat := min (n - 1) i.toNat

def sampleAt (g : Grid) (y x : Int) : Nat :=
  let row := g.getD (clampIdx g.length y) []
  row.getD (clampIdx row.length x) 0

/-- A component of a picture's planes; 4:2:2 and 4:2:0 interleave their chroma (R238). -/
def componentOf (sampling c : Nat) (pic : Planes) : Grid :=
  if c = 0 then pic.getD 0 []
  else if chromaH sampling = 2 then (pic.getD 1 []).map fun row => (row.zipIdx.filter fun v => decide (v.2 % 2 + 1 = c)).map (·.1)
  else pic.getD c []

/-! ### Source pictures (R319, R322, R331) -/

/-- The parity of the frame rows of field `q` (R322). -/
def fieldParity (f q : Nat) : Nat := if q = 0 then firstRow f else 1 - firstRow f

/-- The rows of a frame of one parity. -/
def rowsOf (parity : Nat) (g : Grid) : Grid := (g.zipIdx.filter fun r => decide (r.2 % 2 = parity)).map (·.1)

/-- The components of a source frame; poisoned words are black of the source's sampling (R331). -/
def sourceFrame (conf : List Byte) (num : Nat) (d : Dev) (m : Mem) : List Grid :=
  match cvRing conf d with
  | none => []
  | some r =>
    let s := (stream r d).sampling
    let pic := groupPicture ((groupFrame (cvSrcKind conf) (cvSrc conf) num d).getD []) (blackOf s) d m
    (List.range 3).map fun c => componentOf s c pic

/-- The components of a field that the source does not hold READY are free values: the manual does not say what stands for it. -/
def absentField (conf : List Byte) (d : Dev) : List Grid :=
  match cvRing conf d with
  | none => []
  | some r =>
    let x := stream r d
    (List.range 3).map fun c =>
      (List.range (activeLines x.format / 2)).map fun y =>
        (List.range (activeWidth x.format / (if c = 0 then 1 else chromaH x.sampling))).map fun i =>
          Config.absentSample d.free c y i % 65536

/-- The components of a field, on its own rows. -/
def sourceField (conf : List Byte) (a : Option Picture) (d : Dev) (m : Mem) : List Grid :=
  match a with
  | some p => if pictureReady conf p d then (sourceFrame conf p.num d m).map (rowsOf (fieldParity (cvFormat conf d) p.field))
    else absentField conf d
  | none => absentField conf d

/-- The field before one (R284). -/
def fieldBefore (x : Stream) (p : Picture) : Option Picture :=
  if p.field = 1 then some ⟨p.num, 0⟩ else (framesBefore x p.num 1).map fun n => ⟨n, 1⟩

/-- The edge direction d of R322 between rows `a` and `a` + 1 of a field's luma. -/
def edgeDirection (lum : Grid) (a x : Int) : Int :=
  let diff (d : Int) : Nat := ((sampleAt lum a (x + d) : Int) - (sampleAt lum (a + 1) (x - d) : Int)).natAbs
  [-1, 1].foldl (fun best d => if diff d < diff best then d else best) 0

/-- The motion m of R322 between the luma of the fields before and after, in 10-bit code units. -/
def motionAt (before after : Grid) (k x : Int) : Nat :=
  [x - 1, x, x + 1].foldl (fun n c => max n (((sampleAt before k c : Int) - (sampleAt after k c : Int)).natAbs / 64)) 0

/-- The weight alpha of R322. -/
def motionAlpha (lo hi m : Nat) : Nat := min 64 ((((m : Int) - (lo : Int)) * 64) / ((hi : Int) - (lo : Int))).toNat

/-- A sample of a missing row: rows `a` and `a` + 1 of field n about it, row `k` of the fields before and after (R322). -/
def missingSample (before own after : Grid) (dir : Int) (alpha : Nat) (a k x : Int) : Nat :=
  let s := (sampleAt own a (x + dir) + sampleAt own (a + 1) (x - dir) + 1) / 2
  let t := (sampleAt before k x + sampleAt after k x + 1) / 2
  (s * alpha + t * (64 - alpha) + 32) / 64

/-- The progressive picture of field n of parity `par` (R322); chroma takes d and alpha of the co-sited luma sample. -/
def deinterlace (par lo hi h : Nat) (before own after : List Grid) : List Grid :=
  let l0 := before.getD 0 []
  let l1 := own.getD 0 []
  let l2 := after.getD 0 []
  (List.range 3).map fun c =>
    let g0 := before.getD c []
    let g1 := own.getD c []
    let g2 := after.getD c []
    let w := (g1.getD 0 []).length
    let step := if w < (l1.getD 0 []).length then 2 else 1
    (List.range h).map fun y =>
      if y % 2 = par then g1.getD (y / 2) []
      else
        let a : Int := ((y : Int) - 1 - (par : Int)) / 2
        let k : Int := ((y / 2 : Nat) : Int)
        (List.range w).map fun x =>
          let lx : Int := ((step * x : Nat) : Int)
          missingSample g0 g1 g2 (edgeDirection l1 a lx) (motionAlpha lo hi (motionAt l0 l2 k lx)) a k x

/-- The components of a source picture after the deinterlacer: a frame, a field on its own rows, or a frame built from a field. -/
def sourcePicture (conf : List Byte) (p : Picture) (d : Dev) (m : Mem) : List Grid :=
  let f := cvFormat conf d
  if interlaced f = false then sourceFrame conf p.num d m
  else if cvDeint conf = 0 then sourceField conf (some p) d m
  else match cvRing conf d with
    | none => []
    | some r =>
      let x := stream r d
      deinterlace (fieldParity f p.field) (u8 conf 10) (u8 conf 11) (activeLines f) (sourceField conf (fieldBefore x p) d m)
        (sourceField conf (some p) d m) (sourceField conf (some (pictureAfter x p)) d m)

/-- The temporal blend (R322). -/
def blendSample (w a b : Nat) : Nat := (a * (64 - w) + b * w + 32) / 64
def blendPictures (w : Nat) (a b : List Grid) : List Grid :=
  List.zipWith (fun p q => List.zipWith (fun r s => List.zipWith (blendSample w) r s) p q) a b

/-! ### Coefficient banks (R325, R326) -/

/-- π in units of 2^-60. -/
def pi60 : Int := 3622009729038561421

/-- The sine of an angle in units of 2^-60, by fifteen terms of its series. -/
def sinSeries (x : Int) : Int :=
  ((List.range 15).foldl (fun (st : Int × Int) i =>
    (st.1 + st.2, -(st.2 * x * x / 2 ^ 120) / ((((2 * i + 2) * (2 * i + 3) : Nat)) : Int))) (0, x)).1

/-- sin(πk ÷ 256) in units of 2^-60. -/
def sine256 (k : Int) : Int :=
  let r := k % 512
  let (s, r) := if r < 256 then ((1 : Int), r) else (-1, r - 256)
  s * sinSeries (pi60 * (if r ≤ 128 then r else 256 - r) / 256)

/-- 4,096 × h rounded, for offset m ÷ 64 of a fixed bank's kernel (R326): for banks 0 to 2 the two sincs multiply to
2^14 × sin(πm ÷ 2^(6+b)) × sin(πm ÷ 2^8) ÷ (πm)². -/
def kernelTap (bank : Nat) (m : Int) : Int :=
  if bank = 3 then max 0 (4096 - 64 * (m.natAbs : Int))
  else if m = 0 then 4096 / 2 ^ bank
  else
    let n := 2 ^ 26 * sine256 (4 * m / 2 ^ bank) * sine256 m
    let q := pi60 * pi60 * (m * m)
    (2 * n + q) / (2 * q)

/-- The taps of a phase of a fixed bank: the residue of their sum goes to the tap of largest magnitude (R326). -/
def fixedTaps (bank phase : Nat) : List Int :=
  let taps := (List.range 8).map fun t => kernelTap bank (64 * ((t : Int) - 3) - (phase : Int))
  let big := (List.range 8).foldl (fun b t => if (taps.getD b 0).natAbs < (taps.getD t 0).natAbs then t else b) 0
  taps.set big (taps.getD big 0 + (4096 - taps.foldl (· + ·) 0))

/-- The taps of a phase of set 0 to 3 of a bank (R325). -/
def bankTaps (bank set phase : Nat) (d : Dev) : List Int :=
  if bank ≤ 3 then fixedTaps bank phase
  else (List.range 8).map fun t => i16 (tget d.cnv.banks bank) (1024 * set + 16 * phase + 2 * t)

/-- The bank of a field, 0xFF choosing by the ratio `out` ÷ `inp` (R326). -/
def bankOf (field out inp : Nat) : Nat :=
  if field ≠ 0xFF then field else if inp ≤ out then 0 else if inp ≤ 2 * out then 1 else 2

/-! ### The scaler (R323, R324) -/

/-- The input position of output coordinate `u`, with a 32-bit fraction. -/
def inputPos (inp out u : Nat) : Rat :=
  (((((2 * u + 1) * inp * 2 ^ 32 / (2 * out) : Nat) : Int) - 2 ^ 31 : Int) : Rat) / ((2 ^ 32 : Nat) : Rat)

/-- The integer part and the phase of a position, to the nearest 1/64. -/
def phaseOf (x : Rat) : Int × Nat :=
  let n := (64 * x + 1 / 2).floor
  (n / 64, (n % 64).toNat)

/-- One filtered sample. -/
def filterTaps (taps : List Int) (s : List Nat) : Nat :=
  min 65535 (((List.zipWith (fun t (v : Nat) => t * (v : Int)) taps s).foldl (· + ·) 0 + 2048) / 4096).toNat

/-- Vertical filtering, to the rows at the given positions. -/
def scaleRows (taps : Nat → List Int) (pos : List Rat) (g : Grid) : Grid :=
  pos.map fun x =>
    let (i, ph) := phaseOf x
    (List.range (g.getD 0 []).length).map fun c =>
      filterTaps (taps ph) ((List.range 8).map fun t => sampleAt g (i - 3 + (t : Int)) c)

/-- Horizontal filtering, to the columns at the given positions. -/
def scaleColumns (taps : Nat → List Int) (pos : List Rat) (g : Grid) : Grid :=
  g.map fun row => pos.map fun x =>
    let (i, ph) := phaseOf x
    filterTaps (taps ph) ((List.range 8).map fun t => row.getD (clampIdx row.length (i - 3 + (t : Int))) 0)

/-- The frame rows of an output picture (R322). -/
def outRows (f q : Nat) : List Nat :=
  if byField f then (List.range (activeLines f / 2)).map fun i => 2 * i + fieldParity f q else List.range (activeLines f)

/-- The components of a source picture on the window's columns and on the output picture's rows within it. A field's vertical
position is (x − parity) ÷ 2; chroma sites follow R324. -/
def scalePicture (conf : List Byte) (a : Picture) (pic : List Grid) (rows : List Nat) (w h : Nat) (top : Nat) (d : Dev) : List Grid :=
  let f := cvFormat conf d
  let ss := match cvRing conf d with
    | some r => (stream r d).sampling
    | none => 0
  let field := interlaced f && decide (cvDeint conf = 0)
  let outField := byField (tgFormat (cvTg conf) d)
  let vb := bankOf (cvVbank conf) (if outField then h / 2 else h) (if field then activeLines f / 2 else activeLines f)
  let hb := bankOf (cvHbank conf) w (activeWidth f)
  pic.zipIdx.map fun g =>
    let c := g.2
    let set := if c = 0 then 0 else 2
    let ys := rows.map fun y =>
      let x := inputPos (activeLines f) h (y - top)
      if field then (x - (fieldParity f a.field : Rat)) / 2
      else if c ≠ 0 ∧ chromaV ss = 2 then (x - 1 / 2) / 2 else x
    let xs := (List.range w).map fun u =>
      let x := inputPos (activeWidth f) w u
      if c ≠ 0 ∧ chromaH ss = 2 then x / 2 else x
    scaleColumns (fun ph => bankTaps hb set ph d) xs (scaleRows (fun ph => bankTaps vb (set + 1) ph d) ys g.1)

/-! ### Colour (R327 to R329). A working-format value is an Int in units of 2^-18. -/

/-- Saturated to the working format. -/
def saturate (v : Int) : Int := max (-8388608) (min 8388607 v)

def wAdd (a b : Int) : Int := saturate (a + b)
def wMul (k : Rat) (v : Int) : Int := saturate (roundAway (k * (v : Rat)))

/-- A native component normalised (decode, step 1). -/
def normalise (full chroma : Bool) (n : Nat) : Int :=
  let q : Rat := if full then (n : Rat) / 65535
    else if chroma then ((n : Rat) - 32768) / 57344 else ((n : Rat) - 4096) / 56064
  saturate (roundAway (q * 262144))

/-- Kr and Kb of DECODE and ENCODE codes 1 and 2. -/
def lumaCoefs (code : Nat) : Rat × Rat := if code = 2 then (2627 / 10000, 593 / 10000) else (2126 / 10000, 722 / 10000)

/-- (R′, G′, B′) from components 0 to 2 (step 1); a raster's RGB order is G, B, R. -/
def decodeRgb (code : Nat) (a b c : Int) : Int × Int × Int :=
  if code = 0 then (c, a, b)
  else
    let k := lumaCoefs code
    let r := wAdd a (wMul (2 * (1 - k.1)) c)
    let bl := wAdd a (wMul (2 * (1 - k.2)) b)
    (r, wMul (1 / (1 - k.1 - k.2)) (wAdd (wAdd a (-(wMul k.1 r))) (-(wMul k.2 bl))), bl)

/-- The greatest `r` of at most `n` bits with r^k ≤ v. -/
def rootOf (k : Nat) : Nat → Nat → Nat → Nat
  | 0, r, _ => r
  | n + 1, r, v => rootOf k n (if (r + 2 ^ n) ^ k ≤ v then r + 2 ^ n else r) v

/-- 2^18 × (v ÷ 2^18)^(p ÷ k) to the nearest, for v ≥ 0. -/
def powFixed (p k v : Nat) : Int := (((rootOf k 30 0 (v ^ p * 2 ^ (19 * k) / 2 ^ (18 * p)) + 1) / 2 : Nat) : Int)

/-- The input of LUT B at entry `i` (step 4). -/
def lutBInput (i : Nat) : Nat := if i < 128 then 16 * i else 2 ^ (i / 128 + 10) + i % 128 * 2 ^ (i / 128 + 3)

/-- Entry `i` of LUT A of a set (R329): sets 0 and 1 by their formulas; the curves of sets 2 to 4 are named by standards whose
formulas the manual does not give. -/
def lutA (set i : Nat) (d : Dev) : Int :=
  let v : Int := 128 * (i : Int) - 65536
  match set with
  | 0 => v
  | 1 => if v ≤ 0 then 0 else saturate (powFixed 12 5 v.toNat)
  | 2 | 3 | 4 => saturate (Config.curve set 0 i)
  | _ => signed 24 (u32 (tget d.cnv.luts set) (4 * i) % 2 ^ 24)

/-- Entry `i` of LUT B of a set; a fixed one is the inverse of its LUT A. -/
def lutB (set i : Nat) (d : Dev) : Int :=
  match set with
  | 0 => saturate (lutBInput i)
  | 1 => saturate (powFixed 5 12 (lutBInput i))
  | 2 | 3 | 4 => saturate (Config.curve set 1 i)
  | _ => signed 24 (u32 (tget d.cnv.luts set) (4 * (4097 + i)) % 2 ^ 24)

/-- A table's value at entry `i` and a fraction. -/
def interpolate (t : Nat → Int) (i : Nat) (frac : Rat) : Int := wAdd (t i) (wMul frac (wAdd (t (i + 1)) (-(t i))))

/-- LUT A (step 2). -/
def applyLutA (set : Nat) (v : Int) (d : Dev) : Int :=
  let u : Int := max 0 (min (4096 * 128) (v + 65536))
  let i := min (u / 128).toNat 4095
  interpolate (fun k => lutA set k d) i ((u : Rat) / 128 - (i : Rat))

/-- LUT B (step 4). -/
def applyLutB (set : Nat) (v : Int) (d : Dev) : Int :=
  let n := (max 0 (min 8388607 v)).toNat
  let t (k : Nat) : Int := lutB set k d
  if n < 2048 then interpolate t (n / 16) (((n % 16 : Nat) : Rat) / 16)
  else
    let e := Nat.log2 n
    let s := 2 ^ (e - 7)
    interpolate t (128 * (e - 10) + (n - 2 ^ e) / s) ((((n - 2 ^ e) % s : Nat) : Rat) / (s : Rat))

/-- Row `r` of the matrix with its offset (step 3). -/
def matrixRow (conf : List Byte) (r : Nat) (v : List Int) : Int :=
  wAdd ((List.range 3).foldl (fun a c => wAdd a (wMul ((i32 conf (24 + 4 * (3 * r + c)) : Rat) / 65536) (v.getD c 0))) 0)
    (i32 conf (60 + 4 * r))

/-- A code rounded half up to `b` bits, clamped to what a word may hold (step 5). -/
def codeClamp (b : Nat) (native : Rat) : Nat :=
  let c := (native / ((2 ^ (16 - b) : Nat) : Rat) + 1 / 2).floor
  let lo : Int := if b = 10 then 4 else if b = 12 then 16 else 0
  let hi : Int := if b = 10 then 1019 else if b = 12 then 4079 else 65535
  (max lo (min hi c)).toNat

/-- The code of a working value (encode, step 5). -/
def encodeCode (full chroma : Bool) (b : Nat) (v : Int) : Nat :=
  let q : Rat := (v : Rat) / 262144
  codeClamp b (if full then q * 65535 else if chroma then q * 57344 + 32768 else q * 56064 + 4096)

/-- Components 0 to 2 from (R′, G′, B′) (step 5, the inverse of step 1). -/
def encodeRgb (code : Nat) (r g b : Int) : Int × Int × Int :=
  if code = 0 then (g, b, r)
  else
    let k := lumaCoefs code
    let y := wAdd (wAdd (wMul k.1 r) (wMul (1 - k.1 - k.2) g)) (wMul k.2 b)
    (y, wMul (1 / (2 * (1 - k.2))) (wAdd b (-y)), wMul (1 / (2 * (1 - k.1))) (wAdd r (-y)))

/-- One 4:4:4 sample: five steps with COLOUR, the change of depth alone without (R327, R328). The result is codes of the output
sampling `so`. -/
def colourSample (conf : List Byte) (ss so : Nat) (d : Dev) (p : Nat × Nat × Nat) : Nat × Nat × Nat :=
  let b := codeBits so
  if cvColour conf = false then (codeClamp b (p.1 : Rat), codeClamp b (p.2.1 : Rat), codeClamp b (p.2.2 : Rat))
  else
    let fin := bitOf (u8 conf 18) 2
    let fout := bitOf (u8 conf 18) 3
    let (r, g, bl) := decodeRgb (u8 conf 19) (normalise fin false p.1) (normalise fin (!isRgb ss) p.2.1) (normalise fin (!isRgb ss) p.2.2)
    let l := [r, g, bl].map fun v => applyLutA (u8 conf 21) v d
    let o := (List.range 3).map fun i => applyLutB (u8 conf 22) (matrixRow conf i l) d
    let (e0, e1, e2) := encodeRgb (u8 conf 20) (o.getD 0 0) (o.getD 1 0) (o.getD 2 0)
    (encodeCode fout false b e0, encodeCode fout (!isRgb so) b e1, encodeCode fout (!isRgb so) b e2)

/-! ### The output picture (R320, R323, R330) -/

/-- The filter (1, 2, 1) ÷ 4 at the even columns of a row, rounded half up. -/
def subsampleRow (row : List Nat) : List Nat :=
  let s (i : Int) : Nat := row.getD (clampIdx row.length i) 0
  (List.range (row.length / 2)).map fun i => (s (2 * (i : Int) - 1) + 2 * s (2 * (i : Int)) + s (2 * (i : Int) + 1) + 2) / 4

/-- Pairs of rows averaged, rounded half up. -/
def averageRows : Grid → Grid
  | a :: b :: t => List.zipWith (fun x y => (x + y + 1) / 2) a b :: averageRows t
  | _ => []

/-- Two rows sample by sample in turn. -/
def interleaveRow : List Nat → List Nat → List Nat
  | a :: t, b :: u => a :: b :: interleaveRow t u
  | _, _ => []

/-- The planes of a 4:4:4 picture of codes in sampling `so` (R238, R330), as native components. -/
def planesOf (so : Nat) (y cb cr : Grid) : Planes :=
  let native (g : Grid) : Grid := g.map fun row => row.map (toNative (codeBits so))
  if chromaH so = 2 then
    let thin (g : Grid) : Grid := if chromaV so = 2 then averageRows (g.map subsampleRow) else g.map subsampleRow
    [native y, native (List.zipWith interleaveRow (thin cb) (thin cr))]
  else [native y, native cb, native cr]

/-- The output picture of a selection: the window's samples amid the background, which alone stands where no source picture
does. The background is a native word of the output sampling. -/
def outputPicture (conf : List Byte) (q : Nat) (s : Selection) (d : Dev) (m : Mem) : Planes :=
  let f := tgFormat (cvTg conf) d
  let so := cvSampling conf
  let ss := match cvRing conf d with
    | some r => (stream r d).sampling
    | none => so
  let bg := BitVec.ofNat 48 (un 6 conf 80)
  let back := toCode (codeBits so)
  let bgCode := (back (nativeComp bg 0), back (nativeComp bg 1), back (nativeComp bg 2))
  let rows := outRows f q
  let (x, y, w, h) := cvWindow conf d
  let inside := rows.filter fun r => decide (y ≤ r ∧ r < y + h)
  let pixels := match s.a with
    | none => inside.map fun _ => List.replicate w bgCode
    | some a =>
      let pa := sourcePicture conf a d m
      let pic := match s.b with
        | some b => if s.w = 0 then pa else blendPictures s.w pa (sourcePicture conf b d m)
        | none => pa
      let g := scalePicture conf a pic inside w h y d
      List.zipWith (fun r t => List.zipWith (fun c t => colourSample conf ss so d (c, t)) r t) (g.getD 0 [])
        (List.zipWith (fun r t => List.zipWith (fun u v => (u, v)) r t) (g.getD 1 []) (g.getD 2 []))
  let full := rows.map fun r =>
    if inside.contains r then
      List.replicate x bgCode ++ pixels.getD (inside.idxOf r) [] ++ List.replicate (activeWidth f - x - w) bgCode
    else List.replicate (activeWidth f) bgCode
  planesOf so (full.map fun r => r.map (·.1)) (full.map fun r => r.map (·.2.1)) (full.map fun r => r.map (·.2.2))

/-- The picture that an engine writes: the selection's, or its previous one again where R320 finds no picture, the background
before its first. -/
def enginePicture (e q : Nat) (d : Dev) (m : Mem) : Planes :=
  let x := engine e d
  if x.cur.a.isNone ∧ x.lastOut ≠ [] then x.lastOut else outputPicture x.conf q x.cur d m

/-- The picture written into the slot of the output frame in progress (R315), at its own frame rows. -/
def putPicture (e j q : Nat) (pic : Planes) (d : Dev) (m : Mem) : Mem :=
  match (engine e d).frames.find? fun f => decide (f.1 = j) with
  | none => m
  | some (_, r, num) =>
    let x := stream r d
    match slotOf x num with
    | none => m
    | some s =>
      let rows := outRows x.format q
      pic.zipIdx.foldl (fun m p => p.1.zipIdx.foldl (fun m row =>
        writeRow r x s p.2 (if byField x.format then rows.getD row.2 0 else row.2) row.1 m) m) m

/-- What an engine that has begun picture (j, q) computes and writes. -/
def composePicture (e j q : Nat) (s : State) : State :=
  let pic := enginePicture e q s.dev s.hbm
  { s with hbm := putPicture e j q pic s.dev s.hbm,
           dev := useFree (updEngine e (fun x => { x with lastOut := pic, draw := s.dev.free, bad := [] }) s.dev) }

/-- An engine whose source words have been found poisoned since it composed its last picture composes it with black in their
place (R331). -/
def recompose (e : Nat) (s : State) : State :=
  let x := engine e s.dev
  match x.lastJ with
  | none => s
  | some j =>
    if x.bad = [] ∨ x.cur.a.isNone then s
    else
      let seen := x.bad.foldl (fun d key => setErrs key poisonSig d) { s.dev with free := x.draw }
      let pic := outputPicture x.conf x.lastQ x.cur seen s.hbm
      { s with hbm := putPicture e j x.lastQ pic s.dev s.hbm, dev := updEngine e (fun x => { x with lastOut := pic }) s.dev }

/-- Every engine. -/
def recomposeAll (s : State) : State := (conversions s.dev).foldl (fun s e => recompose e s) s

end Sys2Proof.Machine
end

