-- ==== Sys2Proof/Machine/Aud.lean ====
section
/-! DEFINITION. Chapter 10: the audio core and its ports; the commands of family 0x09 and the events of this chapter. -/

namespace Sys2Proof.Machine

/-! ### Producers that write at sample instants (R367, R372, R468) -/

/-- The lowest source channel of a producer, which stands for it in the ledger. -/
def firstChannel (kind id : Nat) (d : Dev) : Option Nat := (tfind d.aud.srcs fun x => decide (x.kind = kind ∧ producerId x = id)).head?

/-- How far a lead's INDEX, modulo 2^48, lies from a sample's own. -/
def indexShift (i idx : Nat) : Int := signed 48 (twos 48 ((i : Int) - idx))

/-- A producer writes a sample at a media index (R362, R367). In SHADOW a Z sample takes the lead's INDEX when that lies
within 96 samples of its own, and the samples after it follow on; in LEAD a Z sends an alignment entry (R467, R468).
Answers whether the write deadline had passed. -/
def writeAt (ch idx : Nat) (s : Sample) (d : Dev) : Dev × Bool :=
  let x := audSrc ch d
  let shift : Int :=
    if s.z then (match x.align with
      | some i =>
        let v := indexShift i idx
        if roleMode d = SHADOW ∧ -96 ≤ v ∧ v ≤ 96 then v else 0
      | none => 0)
    else x.shift
  let first := decide (x.kind ≠ 2 ∧ firstChannel x.kind (producerId x) d = some ch)
  let d := if s.z ∧ ledgerLead d = true ∧ first = true then sendLedger [.alignment x.kind (producerId x) (idx % 2 ^ 48)] d else d
  let d := if s.z ∧ first = true ∧ roleMode d = SHADOW ∧ (match x.align with
      | some i => decide (-96 ≤ indexShift i idx ∧ indexShift i idx ≤ 96)
      | none => false) = true then twnBump tLEDGER_RECV 1 d else d
  let d := updSrc ch (fun x => { x with shift := shift, align := if s.z then none else x.align }) d
  let i := (idx : Int) + shift
  if i < ((d.aud.block * spb d : Nat) : Int) then (d, true) else (putSample ch i.toNat { s with fill := false } d, false)

/-- The channels of an input port that are mapped, by FIFO number: source channel. -/
def portChannels (kind p : Nat) (d : Dev) : List (Nat × Nat) :=
  let x := audPort kind p d
  if x.base = 0xFFFF then [] else (List.range (inChannels kind x)).map fun i => (i, x.base + i)

/-- A received sample enters a port's FIFO or converter (R367, R385). A sample that replaces one with a parity error
bears FILL while it waits and counts only as that. -/
def portArrive (kind p i : Nat) (s : Sample) (d : Dev) : Dev :=
  let x := audPort kind p d
  if x.base = 0xFFFF ∨ (x.state ≠ 2 ∧ x.state ≠ 3) then d
  else
    let d := apBump kind p pARRIVED 1 d
    if x.state = 3 then (if s.fill then d else apBump kind p pACCEPTED 1 d)
    else
      let (f, lost) := fifoPush (tget x.fifo i) s
      let d := updPort' kind p (fun x => { x with fifo := tset x.fifo i f }) d
      if lost ∧ !s.fill then apBump kind p pDROPPED 1 d else d

/-- A channel-status block with its CRCC in byte 23 (R364). -/
def blockOk (bits : List Bool) : Bool :=
  let byte (i : Nat) : Byte := BitVec.ofNat 8 ((List.range 8).foldl (fun n k => n + b2n (bits.getD (8 * i + k) false) * 2 ^ k) 0)
  decide ((byte 23).toNat = crcc ((List.range 23).map byte))

/-- A subframe's bits have even parity (R364). -/
def subframeParity (s : Subframe) : Bool := decide (((List.range 28).map fun i => b2n (s.bits.getLsbD i)).sum % 2 = 0)

/-- AES3_SUBFRAME (R364): parity, channel status with its CRCC, and the sample. -/
def aesSubframe (p : Nat) (s : Subframe) (d : Dev) : Dev :=
  let i := b2n (decide (s.preamble = 1))
  let z := decide (s.preamble = 2)
  let c := s.bits.getLsbD 26
  let x := audPort 1 p d
  -- Both channels' blocks begin with the frame whose first subframe has the Z preamble.
  let start := z || (decide (s.preamble = 1) && decide ((tget x.csBits 0).length = 1))
  let bits := csNext (tget x.csBits i) c start
  let done := decide (bits.length = 192)
  let d := updPort' 1 p (fun x => { x with heard := d.up, csBits := tset x.csBits i (if done then [] else bits) }) d
  let d := if !done then d
    else if !blockOk bits then apBump 1 p pCS_CRC 1 d
    else if x.base = 0xFFFF then d
    else setSourceCs (x.base + i) bits d
  let new : Sample := { v24 := s.bits.setWidth 24, v := s.bits.getLsbD 24, u := s.bits.getLsbD 25, c := c, z := start }
  if subframeParity s then portArrive 1 p i new (updPort' 1 p (fun x => { x with good := tset x.good i new }) d)
  else
    let d := if x.base ≠ 0xFFFF ∧ (x.state = 2 ∨ x.state = 3) then apBump 1 p pPARITY 1 d else d
    portArrive 1 p i { tget x.good i with c := c, z := start, fill := true } d

def execAes3Subframe (p : Nat) (s : Subframe) (st : State) : Out :=
  onDevIf (fun d => decide (p < 32 ∧ (audPort 1 p d).state ≠ 0) && blocksRun d) (aesSubframe p s) st

/-- The 24-bit sample of a TDM slot, in its bits [31:8] (R371). -/
def slotSample (w : Word) : BitVec 24 := (w >>> 8).setWidth 24

/-- A TDM frame's slots are written, or enter the FIFO or converter (R371, R372, R550); DOUT sends one sample of each
channel. -/
def tdmFrame (p : Nat) (slots : List Word) (d : Dev) : Dev :=
  let x := audPort 3 p d
  let idx := mediaIndex d.house d
  let d := if x.state = 0 then d
    else (portChannels 3 p d).foldl (fun d c =>
      let s : Sample := { v24 := slotSample (slots.getD c.1 0) }
      if x.role = 0 then
        let r := writeAt c.2 (idx + 2) s (apBump 3 p pARRIVED 1 d)
        apBump 3 p (if r.2 then pDROPPED else pACCEPTED) 1 r.1
      else portArrive 3 p c.1 s d) (updPort' 3 p (fun x => { x with heard := d.up, instant := if x.role = 0 then some idx else x.instant }) d)
  let y := audPort 4 p d
  if y.state ≠ 1 then d
  else
    let n := (y.fifo.filter fun e => decide (e.2 ≠ [])).length
    apBump 4 p pSENT n (updPort' 4 p (fun y => { y with fifo := tmap y.fifo fun _ f => f.drop 1 }) d)

/-- TDM_FRAME: a master's FS rises once at each house sample instant, and is held low while both its directions are off (R372,
R384). -/
def execTdmFrame (p : Nat) (slots : List Word) (s : State) : Out :=
  onDevIf (fun d =>
      let x := audPort 3 p d
      decide (p < 8) && x.set && blocksRun d && (decide (x.role = 1)
          || decide ((x.state ≠ 0 ∨ (audPort 4 p d).state ≠ 0) ∧ x.instant ≠ some (mediaIndex d.house d))))
    (tdmFrame p slots) s

/-! ### Qualification and loss (R365, R366, R369) -/

/-- A sample rate code in Hz (R387). -/
def rateOfCode (r : Nat) : Nat :=
  match r with
  | 0 => 32000 | 1 => 44100 | 2 => 48000 | 3 => 88200 | _ => 96000

/-- An input that qualifies: an AES3 input, or a TDM port in slave role. -/
def qualifies (kind p : Nat) (d : Dev) : Bool :=
  decide ((kind = 1 ∧ p < 32) ∨ (kind = 3 ∧ p < 8 ∧ (audPort 3 p d).role = 1)) && decide ((audPort kind p d).state ≠ 0) && blocksRun d

/-- INPUT_RATE_GATE (R366): the offset is measured, in 0.1 ppm; a lost input begins to qualify again. -/
def rateGate (kind p : Nat) (tenthPpm : Int) (d : Dev) : Dev :=
  updPort' kind p (fun x =>
    let ok := decide (-10000 ≤ tenthPpm ∧ tenthPpm ≤ 10000)
    { x with
      freq := clampI tenthPpm (-32768) 32767, since := if ok then startTimer x.since d.up else none,
      state := if ok ∧ x.state = 4 then 1 else x.state }) d

def execInputRateGate (kind p : Nat) (tenthPpm : Int) (s : State) : Out :=
  onDevIf (qualifies kind p) (rateGate kind p tenthPpm) s

/-- Converter channels that a port needs in ASRC: its input's, and a TDM slave's output's (R368, R372). -/
def converterNeed (kind p : Nat) (d : Dev) : Nat :=
  let x := audPort kind p d
  (if x.base = 0xFFFF then 0 else inChannels kind x)
    + (if kind = 3 ∧ (audPort 4 p d).base ≠ 0xFFFF then (audPort 4 p d).channels else 0)

/-- The mode that a qualifying input takes (R365): 2 SYNC, 3 ASRC, or 1 while AUTO finds too few converter channels. -/
def modeTaken (kind p : Nat) (d : Dev) : Nat :=
  let x := audPort kind p d
  if x.mode = 0 then 2
  else if x.mode = 1 then 3
  else if rateOfCode x.rate = fsHz d ∧ x.freq.natAbs ≤ 10 * x.lockPpm then 2
  else if converterNeed kind p d ≤ d.aud.asrcFree + x.asrc then 3
  else 1

/-- A port takes the converter channels that it needs. -/
def takeConverters (kind p : Nat) (d : Dev) : Dev :=
  let n := converterNeed kind p d
  let d := freeConverters kind p d
  updPort' kind p (fun x => { x with asrc := n }) { d with aud.asrcFree := d.aud.asrcFree - n }

/-- INPUT_QUALIFY (R366, R367, R370). -/
def inputQualify (kind p : Nat) (d : Dev) : Dev :=
  let m := modeTaken kind p d
  if m = 1 then d
  else
    let x := audPort kind p d
    let d := if m = 3 then takeConverters kind p d else d
    let d := updPort' kind p (fun x => { x with state := m, fifo := [], started := false, instant := none, lastOut := [] }) d
    postEvent 0x0A01 (kind * 256 + p) (le 1 m ++ le 1 x.rate ++ le 2 (twos 16 x.freq)) d

def execInputQualify (kind p : Nat) (s : State) : Out :=
  onDevIf (fun d => let x := audPort kind p d
      qualifies kind p d && decide (x.state = 1) && timerPast x.since ((x.holdoff : Rat) * ms) d.up)
    (inputQualify kind p) s

/-- No valid preamble or FS has come for 2 frame periods of the nominal rate (R369). -/
def preambleAbsent (x : AudPort) (now : Time) : Bool := decide (x.heard + 2000000000 / (rateOfCode x.rate : Rat) ≤ now)

/-- INPUT_LOST (R369): cause 1 no valid preamble or FS, 2 rate beyond 1,000 ppm, 3 line quiet. A source report goes with
it; AUTO chooses anew. -/
def inputLost (kind p cause : Nat) (d : Dev) : Dev :=
  let x := audPort kind p d
  if x.state = 1 then updPort' kind p (fun x => { x with since := none }) d
  else
    let d := flushFifo kind p d
    let d := if x.mode = 2 then freeConverters kind p d else d
    let d := apBump kind p pLOSS 1 (updPort' kind p (fun x => { x with state := 4, since := none, csBits := [] }) d)
    major (if kind = 1 then 0x3E0 else 0x3E1) p (postEvent 0x0A02 (kind * 256 + p) (le 1 cause) d)

def execInputLost (kind p cause : Nat) (s : State) : Out :=
  onDevIf (fun d => let x := audPort kind p d
      qualifies kind p d && decide (1 ≤ x.state ∧ x.state ≤ 3 ∧ 1 ≤ cause ∧ cause ≤ 3)
        && (decide (cause ≠ 1) || preambleAbsent x d.up) && (decide (cause ≠ 2) || decide (x.freq < -10000 ∨ 10000 < x.freq)))
    (inputLost kind p cause) s

/-! ### Synchronous FIFOs (R367, R550) -/

/-- One sample instant of a port's FIFO: nothing until every channel holds 4, then one sample of each channel, the last
one again where the FIFO is empty. -/
def portInstant (kind p idx : Nat) (d : Dev) : Dev :=
  let x := audPort kind p d
  let chs := portChannels kind p d
  let full := decide (chs ≠ []) && chs.all fun c => decide (4 ≤ (tget x.fifo c.1).length)
  let d := updPort' kind p (fun x => { x with instant := some idx, started := x.started || full }) d
  if !x.started && !full then d
  else
    let empty := chs.any fun c => decide (tget x.fifo c.1 = [])
    let d := if empty then apBump kind p pREPEATED 1 d else d
    chs.foldl (fun d c =>
      match tget x.fifo c.1 with
      | s :: rest =>
        let d := updPort' kind p (fun y => { y with fifo := tset y.fifo c.1 rest, lastOut := tset y.lastOut c.1 s }) d
        let r := writeAt c.2 idx s d
        if s.fill then r.1 else apBump kind p (if r.2 then pDROPPED else pACCEPTED) 1 r.1
      | [] => (writeAt c.2 idx { tget x.lastOut c.1 with z := false } d).1) d

/-- One sample instant of a receiver's de-embedded channels. -/
def receiverInstant (n idx : Nat) (d : Dev) : Dev :=
  ((tget d.sdiRx n).audio.map fun e => e.2 - 1).foldl (fun d ch =>
    let x := audSrc ch d
    if x.wantAsrc ∨ x.instant = some idx then d
    else
      let go := x.started || decide (4 ≤ x.fifo.length)
      let d := updSrc ch (fun x => { x with instant := some idx, started := go }) d
      if !go then d
      else match x.fifo with
        | s :: rest => (writeAt ch idx s (updSrc ch (fun x => { x with fifo := rest, last := some s }) d)).1
        | [] => match x.last with
          | some s => (writeAt ch idx { s with z := false } d).1
          | none => d) d

/-- SYNC_SAMPLE_INSTANT (R367, R550): kinds 1 and 3 are ports, kind 0 the de-embedded channels of a receiver in LOCKED. -/
def execSyncSampleInstant (kind p : Nat) (s : State) : Out :=
  onDevIf (fun d => blocksRun d && (match kind with
      | 0 => decide (p < 256 ∧ (rx p d).state = 3)
      | 1 => decide (p < 32 ∧ (audPort 1 p d).state = 2 ∧ (audPort 1 p d).instant ≠ some (mediaIndex d.house d))
      | 3 => decide (p < 8 ∧ (audPort 3 p d).state = 2 ∧ (audPort 3 p d).role = 1
          ∧ (audPort 3 p d).instant ≠ some (mediaIndex d.house d))
      | _ => false))
    (fun d => if kind = 0 then receiverInstant p (mediaIndex d.house d) d else portInstant kind p (mediaIndex d.house d) d) s

/-! ### Blocks (R356, R362, R368, R378) -/

/-- Source channels fed by a converter: de-embedded ones that hold one, and those of input ports in ASRC. -/
def convertedChannels (d : Dev) : List Nat :=
  (tfind d.aud.srcs fun x => x.asrc && decide (x.kind = 1) && (tget d.sdiRx (x.id / 2)).state = 3)
    ++ d.aud.ports.flatMap fun e =>
      if e.2.state = 3 ∧ (e.1 / 256 = 1 ∨ e.1 / 256 = 3) then (portChannels (e.1 / 256) (e.1 % 256) d).map (·.2) else []

/-- RATIO and PHASE of a channel's converter for block `n`: in SHADOW the lead's, where its entry has come, else the converter's own
estimate, of which the ratio is a free value and the phase goes on from block to block (R368, R467, R468). -/
def asrcRate (c n : Nat) (d : Dev) : Nat × Nat :=
  let x := audSrc c d
  match x.ratio with
  | some (k, r, p) => if roleMode d = SHADOW ∧ k = n % 2 ^ 48 then (r, p) else (freeNat d % 2 ^ 40, x.phase)
  | none => (freeNat d % 2 ^ 40, x.phase)

/-- The rate converters write the block's samples (R368); in LEAD one entry goes out for each channel (R467, R468). -/
def convertBlock (n : Nat) (d : Dev) : Dev :=
  (convertedChannels d).foldl (fun d c =>
    let (r, p) := asrcRate c n d
    let led := decide ((audSrc c d).ratio = some (n % 2 ^ 48, r, p))
    let d := (List.range (spb d)).foldl (fun d j =>
      let idx := n * spb d + j
      putSample c idx { v24 := Config.asrcSample c idx r ((p + j * r) % 2 ^ 40) } d) (useFree d)
    let d := updSrc c (fun x => { x with phase := (p + spb d * r) % 2 ^ 40 }) d
    if ledgerLead d then sendLedger [.rateConverter c (n % 2 ^ 48) r p] d
    else if roleMode d ≠ SHADOW then d
    else if led then twnBump tLEDGER_RECV 1 d
    else { d with twn.lastMiss := some d.up }) d

/-- A de-embedded channel marked asynchronous that holds no converter channel takes one, or is short for this block
(R368, R370). -/
def converterShortage (d : Dev) : Dev :=
  (tfind d.aud.srcs fun x => x.wantAsrc && !x.asrc).foldl (fun d c =>
    if 0 < d.aud.asrcFree then
      updSrc c (fun x => { x with asrc := true, short := false }) { d with aud.asrcFree := d.aud.asrcFree - 1 }
    else
      let x := audSrc c d
      let d := audBump 0x08 d
      if x.short then d
      else major 0x3D3 0 (postEvent 0x0A03 c (le 2 (producerId x)) (updSrc c (fun x => { x with short := true }) d))) d

/-- The channel-status block that waits for the next Z takes over where block `n` begins one (R374). -/
def outputCs (n : Nat) (x : AudPort) (spb : Nat) : AudPort :=
  if n * spb % 192 = 0 then (match x.csNext with
    | some (h, b) => { x with csHost := h, cs := b, csNext := none }
    | none => x) else x

/-- An output port takes a block of its destinations (R356, R372, R374): an AES3 output has sent the block before, and a
TDM output keeps what its frames have not yet carried, up to one block more. -/
def outputTake (kind p n : Nat) (d : Dev) : Dev :=
  let x := audPort kind p d
  if x.state ≠ 1 ∨ x.base = 0xFFFF ∨ outputsRun d = false then d
  else
    let chs := List.range (if kind = 2 then 2 else x.channels)
    let x := if kind = 2 then outputCs n x (spb d) else x
    let block := csBlock x.csHost x.cs d.aud.rate96
    -- R374, R379: Z by the media index, and C of the port's channel status but for a transparent destination.
    let sent (i : Nat) : List Sample :=
      let own := (audDst (x.base + i) d).en && (audDst (x.base + i) d).outTransp
      (destWords (x.base + i) d).zipIdx.map fun s =>
        let k := (n * spb d + s.2) % 192
        if kind = 2 then { s.1 with z := decide (k = 0), c := if own then s.1.c else csBit block k } else s.1
    let new := chs.foldl (fun (t : Tab (List Sample)) i => tset t i (sent i)) []
    let taken := chs.length * spb d
    if kind = 2 then
      apBump 2 p pTAKEN taken (apBump 2 p pSENT (outPresent x) (updPort' 2 p (fun x => { outputCs n x (spb d) with fifo := new }) d))
    else
      let keep (i : Nat) : List Sample := let f := tget x.fifo i; f.drop (f.length - spb d)
      let lost := chs.foldl (fun n i => n + ((tget x.fifo i).length - spb d)) 0
      let f := chs.foldl (fun (t : Tab (List Sample)) i => tset t i (keep i ++ tget new i)) []
      apBump 4 p pTAKEN taken (apBump 4 p pDISCARDED lost (updPort' 4 p (fun x => { x with fifo := f }) d))

/-- The cell changes that apply to block `n` or an earlier one, in order (R378, R380). -/
def applyChanges (n : Nat) (d : Dev) : Dev :=
  let now := d.aud.changes.filter fun c => decide (c.n ≤ n)
  now.foldl (fun d c => applyCell c.n c.cell c.word d) { d with aud.changes := d.aud.changes.filter fun c => decide (n < c.n) }

/-- RAMP_BLOCKS takes its new value from its block on (R380). -/
def newRampBlocks (n : Nat) (d : Dev) : Dev :=
  match d.aud.rampNext with
  | some (m, v) => if m ≤ n then { d with aud.rampBlocks := v, aud.rampNext := none } else d
  | none => d

/-- Ramps that have ended leave the matrix. -/
def endRamps (n : Nat) (d : Dev) : Dev :=
  let s := spb d
  { d with
    aud.dsts := tmap d.aud.dsts fun _ x => { x with
      ramps := x.ramps.filter fun e => match e.2 with
        | some r => decide (n * s < r.first * s + rampSamples r s)
        | none => false } }

/-- MATRIX_WORD_REWRITE (R382): Perby rewrites a cell word that was found uncorrectable from its own copy, and raises the matrix
fault source. -/
def matrixRewrite (w : Nat) (d : Dev) : Dev :=
  match d.aud.badCells.find? fun x => decide (x.1 = w) with
  | none => d
  | some x =>
    let d := sramRewrite 0x3D0 w { d with aud.badCells := d.aud.badCells.filter fun y => decide (y.1 ≠ w) }
    collect { src := 0x3D0, major := true, code := 0, inst := 0, further := 0, injected := x.2.1, coincident := x.2.2, detailLost := false }
      (postEvent 0x0A04 (w / 8 % 65536) (le 4 w ++ le 1 (b2n d.aud.rate96)) d)

def execMatrixWordRewrite (w : Nat) (s : State) : Out :=
  onDevIf (fun d => blocksRun d && d.aud.badCells.any fun x => decide (x.1 = w)) (matrixRewrite w) s

/-- The checker of the mixing matrix reads the words of the enabled destinations (R26, R382): a word found uncorrectable
contributes zero in this block, and waits for Perby. -/
def checkCells (given : List WordErr) (d : Dev) : Dev :=
  let all := (tfind d.aud.dsts fun x => x.en).flatMap fun k => (List.range 8).map fun i => 8 * k + i
  let ws := (given.filter fun g => all.contains g.1)
    ++ ((all.take (injLeft 0x3D0 d)).filter fun w => !(given.any fun g => decide (g.1 = w))).map fun w => (w, [])
  ws.foldl (fun d g =>
    let e := sramErrs 0x3D0 g.1 d ++ g.2
    let inj := injSymbols 0x3D0 d
    let own := checkOutcome e
    if injectedOutcome e inj = .poisoned then
      let d := audBump 0x00 { d with aud.badCells := d.aud.badCells ++ [(g.1, decide (inj ≠ [] ∧ own = .clean), decide (inj ≠ [] ∧ own ≠ .clean))] }
      if inj = [] then d else spendInjection 0x3D0 d
    else (sramCheck 0x3D0 0 g.1 g.2 d).2) d

/-- The checker of the sample memory reads words (R26, R363): channel, block, and the word of the block with its errors. -/
def checkSamples (given : List (Nat × Nat × WordErr)) (d : Dev) : Dev :=
  let all := sampleWords d
  let ws := (given.filter fun g => all.contains (g.1, g.2.1, g.2.2.1))
    ++ ((all.take (injLeft 0x3D1 d)).filter fun w => !(given.any fun g => decide ((g.1, g.2.1, g.2.2.1) = w))).map fun w =>
      (w.1, w.2.1, w.2.2, [])
  ws.foldl (fun d g =>
    let key := g.1 * 2 ^ 40 + 4 * g.2.1 + g.2.2.1
    let own := checkOutcome (sramErrs 0x3D1 key d ++ g.2.2.2)
    let c := sramCheck 0x3D1 0 key g.2.2.2 d
    if c.1 then spoilWord (decide (own = .poisoned)) (g.1, g.2.1, g.2.2.1) c.2 else c.2) d

/-- At the boundary that begins the next block, the block is filled and mixed (R356). -/
def mixStage (cells : List WordErr) (samples : List (Nat × Nat × WordErr)) (d : Dev) : Dev :=
  let n := d.aud.block
  -- Perby has rewritten the words of the block before (R382).
  let d := d.aud.badCells.foldl (fun d x => matrixRewrite x.1 d) d
  let d := convertBlock n (converterShortage d)
  let s := spb d
  let fade := if d.aud.rate96 then 192 else 96
  let d := { d with aud.srcs := tmap d.aud.srcs fun _ x => fillBlock n s fade (ringBlocks x d) x }
  let d := applyChanges n d
  let d := newRampBlocks n d
  let d := checkSamples samples (checkCells cells d)
  let d := (tfind d.aud.dsts fun x => x.en).foldl (fun d k => mixDst k n d) d
  let off := offWords d
  let d := { d with
    aud.dsts := tmap d.aud.dsts fun _ x => if x.en then x else { x with out := x.now, now := off, outTransp := x.transp, transp := false },
    aud.srcs := tmap d.aud.srcs fun _ x => unspoil x }
  { d with aud.mixed := d.aud.mixed + s, aud.block := n + 1 }

/-- The audio send flows take block `n` of their destinations (R183, R356). An AM824 subframe of a destination that is not transparent
takes C from the flow's own channel status (R379), which the manual does not give. -/
def flowTake (n : Nat) (d : Dev) : Dev :=
  (tfind d.flows.tx fun x => x.en && (decide (x.type = 2) || decide (x.type = 3))).foldl (fun d k =>
    let x := txFlow k d
    let words := (List.range x.channels).map fun c =>
      let own := (audDst (x.source + c) d).en && (audDst (x.source + c) d).outTransp
      (destWords (x.source + c) d).zipIdx.map fun s => if own then s.1 else { s.1 with c := Config.flowStatus k ((n * spb d + s.2) % 192) }
    updTxFlow k (fun x => { x with taken := tset x.taken n words }) d) d

/-- Then the consumers take the block before it (R356). -/
def takeStage (d : Dev) : Dev :=
  endRamps d.aud.block (d.aud.ports.foldl (fun d e =>
    if e.1 / 256 = 2 ∨ e.1 / 256 = 4 then outputTake (e.1 / 256) (e.1 % 256) (d.aud.block - 2) d else d)
    (flowTake (d.aud.block - 2) (embedBlock (d.aud.block - 2) d)))

/-- A block boundary is at hand. -/
def blockDue (d : Dev) : Bool := blocksRun d && decide (d.aud.block < blockOf d.house)

/-! ### Stops (R384) -/

/-- Destinations are enabled or disabled; MIXED counts while they are enabled (R385). -/
def setDests (first count : Nat) (on : Bool) (d : Dev) : Dev :=
  (List.range count).foldl (fun d i => updDst (first + i) (fun x =>
    if x.en = on then x else { x with en := on, off := d.aud.mixed - x.off, dueOff := d.aud.due - x.dueOff }) d) d

/-! ### Registers (R386) -/

def audCfgWord (d : Dev) : Nat := fld (b2n d.aud.rate96) 31 1 + fld (match d.aud.rampNext with
  | some (_, v) => v
  | none => d.aud.rampBlocks) 0 13
def audStatusWord (d : Dev) : Nat := fld (rampsAt d.aud.block d) 15 17 + fld d.aud.asrcFree 6 9
def audPoolWord (d : Dev) : Nat := fld d.aud.free 13 19

def srcStatusWord (c : Nat) (d : Dev) : Nat :=
  let x := audSrc c d
  let viaPort := decide (x.kind = 3 ∧ (audPort 1 x.id d).state = 3) || decide (x.kind = 4 ∧ (audPort 3 x.id d).state = 3)
  fld x.kind 29 3 + fld (producerId x) 16 13 + fld x.pages 5 11 + fld (b2n (x.asrc || viaPort)) 4 1

def dstStatusWord (c : Nat) (d : Dev) : Nat :=
  let x := audDst c d
  let sp := match x.splice with
    | some s => s.begun
    | none => false
  fld (b2n x.en) 31 1 + fld (b2n x.transp) 30 1 + fld (b2n x.route.isSome) 29 1 + fld (b2n sp) 28 1

def inStatusWord (kind p : Nat) (d : Dev) : Nat :=
  let x := audPort kind p d
  let fill := if x.state = 2 then (tget x.fifo 0).length else 0
  fld x.state 29 3 + fld x.rate 26 3 + fld (twos 16 x.freq) 10 16 + fld fill 4 6

def outStatusWord (kind p : Nat) (d : Dev) : Nat :=
  let x := audPort kind p d
  fld (if (drainOf (.audioPort kind p) d).isSome then 2 else x.state) 30 2 + fld (b2n x.csHost) 29 1

/-- IN_RATE of the word clock: that of the candidate entry whose gates measure it; with no entry it is not known which comes in, a
free value. -/
def wclkRate (d : Dev) : Nat :=
  match candOf 5 0 d with
  | some n => b2n (decide (((cand n d).frameN : Rat) / ((cand n d).frameD : Rat) < 15625))
  | none => freeNat d % 2

/-- APRT_WCLK. -/
def wclkWord (d : Dev) : Nat :=
  fld (twos 16 d.aud.wclkFreq) 16 16 + fld (if d.aud.wclkIn then wclkRate d else 0) 15 1 + fld (b2n d.aud.wclkIn) 14 1
    + fld (audPort 5 0 d).state 13 1

/-- Counters of a destination: MIXED, SAT, RAMPS. -/
def dstCounters (c : Nat) (d : Dev) : List Byte := le 8 (mixedOf (audDst c d) d) ++ ctrBytes (audDst c d).ctrs aSAT 2

/-! ### Commands of family 0x09 (R387 to R389) -/

/-- The block at which an unstaged port or enable command takes effect (R388). -/
def audPoint (d : Dev) : Point := .block (nextBlock (d.house + 200 * us))

def cmdAudConfig : CmdSpec where
  opcode := 0x0901
  len := len 8
  fields _ := [rng 0 1 0 1, res 1 1, rng 2 2 1 8000, res 4 4]
  config := true
  check a d := refuseIf (decide (decide (u8 a.payload 0 = 1) ≠ d.aud.rate96) && decide (d.mode ≠ READY ∧ d.mode ≠ MAINTENANCE)) 0x0007
  -- A change of rate resets cells, channel maps, HOLDs and rings (R354).
  apply a d :=
    let p := a.payload
    let rate := decide (u8 p 0 = 1)
    let d := { d with aud.rampNext := some (nextBlock (d.house + 200 * us) - 1, u16 p 2) }
    if rate = d.aud.rate96 then d
    else
      let d := d.aud.ports.foldl (fun d e =>
        let k := e.1 / 256
        if k = 5 then d else updPort' k (e.1 % 256) (fun x => { x with base := 0xFFFF }) (stopAudioPort k (e.1 % 256) d)) d
      let d := { d with
        sdiRx := tmap d.sdiRx fun _ r => { r with audio := [] },
        sdiTx := tmap d.sdiTx fun _ t => { t with audio := [] },
        aud.rate96 := rate, aud.free := 262144, aud.asrcFree := 256, aud.changes := [],
        aud.srcs := tmap d.aud.srcs fun _ x => { ctrs := x.ctrs, blocks := x.blocks, cs := x.cs, csAt := x.csAt },
        aud.dsts := tmap d.aud.dsts fun _ x => { x with cells := [], ramps := [], splice := none, queued := none, now := [], out := [] } }
      (tfind d.flows.rx fun x => decide (x.type = 2 ∨ x.type = 3)).foldl (fun d n =>
        (flowChannels (rxFlow n d)).foldl (fun d c => if c < srcCount d then takeSource 2 n c d else d) d) d

/-- The follow delay that a raster's routes read a source channel at, at most (R298). -/
def followNeed (c : Nat) (d : Dev) : Int :=
  (rasters d).foldl (fun m e => (rasterRoutes (raster e d)).foldl (fun m t =>
    if ((routeAudio t.srcKind t.src d).take t.count).contains c then max m (largestFollow (raster e d) t d) else m) m) 0

def setHolds (first count hold : Nat) (d : Dev) : Dev :=
  (List.range count).foldl (fun d i => resizeRing (first + i) (updSrc (first + i) (fun x => { x with hold := hold }) d)) d

def cmdAudDepth : CmdSpec where
  opcode := 0x0902
  len := len 8
  fields _ := [rng 2 2 1 32768]
  stageable := true
  obj p := [u16 p 0, u16 p 2]
  removal p := some ⟨0x0902, p.take 4 ++ le 4 0⟩
  check a d :=
    let p := a.payload
    let chs := (List.range (u16 p 2)).map (u16 p 0 + ·)
    let d' := setHolds (u16 p 0) (u16 p 2) (u32 p 4) d
    firstOf [
      refuseIf (decide (srcCount d < u16 p 0 + u16 p 2)) 0x0010,
      refuseIf (decide (48000 < u32 p 4)) 0x0014,
      refuseIf (chs.any fun c => decide (1024 < (audSrc c d').pages)) 0x0014,
      refuseIf (!poolOk d') 0x0005,
      refuseIf (chs.any fun c => decide (u32 p 4 < (audSrc c d).hold) && decide ((u32 p 4 : Int) < followNeed c d)) 0x0006]
  commit _ _ t := .block (nextBlock t)
  apply a d := setHolds (u16 a.payload 0) (u16 a.payload 2) (u32 a.payload 4) d

/-- The records of an `AUD_CELLS` payload: destination, first cell and cells; none where they do not fill it exactly. -/
def cellRecords : Nat → List Byte → Option (List (Nat × Nat × List Nat))
  | 0, p => if p = [] then some [] else none
  | n + 1, p =>
    let count := u8 p 3
    if p.length < 4 + 4 * count then none
    else (cellRecords n (p.drop (4 + 4 * count))).map fun l =>
      (u16 p 0, u8 p 2, (List.range count).map fun i => u32 p (4 + 4 * i)) :: l

/-- The cells that an `AUD_CELLS` payload writes: cell number and word. -/
def cellWrites (p : List Byte) : List (Nat × Nat) :=
  ((cellRecords (u16 p 0) (p.drop 4)).getD []).flatMap fun r =>
    (List.range r.2.2.length).map fun i => (64 * r.1 + r.2.1 + i, r.2.2.getD i 0)

/-- Changes of cells at block `n`; a later one of the same cell and block replaces the earlier (R378). -/
def addChanges (n : Nat) (ws : List (Nat × Nat)) (l : List CellChange) : List CellChange :=
  ws.foldl (fun l w => (l.filter fun c => !decide (c.n = n ∧ c.cell = w.1)) ++ [⟨n, w.1, w.2⟩]) l

/-- The cells of scheduled banks' changes, by the block at which they apply (R381). -/
def scheduledCells (d : Dev) : List (Nat × List (Nat × Nat)) :=
  d.cfg.alm.flatMap fun e =>
    if (e.2.state = 1 ∨ e.2.state = 2) ∧ e.2.action = 1 then
      ((tget d.cfg.banks e.2.arg).changes.filter fun c => decide (c.opcode = 0x0903)).map fun c =>
        (nextBlock e.2.instant, cellWrites c.payload)
    else []

/-- Ramps at their most, in any block from now on, with more changes of cells at block `n` (R381). -/
def peakRamps (n : Nat) (ws : List (Nat × Nat)) (d : Dev) : Nat :=
  let waiting := d.cfg.waiting.filterMap fun w => match w.point with
    | .block m => if w.change.opcode = 0x0903 then some (m, cellWrites w.change.payload) else none
    | _ => none
  let all := (waiting ++ scheduledCells d ++ [(n, ws)]).foldl (fun l b => addChanges b.1 b.2 l) d.aud.changes
  let ns := (all.map (·.n)).eraseDups.mergeSort fun a b => decide (a ≤ b)
  (ns.foldl (fun (acc : Nat × Dev) m =>
    let d := applyChanges m acc.2
    (max acc.1 (rampsAt m d), d)) (rampsAt d.aud.block d, { d with aud.changes := all })).1

/-- A destination's cell 0 is managed by a route (R295). -/
def followed (dst : Nat) (d : Dev) : Bool := (audDst dst d).route.isSome

/-- The first block whose mixing begins at least 200 us after acceptance (R378). -/
def cellBlock (d : Dev) : Nat := nextBlock (d.house + 200 * us) - 1

def cmdAudCells : CmdSpec where
  opcode := 0x0903
  len p := decide (4 ≤ p.length ∧ p.length ≤ 4080) && (cellRecords (u16 p 0) (p.drop 4)).isSome
  fields p := [rng 0 2 1 255, res 2 2]
    ++ (if ((cellRecords (u16 p 0) (p.drop 4)).getD []).any (fun r => decide (r.2.2 = [])) then [fok 0 2 fun _ => false] else [])
  stageable := true
  obj p := (cellWrites p).map (·.1)
  removal p := some ⟨0x0903, p.take 8 ++ le (p.length - 8) 0⟩
  check a d :=
    let p := a.payload
    let rs := (cellRecords (u16 p 0) (p.drop 4)).getD []
    let ws := cellWrites p
    firstOf [
      refuseIf (rs.any fun r => decide (destCount d ≤ r.1 ∨ 64 < r.2.1 + r.2.2.length)) 0x0010,
      refuseIf (ws.any fun w => decide (srcCount d ≤ cellSrc w.2)) 0x0010,
      refuseIf (ws.any fun w => decide (w.1 % 64 = 0) && followed (w.1 / 64) d) 0x0006,
      refuseIf (decide (65536 < peakRamps (cellBlock d) ws d)) 0x0005]
  point _ d := .block (cellBlock d)
  commit _ _ t := .block (nextBlock t)
  apply a d := { d with aud.changes := addChanges d.aud.block (cellWrites a.payload) d.aud.changes }
  reply _ d _ := { payload := le 12 (t96 ((cellBlock d : Rat) * (125 * us))) }

def cmdAudCellsRead : CmdSpec where
  opcode := 0x0904
  len := len 4
  fields _ := [res 2 2]
  check a d := refuseIf (decide (destCount d ≤ u16 a.payload 0)) 0x0010
  reply a _ d :=
    let x := audDst (u16 a.payload 0) d
    { payload := (List.range 64).flatMap fun k => le 4 (tget x.cells k) }

/-- A range of destinations in force. -/
def destRange (first count : Nat) (d : Dev) : Option (Nat × Nat) := refuseIf (decide (count = 0 ∨ destCount d < first + count)) 0x0010

def cmdAudDestEnable : CmdSpec where
  opcode := 0x0905
  len := len 4
  stageable := true
  obj p := [u16 p 0, u16 p 2]
  check a d :=
    let p := a.payload
    firstOf [
      destRange (u16 p 0) (u16 p 2) d,
      refuseIf (d.drains.any fun x => match x.func with
        | .dests f n => decide (f < u16 p 0 + u16 p 2 ∧ u16 p 0 < f + n)
        | _ => false) 0x0002]
  point _ d := audPoint d
  commit _ _ t := .block (nextBlock t)
  apply a d := setDests (u16 a.payload 0) (u16 a.payload 2) true d

def cmdAudDestDisable : CmdSpec where
  opcode := 0x0906
  len := len 8
  fields _ := [disableWord]
  stageable := true
  obj p := [u16 p 4, u16 p 6]
  sheds _ := true
  check a d := destRange (u16 a.payload 4) (u16 a.payload 6) d
  -- R34: each destination is a function of its own, so that ranges that overlap share its drain.
  disables := some fun p _ => (List.range (u16 p 6)).map fun i => .dests (u16 p 4 + i) 1

/-- An input's producer kind in AUD_SRC_STATUS: 3 AES3, 4 TDM. -/
def inProducer (kind : Nat) : Nat := if kind = 1 then 3 else 4

/-- An input port's channels move to a new base; the old ones are given up. -/
def moveInput (kind p base count : Nat) (d : Dev) : Dev :=
  let d := (portChannels kind p d).foldl (fun d c =>
    if base ≤ c.2 ∧ c.2 < base + count ∧ base ≠ 0xFFFF then d else dropSource (inProducer kind) p c.2 d) d
  if base = 0xFFFF then d else (List.range count).foldl (fun d i => takeSource (inProducer kind) p (base + i) d) d

/-- A port's configuration changes; a change of mode, rate or role, and the first one, makes it qualify anew (R388). -/
def configureInput (kind p : Nat) (y : AudPort) (d : Dev) : Dev :=
  let x := audPort kind p d
  let again := decide (x.state = 0 ∨ x.mode ≠ y.mode ∨ x.rate ≠ y.rate ∨ x.role ≠ y.role ∨ x.channels ≠ y.channels ∨ x.base ≠ y.base)
  if again then
    let d := freeConverters kind p (flushFifo kind p d)
    updPort' kind p (fun x => { y with
      ctrs := x.ctrs, good := x.good, csBits := [], fifo := [], asrc := 0, started := false, since := none, instant := none }) d
  else
    updPort' kind p (fun x => { x with lockPpm := y.lockPpm, holdoff := y.holdoff, fmt := y.fmt }) d

/-- An AES3 input as configured. -/
def aesIn (p : List Byte) : AudPort :=
  { set := true, state := if u16 p 4 = 0xFFFF then 0 else 1, mode := u8 p 1, rate := u8 p 2, base := u16 p 4, lockPpm := u16 p 6,
    holdoff := u16 p 8 }

def setAesIn (p : List Byte) (d : Dev) : Dev :=
  let n := u8 p 0
  let d := configureInput 1 n (aesIn p) (moveInput 1 n (u16 p 4) 2 d)
  if u8 p 1 = 1 ∧ u16 p 4 ≠ 0xFFFF then takeConverters 1 n d else d

def cmdAprtAesIn : CmdSpec where
  opcode := 0x0907
  len := len 12
  fields _ := [res 3 1, fok 4 2 (fun v => decide (v % 2 = 0 ∨ v = 0xFFFF)), rng 6 2 1 100, rng 8 2 10 10000, res 10 2]
  stageable := true
  obj p := [u8 p 0]
  removal p := some ⟨0x0907, p.take 4 ++ [0xFF, 0xFF] ++ p.drop 6⟩
  sheds p := decide (u16 p 4 = 0xFFFF)
  check a d :=
    let p := a.payload
    let n := u8 p 0
    let base := u16 p 4
    firstOf [
      refuseIf (decide (31 < n) || decide (base ≠ 0xFFFF ∧ srcCount d < base + 2)) 0x0010,
      refuseIf (decide (2 < u8 p 1 ∨ 4 < u8 p 2) || decide (u8 p 1 = 0 ∧ rateOfCode (u8 p 2) ≠ fsHz d)) 0x0011,
      refuseIf (drainOf (.audioPort 1 n) d).isSome 0x0002,
      refuseIf (decide (u8 p 1 = 1 ∧ base ≠ 0xFFFF ∧ d.aud.asrcFree + (audPort 1 n d).asrc < 2)) 0x0012,
      refuseIf (decide (base ≠ 0xFFFF) && (srcHeldByOther 3 n base d || srcHeldByOther 3 n (base + 1) d)) 0x0013,
      refuseIf (!poolOk (moveInput 1 n base 2 d)) 0x0005]
  point _ d := audPoint d
  commit _ _ t := .block (nextBlock t)
  apply a d := setAesIn a.payload d

def cmdAprtAesOut : CmdSpec where
  opcode := 0x0908
  len := len 4
  fields _ := [res 1 1, fok 2 2 (fun v => decide (v % 2 = 0 ∨ v = 0xFFFF))]
  stageable := true
  obj p := [u8 p 0]
  removal p := some ⟨0x0908, p.take 2 ++ [0xFF, 0xFF]⟩
  sheds p := decide (u16 p 2 = 0xFFFF)
  check a d :=
    let p := a.payload
    firstOf [
      refuseIf (decide (31 < u8 p 0) || decide (u16 p 2 ≠ 0xFFFF ∧ destCount d < u16 p 2 + 2)) 0x0010,
      refuseIf (drainOf (.audioPort 2 (u8 p 0)) d).isSome 0x0002]
  point _ d := audPoint d
  commit _ _ t := .block (nextBlock t)
  apply a d :=
    let p := a.payload
    if u16 p 2 = 0xFFFF then updPort' 2 (u8 p 0) (fun x => { x with set := true, base := 0xFFFF }) (stopAudioPort 2 (u8 p 0) d)
    else updPort' 2 (u8 p 0) (fun x => { x with set := true, base := u16 p 2, state := 1 }) d

/-- A TDM port's directions as configured: a master is synchronous at once. -/
def tdmIn (p : List Byte) (d : Dev) : AudPort :=
  let off := decide (u16 p 6 = 0xFFFF ∧ (u8 p 1 = 0 ∨ u16 p 8 = 0xFFFF))
  { set := true, state := if off then 0 else if u8 p 1 = 0 then 2 else 1, mode := u8 p 2, rate := if d.aud.rate96 then 4 else 2,
    base := u16 p 6, holdoff := u16 p 10, role := u8 p 1, fmt := u8 p 3, channels := u8 p 4 }

def setTdm (p : List Byte) (d : Dev) : Dev :=
  let n := u8 p 0
  let d := configureInput 3 n (tdmIn p d) (moveInput 3 n (u16 p 6) (u8 p 4) d)
  let d := if u16 p 8 = 0xFFFF then
      updPort' 4 n (fun x => { x with set := true, base := 0xFFFF, role := u8 p 1, channels := u8 p 4 }) (stopAudioPort 4 n d)
    else
      let d := if (audPort 4 n d).channels ≠ u8 p 4 then stopAudioPort 4 n d else d
      updPort' 4 n (fun x => { x with set := true, base := u16 p 8, state := 1, role := u8 p 1, fmt := u8 p 3, channels := u8 p 4 }) d
  if u8 p 1 = 1 ∧ u8 p 2 = 1 then takeConverters 3 n d else d

def cmdAprtTdm : CmdSpec where
  opcode := 0x0909
  len := len 12
  fields _ := [rng 1 1 0 1, rng 3 1 0 3, res 5 1, rng 10 2 10 10000]
  stageable := true
  obj p := [u8 p 0]
  removal p := some ⟨0x0909, p.take 6 ++ [0xFF, 0xFF, 0xFF, 0xFF] ++ p.drop 10⟩
  sheds p := decide (u16 p 6 = 0xFFFF ∧ u16 p 8 = 0xFFFF)
  check a d :=
    let p := a.payload
    let n := u8 p 0
    let ch := u8 p 4
    let need := if u8 p 1 = 1 ∧ u8 p 2 = 1 then
      (if u16 p 6 = 0xFFFF then 0 else ch) + (if u16 p 8 = 0xFFFF then 0 else ch) else 0
    firstOf [
      refuseIf (decide (7 < n) || decide (u16 p 6 ≠ 0xFFFF ∧ srcCount d < u16 p 6 + ch)
        || decide (u16 p 8 ≠ 0xFFFF ∧ destCount d < u16 p 8 + ch)) 0x0010,
      refuseIf (decide (2 < u8 p 2) || decide (ch = 0 ∨ (if d.aud.rate96 then 8 else 16) < ch)) 0x0011,
      refuseIf ((drainOf (.audioPort 3 n) d).isSome || (drainOf (.audioPort 4 n) d).isSome) 0x0002,
      refuseIf (decide (d.aud.asrcFree + (audPort 3 n d).asrc < need)) 0x0012,
      refuseIf (decide (u16 p 6 ≠ 0xFFFF) && (List.range ch).any fun i => srcHeldByOther 4 n (u16 p 6 + i) d) 0x0013,
      refuseIf (!poolOk (moveInput 3 n (u16 p 6) ch d)) 0x0005]
  point _ d := audPoint d
  commit _ _ t := .block (nextBlock t)
  apply a d := setTdm a.payload d

def cmdAprtWclk : CmdSpec where
  opcode := 0x090A
  len := len 4
  fields _ := [rng 0 1 0 1, res 1 3]
  stageable := true
  obj _ := [0]
  removal _ := some ⟨0x090A, le 4 0⟩
  check a d := refuseIf (decide (u8 a.payload 0 = 1) && (drainOf (.audioPort 5 0) d).isSome) 0x0002
  point _ d := audPoint d
  commit _ _ t := .block (nextBlock t)
  apply a d := updPort' 5 0 (fun x => { x with set := true, state := u8 a.payload 0 }) d

def cmdAprtDisable : CmdSpec where
  opcode := 0x090B
  len := len 8
  fields _ := [disableWord, rng 4 1 1 5, res 6 2]
  stageable := true
  obj p := [u8 p 4, u8 p 5]
  sheds _ := true
  check a _ :=
    let k := u8 a.payload 4
    refuseIf (decide ((if k ≤ 2 then 32 else if k ≤ 4 then 8 else 1) ≤ u8 a.payload 5)) 0x0010
  disables := some fun p _ => [.audioPort (u8 p 4) (u8 p 5)]

def cmdAudCsRead : CmdSpec where
  opcode := 0x090C
  len := len 4
  fields _ := [res 2 2]
  check a d := refuseIf (decide (srcCount d ≤ u16 a.payload 0)) 0x0010
  reply a _ d :=
    let x := audSrc (u16 a.payload 0) d
    { payload := (if x.cs = [] then le 24 0 else x.cs) ++ le 12 (t96 x.csAt) }

def cmdAprtCsSet : CmdSpec where
  opcode := 0x090D
  len := len 28
  fields _ := [rng 1 1 0 1, res 2 2, res 27 1]
  stageable := true
  obj p := [u8 p 0]
  removal p := some ⟨0x090D, p.take 1 ++ le 27 0⟩
  check a _ := refuseIf (decide (31 < u8 a.payload 0)) 0x0010
  point _ d := audPoint d
  commit _ _ t := .block (nextBlock t)
  apply a d :=
    let p := a.payload
    updPort' 2 (u8 p 0) (fun x => { x with csNext := some (decide (u8 p 1 = 1), (p.drop 4).take 23) }) d

/-- Registers of an audio object in offset order, then its counters. A port's ID is KIND × 256 + port, as R370 names it. -/
def audStatus (kind id : Nat) (d : Dev) : List Byte :=
  match kind with
  | 1 => le 4 (srcStatusWord id d) ++ le 4 (audSrc id d).hold ++ ctrBytes (audSrc id d).ctrs aWRITTEN 4
  | 2 => le 4 (dstStatusWord id d) ++ dstCounters id d
  | 3 => le 4 (inStatusWord (id / 256) (id % 256) d) ++ ctrBytes (audPort (id / 256) (id % 256) d).ctrs pARRIVED 7
  | 4 => le 4 (outStatusWord (id / 256) (id % 256) d) ++ ctrBytes (audPort (id / 256) (id % 256) d).ctrs pTAKEN 3
  | _ => le 4 (audCfgWord d) ++ le 4 (audStatusWord d) ++ le 4 (audPoolWord d) ++ le 4 0 ++ le 8 (d.aud.block % 2 ^ 48)
      ++ ctrBytes d.aud.ctrs 0 2

def cmdAudStatusRead : CmdSpec where
  opcode := 0x090E
  len := len 4
  fields _ := [rng 0 1 1 5, res 1 1]
  check a d :=
    let i := u16 a.payload 2
    refuseIf (match u8 a.payload 0 with
      | 1 => decide (srcCount d ≤ i)
      | 2 => decide (destCount d ≤ i)
      | 3 => !(decide (256 ≤ i ∧ i < 288) || decide (768 ≤ i ∧ i < 776))
      | 4 => !(decide (512 ≤ i ∧ i < 544) || decide (1024 ≤ i ∧ i < 1032))
      | _ => false) 0x0010
  reply a _ d := { payload := audStatus (u8 a.payload 0) (u16 a.payload 2) d }

/-- Family 0x09. -/
def family09 : List CmdSpec :=
  [cmdAudConfig, cmdAudDepth, cmdAudCells, cmdAudCellsRead, cmdAudDestEnable, cmdAudDestDisable, cmdAprtAesIn, cmdAprtAesOut,
   cmdAprtTdm, cmdAprtWclk, cmdAprtDisable, cmdAudCsRead, cmdAprtCsSet, cmdAudStatusRead]

end Sys2Proof.Machine
end

