-- ==== Sys2Proof/Machine/Stops.lean ====
section
/-! DEFINITION. Disabling a function with work in flight (R29 to R36): which functions are stopped, their units of
work and graceful deadlines, what a stop does, and how a disable command is answered. -/

namespace Sys2Proof.Machine

/-- A function's last stop stands: it is disabled already (R34). -/
def isStopped (f : Func) (d : Dev) : Bool :=
  match f with
  | .laneRx n => !(lane n d).rxEn
  | .laneTx n => !(lane n d).txEn
  | .sdiRx n => !(rx n d).en
  | .sdiTx n => !(tx n d).en
  | .port p => !(port p d).en
  | .queue p dir q => (queueOf p dir q d).stopped
  | .rxFlow n => !(rxFlow n d).en
  | .txFlow n => !(txFlow n d).en
  | .engine e => !(engine e d).en
  | .ingress r => !(stream r d).bound
  | .raster e => decide ((raster e d).n = 0) || (raster e d).cutAt.isSome
  | .dests first count => (List.range count).all fun i => !(audDst (first + i) d).en
  | .audioPort kind p => decide ((audPort kind p d).state = 0 ∧ (audPort kind p d).parked = 0)
  | .pulse pin => (tget d.tim.pulses pin).prog.isNone
  | .timeBase n => decide ((tget d.tim.tbs n).state = 0)
  | .service => !inService d

/-- The longest frame period of a timing group that has rasters. -/
def slowestPeriod (d : Dev) : Option Time :=
  ((rasters d).map fun e => framePeriod (tgFormat (rasterTg e d) d)).foldl (fun m t => some (match m with
    | some x => if x < t then t else x
    | none => t)) none

/-- The timing group of the raster that an SDI transmitter serves. -/
def txGroupOf (n : Nat) (d : Dev) : Option Nat := (rasterOfSdiTx n d).map fun e => rasterTg e d

/-- The receiver framer of a receive flow of type 5. -/
def framerOf (n : Nat) (d : Dev) : Nat := 192 + (rxFlow n d).dest

/-- Work in progress that a graceful stop completes (R30, R32). A MAC queue and a port have none: a frame enters or leaves
them in one step. -/
def hasWork (f : Func) (d : Dev) : Bool :=
  match f with
  | .sdiRx n => decide ((rx n d).state = 3) && (rx n d).began
  | .sdiTx n => match rasterOfSdiTx n d with
    | some e => rasterReads e d && outputsRun d
    | none => false
  | .rxFlow n =>
    let x := rxFlow n d
    if x.type = 2 ∨ x.type = 3 then true
    else if x.type = 5 then decide ((rx (framerOf n d) d).state = 3) && (rx (framerOf n d) d).began
    else x.frames ≠ []
  | .engine e => (engine e d).frames ≠ []
  | .ingress r => (writingFrame r true d).isSome
  | .raster e => rasterReads e d && outputsRun d
  | .dests _ _ => true
  | .audioPort _ _ => true
  | .pulse pin => (tget d.tim.pulses pin).high
  | .service => outputsRun d && (rasters d ≠ [])
  | _ => false

/-- The graceful deadline counted from acceptance (R32). -/
def gracefulSpan (f : Func) (d : Dev) : Time :=
  match f with
  | .sdiRx n => 2 * framePeriod (rx n d).format
  | .sdiTx n => match txGroupOf n d with
    | some g => 2 * framePeriod (tgFormat g d)
    | none => 0
  | .rxFlow n =>
    let x := rxFlow n d
    if x.type = 2 ∨ x.type = 3 then 250 * us
    else if x.type = 5 then 2 * framePeriod (rx (framerOf n d) d).format
    else if x.type = 4 then 2 * (match ancGroupRing n d with
      | some r => framePeriod (stream r d).format
      | none => framePeriod x.format)
    else 2 * framePeriod x.format
  | .engine e => 2 * framePeriod (tgFormat (cvTg (engine e d).conf) d)
  | .ingress r => 2 * framePeriod (stream r d).format
  | .raster e => 2 * framePeriod (tgFormat (rasterTg e d) d)
  | .dests _ _ | .audioPort _ _ => 250 * us
  | .pulse pin => match (tget d.tim.pulses pin).prog with
    | some p => (p.width : Rat)
    | none => 0
  | .service => 2 * (slowestPeriod d).getD 0
  -- A MAC queue or packet engine: twice the transmit time of a 9,216-byte frame at the port rate.
  | .port p | .queue p _ _ => 2 * (9216 * 8) / (portGbps p d : Rat)
  | .txFlow n => match (txFlow n d).pathA with
    | some x => 2 * (9216 * 8) / (portGbps x.port d : Rat)
    | none => us
  -- A lane (R109) and a memory client (R250), which no command disables by itself.
  | _ => us

/-- What is in progress at acceptance: the timestamps of a flow's frames, an engine's or a ring's frame numbers. -/
def workMark (f : Func) (d : Dev) : List Nat :=
  match f with
  | .rxFlow n => (rxFlow n d).frames.map (·.ts)
  | .engine e => (engine e d).frames.map (·.1)
  | .ingress r => ((stream r d).slots.filter fun s => decide (s.state = 1)).map (·.num)
  | _ => []

/-- A receiver's frame in progress at a house time has ended. -/
def receiverDone (n : Nat) (since : Time) (d : Dev) : Bool :=
  decide ((rx n d).state ≠ 3 ∨ since < (rx n d).start) || !(rx n d).began

/-- The unit of work that was in progress when a drain began has completed (R30). -/
def unitDone (x : Drain) (d : Dev) : Bool :=
  match x.func with
  | .sdiRx n => receiverDone n x.since d
  | .sdiTx n => match txGroupOf n d with
    | some g => decide (x.since < tgBoundary g d)
    | none => true
  | .rxFlow n =>
    let y := rxFlow n d
    if y.type = 2 ∨ y.type = 3 then decide (blockOf x.since < d.aud.block)
    else if y.type = 5 then receiverDone (framerOf n d) x.since d
    else y.frames.all fun f => !x.mark.contains f.ts
  | .engine e => (engine e d).frames.all fun f => !x.mark.contains f.1
  | .ingress r => (stream r d).slots.all fun s => !(decide (s.state = 1) && x.mark.contains s.num)
  | .raster e => decide (x.since < tgBoundary (rasterTg e d) d)
  | .dests _ _ | .audioPort _ _ => decide (blockOf x.since < d.aud.block)
  | .pulse pin => match (tget d.tim.pulses pin).prog with
    | some p => decide ((tget d.tim.pulses pin).lastEdge + (p.width : Rat) ≤ refTime p.ref d) || !(tget d.tim.pulses pin).high
    | none => true
  | .service => (rasters d).all fun e => decide (x.since < tgBoundary (rasterTg e d) d)
  | _ => true

/-- Frames held in a receive queue when it stops count as aborted (R161). -/
def abortQueue (p q : Nat) (d : Dev) : Dev :=
  let d := giveCells p ((queueOf p 1 q d).rx.foldl (fun n f => n + cellsOf f.frame.len) 0) d
  portBump p pRX_ABORT (queueOf p 1 q d).rx.length (updQueue p 1 q (fun x => { x with rx := [] }) d)

/-- A queue stops and holds no traffic (R32). -/
def stopQueue (p dir q : Nat) (d : Dev) : Dev :=
  updQueue p dir q (fun x => { x with stopped := true }) (if dir = 1 then abortQueue p q d else flushTx p q d)

/-- The consumer of a raster that has stopped sends nothing: an SDI transmitter stands at electrical idle (R32). -/
def idleConsumer (kind id : Nat) (d : Dev) : Dev :=
  let ns := if kind = 1 then [id] else if kind = 2 then (mlink (id + 64) d).lanes else if kind = 4 then [192 + id] else []
  ns.foldl (fun d n => updTx n (fun t =>
    if t.state = 2 then { t with state := 1, format := 0xFF, mapping := 0xF, claimOn := false } else t) d) d

/-- A device that leaves service stops its outputs and enters READY, in no role and no pair (R511, R512, R527). -/
def leaveService (d : Dev) : Dev :=
  setMode READY { d with
    sdiTx := tmap d.sdiTx fun _ t =>
      if t.state = 2 then { t with state := 1, format := 0xFF, mapping := 0xF, claimOn := false } else t,
    memc.partnerSet := none, memc.partnerHeard := false, twn.role := 0, twn.pair := 0, twn.insetSent := [] }

/-- An output raster ends, with the tags of its reads and its consumer (R32). -/
def endRaster (e : Nat) (d : Dev) : Dev :=
  let x := raster e d
  let rs := match x.shown with
    | some f => f.parts.map (·.1)
    | none => []
  idleConsumer x.kind x.id (stopRaster e (dropClient (16 + e / 72) rs d))

/-- The end of the line that a raster sends. -/
def lineEnd (e : Nat) (d : Dev) : Time :=
  let g := rasterTg e d
  let l := linePeriod (tgFormat g d)
  if l ≤ 0 then d.house else tgBoundary g d + ((((d.house - tgBoundary g d) / l).floor + 1 : Int) : Rat) * l

/-- Rasters stopped immediately have come to the end of their line (R32). -/
def endCutRasters (d : Dev) : Dev :=
  (rasters d).foldl (fun d e => match (raster e d).cutAt with
    | some t => if t ≤ d.house then endRaster e d else d
    | none => d) d

/-- The rings that a receiver, or a receive flow, writes. -/
def ringsOf (kind id : Nat) (d : Dev) : List Nat :=
  (rings d).filter fun r => decide ((stream r d).kind = kind ∧ (if kind = 1 then (stream r d).id % 256 = id else (stream r d).id = id))

/-- The queued writes of rings lose their tags (R31). -/
def dropWrites (rs : List Nat) (d : Dev) : Dev := rs.foldl (fun d r => dropClient (r / 72) [r] d) d

/-- The queued reads and writes of a conversion lose their tags (R31, R335). -/
def dropEngine (e : Nat) (d : Dev) : Dev :=
  dropClient (48 + e / 3) ((outputRing e d).toList) (dropClient (32 + e / 3) (conversionRings (engine e d).conf d) d)

/-- A function stops (R31, R32): whatever unit of work it still has is abandoned, and what it held returns to its pool. -/
def stopFunc (f : Func) (d : Dev) : Dev :=
  match f with
  | .laneRx n =>
    let up := decide ((lane n d).rxState = 4)
    reporting n (fun d =>
      let d := laneOff n (abortVisit (octetOf n) n d)
      if up then clientLost n d else d) d
  -- R109: disabling one lane of a port takes the port down.
  | .laneTx n => reporting n (fun d =>
      let on := (lane n d).txEn
      let d := updLane n (fun l => { l with txEn := false, testTx := 0 }) d
      if on ∧ n < 192 ∧ (tget d.octets (octetOf n)).mode ≠ 0 then portLaneLost n d else d) d
  | .sdiRx n => stopSdiRx n (dropWrites (ringsOf 1 n d) d)
  | .sdiTx n => stopSdiTx n d
  | .port p =>
    let d := (List.range 8).foldl (fun d q => stopQueue p 1 q (stopQueue p 2 q d)) d
    updPort p (fun x => { x with
      en := false, link := 0, aligned := false, rf := false, hiSer := false, pauseFor := [],
      rxq := tmap x.rxq (fun _ q => { q with above := false }), txq := tmap x.txq (fun _ q => { q with paused := none }) }) d
  | .queue p dir q => stopQueue p dir q d
  | .rxFlow n =>
    let x := rxFlow n d
    let d := dropWrites (ringsOf 3 n d) d
    let d := x.frames.foldl (fun d f => flowAbandon n f (rxfBump n fABANDON 1 d)) d
    let d := updRxFlow n stoppedFlow d
    if x.type = 5 then stopSdiRx (192 + x.dest) d else d
  | .txFlow n =>
    let x := txFlow n d
    let d := updTxFlow n (fun x => { x with en := false, claimSent := false }) d
    if x.type = 5 then stopSdiTx (192 + x.source) d else d
  | .engine e => stopEngine e (dropEngine e d)
  | .ingress r => sweep (updStream r (fun x => { x with bound := false }) (abandonWriting r (dropWrites [r] d)))
  -- An immediate stop ends the raster at the end of its line.
  | .raster e =>
    if rasterReads e d && outputsRun d then updRaster e (fun x => { x with cutAt := some (lineEnd e d) }) d else endRaster e d
  | .dests first count => setDests first count false d
  | .audioPort kind p => stopAudioPort kind p d
  | .pulse pin => stopPulse pin d
  | .timeBase n => tbStop n d
  | .service => leaveService d

/-- A function whose unit of work has completed stops: a raster at its frame's end. -/
def stopDone (f : Func) (d : Dev) : Dev :=
  match f with
  | .raster e => endRaster e d
  | _ => stopFunc f d

/-- Outcome codes (R33). -/
abbrev ocGraceful := 0
abbrev ocImmediate := 1
abbrev ocEscalated := 2
abbrev ocDraining := 3
abbrev ocAlready := 4
abbrev ocReset := 5
/-- No outcome: the command, with these operands, disables nothing. -/
abbrev ocNone := 0xFF

/-- A disable of one function (R33, R34): its outcome and the device after. `owed` names the command that a completion
event would answer. -/
def disableOne (now : Bool) (owed : Nat × Word × Nat) (f : Func) (d : Dev) : Nat × Dev :=
  match drainOf f d with
  | some _ =>
    if now then (ocImmediate, endDrain f ocImmediate (stopFunc f d))
    else (ocDraining, { d with
      drains := d.drains.map fun y => if y.func = f then { y with owed := y.owed ++ [owed] } else y })
  | none =>
    if isStopped f d then (ocAlready, d)
    else if now then (ocImmediate, stopFunc f d)
    else if hasWork f d = false then (ocGraceful, stopDone f d)
    else (ocDraining, { d with
      drains := d.drains ++ [⟨f, [owed], d.up + gracefulSpan f d, d.house, workMark f d⟩] })

/-- A disable of the functions that a command names: 0x3 while any drains, 0x4 where all were stopped, else 0x1 where one
stopped immediately, else 0x0. -/
def disableAll (now : Bool) (owed : Nat × Word × Nat) (fs : List Func) (d : Dev) : Nat × Dev :=
  let r := fs.foldl (fun (acc : List Nat × Dev) f =>
    let o := disableOne now owed f acc.2
    (acc.1 ++ [o.1], o.2)) ([], d)
  let oc := if r.1.contains ocDraining then ocDraining
    else if r.1.all (· = ocAlready) then ocAlready
    else if r.1.contains ocImmediate then ocImmediate
    else ocGraceful
  (oc, r.2)

/-- GRACEFUL_STOP_COMPLETE (R30, R33): the unit of work has completed, and the function stops with outcome 0x0. -/
def gracefulDone (f : Func) (d : Dev) : Dev :=
  match drainOf f d with
  | some x => if unitDone x d then endDrain f ocGraceful (stopDone f d) else d
  | none => d

def execGracefulStopComplete (f : Func) (s : State) : Out := onDev (gracefulDone f) s

/-- GRACEFUL_DEADLINE (R30, R33): the deadline has come first, and the function takes the immediate path with outcome
0x2. -/
def deadlinePassed (f : Func) (d : Dev) : Dev :=
  match drainOf f d with
  | some x => if x.deadline ≤ d.up ∧ unitDone x d = false then endDrain f ocEscalated (stopFunc f d) else d
  | none => d

def execGracefulDeadline (f : Func) (s : State) : Out := onDev (deadlinePassed f) s

/-- SRAM_CORRECTED_REWRITE (R28): in its next idle cycle an SRAM, named by its checker's source, writes a word that was corrected
back in place, after which the word stands without errors. -/
def execSramCorrectedRewrite (sram word : Nat) (s : State) : Out := onDev (sramRewrite sram word) s

end Sys2Proof.Machine
end

