-- ==== Sys2Proof/Machine/Audits.lean ====
section
/-! DEFINITION. Conservation (R37 to R40) and its auditors (R503): the sixteen laws, their terms, and what an audit
point does. -/

namespace Sys2Proof.Machine

/-- An equation of a law: the terms of its two sides, in the order its rule writes them. -/
structure Equation where
  left  : List Nat
  right : List Nat

def total (l : List Nat) : Nat := l.foldl (· + ·) 0

/-- The two sides are equal; counters wrap at 2^48 (R9). -/
def Equation.holds (e : Equation) : Bool := decide (total e.left % 2 ^ 48 = total e.right % 2 ^ 48)

/-- Counter `k`. -/
def ctrOf (c : Ctrs) (k : Nat) : Nat := (tget c k).toNat

/-- Counters of a table, in order. -/
def ctrsOf (c : Ctrs) (ks : List Nat) : List Nat := ks.map (ctrOf c)

/-- Frames that the receive queues of a port hold. -/
def rxPresent (p : Nat) (d : Dev) : Nat := (List.range 8).foldl (fun n q => n + (queueOf p 1 q d).rx.length) 0
/-- Frames that the transmit queues of a port hold. -/
def txPresent (p : Nat) (d : Dev) : Nat := (List.range 8).foldl (fun n q => n + (queueOf p 2 q d).tx.length) 0

/-- Packets of a send flow's path that wait in a queue. -/
def pathPresent (n leg : Nat) (d : Dev) : Nat :=
  match (if leg = 0 then (txFlow n d).pathA else (txFlow n d).pathB) with
  | none => 0
  | some _ => d.ports.foldl (fun a e => a + ((tget e.2.txq 6).tx.filter fun f => match f.media with
      | some m => decide (m.flow = n ∧ m.path = leg)
      | none => false).length) 0

/-- Slots of a ring in a state (R282). -/
def slotsIn (r s : Nat) (d : Dev) : Nat := ((stream r d).slots.filter fun x => decide (x.state = s)).length

/-- The equations of a law for an instance (R503); none where the law is unknown or the instance holds no such law. A law's
instance is the flow for law 5, the flow × 2 + path for law 6, and the port × 32 + channel with the port as
`APRT_DISABLE` names it for laws 13 and 15 (see log entry 40). -/
def lawEquations (law inst : Nat) (d : Dev) : Option (List Equation) :=
  match law with
  | 1 =>
    let x := pc inst d
    if 64 ≤ inst then none else some [⟨[tagsFree x, x.queue.length, x.issued.length, x.returning.length], [512]⟩]
  | 2 =>
    let cells := (queuesOf inst d).foldl (fun n x => n + held x.1 x.2.1 x.2.2 d) 0
    if 16 ≤ inst then none else some [⟨[freeCells inst d, cells, 0, 0, 0], [4096]⟩]
  | 3 =>
    let c := (port inst d).ctrs
    if !portExists inst d then none
    else some [⟨[ctrOf c pRX_ENTERED],
      ctrsOf c [pRX_DELIVERED, pRX_FCS, pRX_OVERSIZE, pRX_QUEUE_FULL, pRX_RING_DROP, pRX_ABORT] ++ [rxPresent inst d]⟩]
  | 4 =>
    let c := (port inst d).ctrs
    if !portExists inst d then none
    else some [⟨[ctrOf c pTX_ENQUEUED], ctrsOf c [pTX_FRAMES, pTX_DISCARD] ++ [txPresent inst d]⟩]
  | 5 =>
    let x := rxFlow inst d
    let c := x.ctrs
    if 8192 ≤ inst ∨ x.type = 0 then none
    else some [
      ⟨ctrsOf c [fRX_PKTS, fRX_PKTS + 8],
       ctrsOf c [fACCEPTED, fDUPLICATE, fREPEAT, fLATE, fREJECT_RTP, fREJECT_FORMAT, fREJECT_CLAIM, fDISABLED, fWITNESSED] ++ [x.waiting.length]⟩,
      ⟨[ctrOf c fACCEPTED], ctrsOf c [fSEQ_BOTH, fSEQ_A, fSEQ_B] ++ [x.win.length]⟩,
      ⟨[ctrOf c fDUPLICATE], [ctrOf c fSEQ_BOTH, (x.win.filter fun e => decide (e.2 = 3)).length]⟩]
  | 6 =>
    let n := inst / 2
    let leg := inst % 2
    let x := txFlow n d
    let c := x.ctrs
    if 8192 ≤ n ∨ (if leg = 0 then x.pathA.isNone else !x.dual || x.pathB.isNone) ∨ x.lacked.contains leg then none
    else some [⟨[ctrOf c tTX_PKTS],
      [ctrOf c (tSENT + 8 * leg), ctrOf c (tDROP + 8 * leg), ctrOf c tSUPPRESSED, pathPresent n leg d]⟩]
  | 7 => if inst ≠ 0 then none else some [⟨[d.flows.free, d.flows.rx.foldl (fun n e => n + e.2.blocks) 0], [8192]⟩]
  | 8 =>
    let x := stream inst d
    if x.n = 0 then none
    else some [
      ⟨[slotsIn inst 0 d, slotsIn inst 1 d, slotsIn inst 2 d, slotsIn inst 3 d], [x.slots.length]⟩,
      ⟨[ctrOf x.ctrs isSTARTED], ctrsOf x.ctrs [isREADY, isABANDONED] ++ [slotsIn inst 1 d]⟩]
  | 9 =>
    let x := raster inst d
    if x.n = 0 ∨ x.route.srcKind = 0 then none else some [⟨[ctrOf x.ctrs esOUT], ctrsOf x.ctrs [esNEW, esREPEAT]⟩]
  | 10 =>
    let x := engine inst d
    if 48 ≤ inst then none else some [⟨[x.tokens, x.fetch, x.held, x.out], [48]⟩]
  | 11 =>
    let x := engine inst d
    if 48 ≤ inst then none else some [⟨[ctrOf x.ctrs 0x40], ctrsOf x.ctrs [0x48, 0x50] ++ [x.frames.length]⟩]
  | 12 =>
    let x := audSrc inst d
    if srcCount d ≤ inst then none
    else some [⟨ctrsOf x.ctrs [aWRITTEN, aFILL_REPEAT, aFILL_ZERO], [x.blocks]⟩]
  | 13 =>
    let k := inst / 32 / 256
    let p := inst / 32 % 256
    let x := audPort k p d
    if ¬ ((k = 1 ∧ p < 32) ∨ (k = 3 ∧ p < 8)) ∨ x.set = false ∨ inChannels k x ≤ inst % 32 then none
    else some [⟨[ctrOf x.ctrs pARRIVED], ctrsOf x.ctrs [pACCEPTED, pDROPPED, pPARITY] ++ [portPresent x]⟩]
  | 14 =>
    if destCount d ≤ inst then none
    else some [⟨[mixedOf (audDst inst d) d], [dueOf (audDst inst d) d]⟩]
  | 15 =>
    let k := inst / 32 / 256
    let p := inst / 32 % 256
    let x := audPort k p d
    if ¬ ((k = 2 ∧ p < 32) ∨ (k = 4 ∧ p < 8)) ∨ x.set = false ∨ (if k = 2 then 2 else x.channels) ≤ inst % 32 then none
    else some [⟨[ctrOf x.ctrs pTAKEN], ctrsOf x.ctrs [pSENT, pDISCARDED] ++ [outPresent x]⟩]
  | 16 => if inst ≠ 0 then none else some [⟨[d.aud.free, d.aud.srcs.foldl (fun n e => n + e.2.pages) 0], [262144]⟩]
  | _ => none

/-- A law holds for an instance. -/
def lawHolds (law inst : Nat) (d : Dev) : Bool :=
  match lawEquations law inst d with
  | some es => es.all Equation.holds
  | none => true

/-- The reports of one law over a block's instances: a law that does not balance is a major report whose detail code is the
law (R39, R503). -/
def auditLaw (src law : Nat) (insts : List Nat) (d : Dev) : Dev :=
  insts.foldl (fun d i => if lawHolds law i d then d else report src true law i d) d

/-- AUDIT_POINT: an auditor evaluates every law of its block. -/
def auditPoint (a : Auditor) (d : Dev) : Dev :=
  match a with
  | .mac n =>
    let ps := (List.range (numPorts n d)).map (8 * n + ·)
    let src := 0x200 + 4 * n + 2
    auditLaw src 4 ps (auditLaw src 3 ps (auditLaw src 2 [n] d))
  | .flow =>
    let tx := (d.flows.tx.map (·.1)).flatMap fun n => [2 * n, 2 * n + 1]
    auditLaw 0x242 7 [0] (auditLaw 0x242 6 tx (auditLaw 0x242 5 (d.flows.rx.map (·.1)) d))
  | .fab => auditLaw 0x260 9 (rasters d) (auditLaw 0x260 8 (rings d) d)
  | .memc k => auditLaw 0x380 1 [k] d
  | .cnv e => auditLaw 0x3C0 11 [e] (auditLaw 0x3C0 10 [e] d)
  | .aud =>
    let ports (a b : Nat) := (d.aud.ports.filter fun e => decide (e.1 / 256 = a ∨ e.1 / 256 = b)).map fun e => 32 * e.1
    auditLaw 0x3D2 16 [0] (auditLaw 0x3D2 15 (ports 2 4) (auditLaw 0x3D2 14 (d.aud.dsts.map (·.1))
      (auditLaw 0x3D2 13 (ports 1 3) (auditLaw 0x3D2 12 (d.aud.srcs.map (·.1)) d))))

/-- The auditor exists. -/
def auditorExists : Auditor → Bool
  | .mac n => decide (n < 16)
  | .memc k => decide (k < 64)
  | .cnv e => decide (e < 48)
  | _ => true

/-- The millisecond of house time. -/
def houseMs (d : Dev) : Nat := (d.house / ms).floor.toNat

/-- An auditor is at its audit point once in every millisecond of house time (R178, R224, R252, R306, R334, R385); the audio core's is the
boundary of a block n with n mod 8 = 0, which begins a millisecond. -/
def auditDue (a : Auditor) (d : Dev) : Bool := !(d.flt.audited.any fun x => decide (x.1 = a ∧ x.2 = houseMs d))

/-- The auditor whose laws an instance's law belongs to. -/
def auditorOf (law inst : Nat) : Auditor :=
  if law = 1 then .memc inst else if law = 2 then .mac inst else if law ≤ 4 then .mac (inst / 8)
  else if law ≤ 7 then .flow else if law ≤ 9 then .fab else if law ≤ 11 then .cnv inst else .aud

end Sys2Proof.Machine
end

