-- ==== Sys2Proof/Machine/Table.lean ====
section
/-! DEFINITION. The stageable commands in one table, and how a change runs: through a mailbox, from a bank, from the
mirror or from a store, always by the same description (R422, R438). -/

namespace Sys2Proof.Machine

/-- Every command of the families whose commands can be staged. -/
def stageTable : List CmdSpec :=
  family0A ++ family02 ++ family03 ++ family04 ++ family05
    ++ [cmdMemcRingConfig, cmdMemcRingRead, cmdMemcPcRetire, cmdMemcErrorConfig, cmdMemcScrubConfig, cmdMemcHolidayConfig,
        cmdMemcStatusRead, cmdMemcWindow]
    ++ family07 ++ family08 ++ family09

/-- A command of those families by opcode. -/
def famSpec (op : Nat) : Option CmdSpec := stageTable.find? fun c => decide (c.opcode = op)

/-- A stageable command by opcode. -/
def stageSpec (op : Nat) : Option CmdSpec := (famSpec op).filter (·.stageable)

/-- Where the disable word stands: at offset 0 (R29), but in `SDI_MULTILINK` after the group and mapping. -/
def disableOffset (op : Nat) : Nat := if op = 0x0303 then 4 else 0

/-- A disable that is immediate (R29). -/
def disableNow (op : Nat) (p : List Byte) : Bool := decide (u8 p (disableOffset op) = 1)

/-- Fields, then the family's checks (R403). -/
def checkSpec (c : CmdSpec) (a : Args) (d : Dev) : Option (Nat × Nat) :=
  match badField (c.fields a.payload) a.payload with
  | some o => some (0x0004, o)
  | none => c.check a d

/-- A command takes effect now: the functions it disables stop or begin to drain, then its effect follows. The number is
the outcome code of R33. `now` makes every stop immediate. -/
def runSpec (c : CmdSpec) (a : Args) (now : Bool) (d : Dev) : Nat × Dev :=
  let d := c.ahead a d
  let r := match c.disables with
    | some fs => (match fs a.payload d with
      | [] => (ocNone, d)
      | l => disableAll (now || disableNow c.opcode a.payload) (a.mbx, a.tag, c.opcode) l d)
    | none => (ocNone, d)
  (r.1, c.apply a r.2)

/-- A change takes effect now. -/
def runChange (now : Bool) (x : Change) (d : Dev) : Dev :=
  match stageSpec x.opcode with
  | some c => (runSpec c { payload := x.payload } now d).2
  | none => d

/-- A change's check in a state (R429). -/
def checkChange (x : Change) (d : Dev) : Option (Nat × Nat) :=
  match stageSpec x.opcode with
  | some c => if c.len x.payload then checkSpec c { payload := x.payload } d else some (0x0004, 0xF008)
  | none => some (0x0003, 0)

/-- The object of a change (R423). -/
def objectOf (x : Change) : Nat × List Nat :=
  match stageSpec x.opcode with
  | some c => (x.opcode, c.obj x.payload)
  | none => (x.opcode, [])

/-- A change that removes or reduces load (R429). -/
def shedsLoad (x : Change) : Bool :=
  match stageSpec x.opcode with
  | some c => c.sheds x.payload
  | none => false

/-- The change that takes a change's object away. -/
def removalOf (x : Change) : Option Change := (stageSpec x.opcode).bind fun c => c.removal x.payload

/-! ### The configuration in force (R423, R446) -/

/-- `AUD_CELLS` of one cell. -/
def oneCell (cell word : Nat) : Change := ⟨0x0903, le 2 1 ++ le 2 0 ++ le 2 (cell / 64) ++ le 1 (cell % 64) ++ le 1 1 ++ le 4 word⟩

/-- The records of an `AUD_CELLS` change, one for each destination (R422). -/
def cellChanges (p : List Byte) : List Change :=
  ((cellRecords (u16 p 0) (p.drop 4)).getD []).map fun r =>
    ⟨0x0903, le 2 1 ++ le 2 0 ++ le 2 r.1 ++ le 1 r.2.1 ++ le 1 r.2.2.length ++ r.2.2.flatMap (le 4)⟩

/-- A change as the configuration keeps it: one for each object. -/
def objectsOf (x : Change) : List Change :=
  if x.opcode = 0x0903 then (cellWrites x.payload).map fun w => oneCell w.1 w.2 else [x]

/-- A recorded change is gone once `x` has been made: it has the same object, or `x` removes it, its flow or its raster. -/
def replacedBy (x e : Change) : Bool :=
  decide (objectOf e = objectOf x)
    || (shedsLoad x && (match removalOf e with
      | some r => decide (objectOf r = objectOf x)
      | none => false))
    || (decide (x.opcode = 0x0506 ∧ 0x0502 ≤ e.opcode ∧ e.opcode ≤ 0x0504) && decide (u16 e.payload 0 = u16 x.payload 0))
    || (decide (x.opcode = 0x0705 ∧ (e.opcode = 0x0704 ∨ e.opcode = 0x0707 ∨ e.opcode = 0x0810 ∨ e.opcode = 0x0812 ∨ e.opcode = 0x0813))
        && decide (u16 e.payload 0 = u16 x.payload 4))

/-- The configuration after a change. -/
def recordIn (l : List Change) (x : Change) : List Change :=
  (objectsOf x).foldl (fun l y => (l.filter fun e => !replacedBy y e) ++ (if shedsLoad y then [] else [y])) l

/-- A change enters the configuration in force and, outside a season switch, the base configuration (R446). -/
def recordChange (base : Bool) (x : Change) (d : Dev) : Dev :=
  { d with cfg.inForce := recordIn d.cfg.inForce x, cfg.base := if base then recordIn d.cfg.base x else d.cfg.base }

/-! ### Waiting changes (R438) -/

/-- A timing group that has boundaries. -/
def groupRuns (g : Nat) (d : Dev) : Bool := definedFormat (timGroup g d).format

/-- A point that cannot come any more, or has come: nothing keeps the change waiting. -/
def pointGone (p : Point) (d : Dev) : Bool :=
  match p with
  | .now => true
  | .strobe _ => false
  | .frame g _ => !groupRuns g d
  | .picture e _ => !(engine e d).en
  | .block _ => false
  | .laneFrame n => !(rx n d).en || decide ((rx n d).state < 2)
  | .flowFrame n => !(rxFlow n d).en || decide ((rxFlow n d).frames = [])

/-- The block that a change acts on is in reset. -/
def inReset (x : Change) (d : Dev) : Bool :=
  match changeDomain x with
  | some k => d.flt.inReset.contains k || d.flt.quarantine.contains k
  | none => false

/-- A waiting change takes effect. A committed take whose plan point has handed it to its raster is not given again. -/
def applyOne (w : Waiting) (d : Dev) : Dev :=
  let e := u16 w.change.payload 0
  if w.change.opcode = 0x0707 ∧ w.armed.isSome ∧ (takeHere e (routeOf w.change.payload) d ∨ (raster e d).route = routeOf w.change.payload)
  then d
  else runChange false w.change d

/-- The waiting changes that a condition selects take effect, in their order, but for those whose block is in reset or has still
to be armed again (R440). -/
def applyWaiting (p : Waiting → Bool) (d : Dev) : Dev :=
  let q (w : Waiting) : Bool := p w && !inReset w.change d && !w.lost
  (d.cfg.waiting.filter q).foldl (fun d w => applyOne w d) { d with cfg.waiting := d.cfg.waiting.filter fun w => !q w }

/-- Changes whose point cannot come take effect, and Perby joins and leaves multicast groups (R221). -/
def settle (d : Dev) : Dev := syncGroups (applyWaiting (fun w => pointGone w.point d) d)

/-- Changes that wait for a boundary of a timing group at or before `t`. -/
def applyFrame (g : Nat) (t : Time) (d : Dev) : Dev :=
  applyWaiting (fun w => match w.point with
    | .frame h u => decide (h = g ∧ u ≤ t)
    | _ => false) d

/-- Changes of cells that wait for block `n` or one before it, or the other changes that do. -/
def applyBlock (cells : Bool) (n : Nat) (d : Dev) : Dev :=
  applyWaiting (fun w => match w.point with
    | .block m => decide (m ≤ n) && decide (decide (w.change.opcode = 0x0903) = cells)
    | _ => false) d

/-- Changes that wait for an output frame of an engine whose W lies at or after their time. -/
def applyPicture (e : Nat) (t : Time) (d : Dev) : Dev :=
  applyWaiting (fun w => match w.point with
    | .picture f u => decide (f = e ∧ u ≤ t)
    | _ => false) d

/-- Changes that wait for exactly this point. -/
def applyPoint (q : Point) (d : Dev) : Dev := applyWaiting (fun w => decide (w.point = q)) d

end Sys2Proof.Machine
end

