-- ==== Sys2Proof/Machine/Bank.lean ====
section
/-! DEFINITION. Banks, their check, the Almanac, Advent and the commit (R422 to R442), and the conflict rule for
commands outside a bank (R36, R432). -/

namespace Sys2Proof.Machine

/-! ### Pending flow entries (R196) -/

/-- A bank's pending flow entries are removed and its RETIRE marks cleared. -/
def undoPending (b : Nat) (d : Dev) : Dev :=
  changeTable (fun key t => mapEntries (removeEntries key t fun e => decide (e.pending = some b))
    fun e => if e.retire = some b then { e with retire := none } else e) d

/-- The path changes of a bank that none after them in it supersedes, with their places in it. -/
def pathChanges (b : Nat) (d : Dev) : List (Nat × Change) :=
  let l := (tget d.cfg.banks b).changes.zipIdx
  (l.filter fun x => decide (x.1.opcode = 0x0503) && !l.any fun y =>
    decide (x.2 < y.2 ∧ y.1.opcode = 0x0503 ∧ y.1.payload.take 3 = x.1.payload.take 3)).map fun x => (x.2, x.1)

/-- The new path entries of a bank being sealed are placed with PENDING, and the entries they replace are marked RETIRE; answers the
first change whose entry finds no place (R197). -/
def placePending (b : Nat) (d : Dev) : Option Nat × Dev :=
  (pathChanges b d).foldl (fun acc x =>
    let d := acc.2
    let n := u16 x.2.payload 0
    let leg := u8 x.2.payload 2
    let scratch := runChange true x.2 d
    let d := changeTable (fun _ t => mapEntries t fun e =>
      if e.flow = n ∧ e.leg = leg ∧ e.pending = none then { e with retire := some b } else e) d
    match acc.1, rxPath (rxFlow n scratch) leg with
    | none, some q =>
      let e : TblEntry := { path := q, flow := n, leg := leg, pending := some b }
      if (placeEntry d.flows.tbl.key d.flows.tbl.active e).isSome then
        (none, changeTable (fun key t => (placeEntry key t e).getD t) d)
      else (some x.1, d)
    | k, _ => (k, d)) (none, d)

/-- At the commit instant the PENDING bits of a bank clear, and its RETIRE entries become invalid. -/
def commitPending (b : Nat) (d : Dev) : Dev :=
  changeTable (fun key t => mapEntries (removeEntries key t fun e => decide (e.retire = some b))
    fun e => if e.pending = some b then { e with pending := none } else e) d

/-! ### What an entry changes -/

/-- The records of a season, or of the base configuration as season 0. -/
def seasonRecords (s : Nat) (d : Dev) : List Change := if s = 0 then [] else tget d.cfg.seasons s

/-- The objects' values differ from those in force. -/
def inForceAs (x : Change) (d : Dev) : Bool := (objectsOf x).all fun y => d.cfg.inForce.contains y

/-- The changes of a switch from the season in force to season `b` (R447). -/
def seasonSwitch (b : Nat) (d : Dev) : List Change :=
  let new := seasonRecords b d
  let names (x : Change) : Bool := new.any fun y => (objectsOf y).any fun z => decide (objectOf z = objectOf x)
  let back := ((seasonRecords d.cfg.season d).flatMap objectsOf).filterMap fun x =>
    if names x then none
    else match d.cfg.base.find? fun y => decide (objectOf y = objectOf x) with
      | some y => some y
      | none => removalOf x
  (back ++ new).filter fun x => !inForceAs x d

/-- The takes of a salvo as changes (R448). -/
def salvoTakes (s : Nat) (d : Dev) : List Change := (tget d.cfg.salvos s).map fun p => ⟨0x0707, p⟩

/-- The changes that an entry's commit makes (R433), from the state before it. -/
def entryChanges (x : AlmEntry) (d : Dev) : List Change :=
  match x.action with
  | 1 => (bank x.arg d).changes
  | 2 => salvoTakes x.arg d
  | _ => seasonSwitch x.arg d

/-- The season that an entry's commit puts in force. -/
def entrySeason (x : AlmEntry) (d : Dev) : Option Nat :=
  if x.action = 3 then some x.arg else if x.action = 1 then (bank x.arg d).season else none

/-- The places of changes in the order of application: those that remove or reduce load first (R266, R429). -/
def checkOrder (l : List Change) : List (Nat × Change) :=
  let ix := (List.range l.length).zip l
  (ix.filter fun x => shedsLoad x.2) ++ ix.filter fun x => !shedsLoad x.2

/-- The change is the second take on its raster in the bank (R303, R429). -/
def secondTake (l : List Change) (i : Nat) (x : Change) : Bool :=
  decide (x.opcode = 0x0707) && (l.take i).any fun y => decide (y.opcode = 0x0707 ∧ u16 y.payload 0 = u16 x.payload 0)

/-- A change in a scratch state: every stop is immediate and every point at hand. -/
def tryChange (x : Change) (d : Dev) : Dev := recordChange true x (runChange true x d)

/-- The check of a list of changes (R429, R430): the first that fails, with its status and detail, and the state reached. -/
def checkChanges (l : List Change) (d : Dev) : Option (Nat × Change × Nat × Nat) × Dev :=
  (checkOrder l).foldl (fun acc x =>
    match acc.1 with
    | some _ => acc
    | none =>
      match (if secondTake l x.1 x.2 then some (0x0006, 0) else checkChange x.2 acc.2) with
      | some (s, e) => (some (x.1, x.2, s, e), acc.2)
      | none => (none, tryChange x.2 acc.2)) (none, d)

/-- What an entry still has to change: its own changes, or once handed over those that wait for their points. -/
def simChanges (e : Nat) (d : Dev) : List Change :=
  let x := almEntry e d
  if x.handed then (d.cfg.waiting.filter fun w => decide (w.armed = some e)).map (·.change) else entryChanges x d

/-- The state that an entry's check starts from: its bank's pending flow entries stand aside. -/
def simStart (e : Nat) (d : Dev) : Dev := if (almEntry e d).action = 1 then undoPending (almEntry e d).arg d else d

/-- The season and base after an entry's commit. -/
def simSeason (e : Nat) (d : Dev) : Dev :=
  match entrySeason (almEntry e d) d with
  | some s => { d with cfg.season := s }
  | none => d

/-- WAITING and ADVENT entries in Almanac order: by instant, then by number (R428). -/
def almOrder (d : Dev) : List Nat :=
  (tfind d.cfg.alm fun x => decide (x.state = 1 ∨ x.state = 2)).mergeSort fun a b =>
    decide ((almEntry a d).instant < (almEntry b d).instant ∨ ((almEntry a d).instant = (almEntry b d).instant ∧ a ≤ b))

/-- Entry `a` comes before instant `t` and number `e` in Almanac order. -/
def almBefore (a : Nat) (t : Time) (e : Nat) (d : Dev) : Bool :=
  decide ((almEntry a d).instant < t ∨ ((almEntry a d).instant = t ∧ a < e))

/-- An entry applied in a scratch state. -/
def simEntry (e : Nat) (d : Dev) : Dev :=
  let d := simStart e d
  simSeason e ((checkOrder (simChanges e d)).foldl (fun d x => tryChange x.2 d) d)

/-- A check as a verdict (R430). -/
def verdictOf (r : Option (Nat × Change × Nat × Nat)) (d : Dev) : Verdict :=
  match r with
  | none => { epoch := d.cfg.epoch.toNat }
  | some (i, x, s, e) => { index := i, opcode := x.opcode, status := s, detail := e,
                           unit := if d.twn.pair = 2 ∧ twinUp d = true then d.twn.unit else 0xFF, epoch := d.cfg.epoch.toNat }

/-- In a pair a check fails where the partner's fails (R267, R441): the partner reports only that it failed, so which change
its verdict names is a free value. -/
def pairVerdict (v : Verdict) (n : Nat) (d : Dev) : Verdict :=
  if v.status = 0 ∧ d.twn.pair = 2 ∧ twinUp d ∧ d.memc.partnerOk = false ∧ 0 < n then
    { v with index := freeNat d % n, status := 0x0005, unit := d.twn.partnerUnit }
  else v

/-- This unit's own check of bank `b`: against the configuration in force with every other entry applied, as if it followed them all
(R428). -/
def ownVerdict (b : Nat) (d : Dev) : Verdict :=
  let s := (almOrder d).foldl (fun s e =>
    if (almEntry e d).action = 1 ∧ (almEntry e d).arg = b then s else simEntry e s) d
  let l := (bank b d).changes
  let first := match (checkChanges l (undoPending b s)).1 with
    | some r => some r
    -- R197: every entry finds its place beside those that the bank replaces.
    | none => match (placePending b (undoPending b d)).1 with
      | some i => some (i, l.getD i default, 0x0012, 0)
      | none => none
  verdictOf first d

/-- The verdict of the check of bank `b`. -/
def bankVerdict (b : Nat) (d : Dev) : Verdict := pairVerdict (ownVerdict b d) (bank b d).changes.length d

/-- The check of a scheduled entry in its place. -/
def entryVerdict (e : Nat) (d : Dev) : Verdict :=
  let x := almEntry e d
  let s := (almOrder d).foldl (fun s a => if almBefore a x.instant e d then simEntry a s else s) d
  let s := simStart e s
  let l := entryChanges x s
  pairVerdict (verdictOf (checkChanges l s).1 d) l.length d

/-- The entries that fail, each checked after those before it. -/
def failing (d : Dev) : List Nat :=
  ((almOrder d).foldl (fun (acc : List Nat × Dev) e =>
    let s := simStart e acc.2
    match (checkChanges (simChanges e s) s).1 with
    | some _ => (acc.1 ++ [e], acc.2)
    | none => (acc.1, simEntry e acc.2)) ([], d)).1

/-- Some entry that passes now would fail after a change (R432, R434). -/
def wouldFail (before after : Dev) : Option Nat :=
  if almOrder after = [] then none
  else
    let old := failing before
    (failing after).find? fun e => !old.contains e

/-- The functions that a change names (R36). -/
def funcsOf (x : Change) : List Func :=
  let p := x.payload
  let own := match (stageSpec x.opcode).bind (·.disables) with
    | some fs => fs p {}
    | none => []
  own ++ match x.opcode with
  | 0x0202 | 0x0204 => [.laneRx (u16 p 0), .laneTx (u16 p 0)]
  | 0x0301 | 0x0304 | 0x0305 => [.sdiRx (u16 p 0)]
  | 0x0303 => if u8 p 1 = 1 then (mlLanes p).map .sdiRx else (mlLanes p).map .sdiTx
  | 0x0306 | 0x0308 | 0x0309 => [.sdiTx (u16 p 0)]
  | 0x0401 | 0x0402 => [.port (u8 p 0)]
  | 0x0404 => [.queue (u8 p 0) (u8 p 1) (u8 p 2)]
  | 0x0502 | 0x0503 | 0x0504 | 0x0506 => [.rxFlow (u16 p 0)]
  | 0x0507 | 0x0508 | 0x0509 => [.txFlow (u16 p 0)]
  | 0x0601 | 0x0701 => [.ingress (u16 p 0)]
  | 0x0704 | 0x0707 | 0x0810 | 0x0812 | 0x0813 => [.raster (u16 p 0)]
  | 0x0801 | 0x0802 => [.engine (u8 p 0)]
  | 0x0907 => [.audioPort 1 (u8 p 0)]
  | 0x0908 | 0x090D => [.audioPort 2 (u8 p 0)]
  | 0x0909 => [.audioPort 3 (u8 p 0), .audioPort 4 (u8 p 0)]
  | 0x090A => [.audioPort 5 0]
  | 0x0A01 | 0x0A02 => [.timeBase (u8 p 0)]
  | 0x0A20 => [.pulse (u8 p 0)]
  | _ => []

/-- Two functions are one, or their destination ranges meet. -/
def sameFunc (a b : Func) : Bool :=
  decide (a = b) || match a, b with
  | .dests f n, .dests g m => decide (f < g + m ∧ g < f + n)
  | _, _ => false

/-- A change names a destination of a range. -/
def namesDest (x : Change) (first count : Nat) : Bool :=
  decide (x.opcode = 0x0903) && (cellWrites x.payload).any fun w => decide (first ≤ w.1 / 64 ∧ w.1 / 64 < first + count)
    || (decide (x.opcode = 0x0905) && decide (u16 x.payload 0 < first + count ∧ first < u16 x.payload 0 + u16 x.payload 2))

/-- A sealed bank scheduled for a commit names a function (R36): the entry. -/
def scheduledNames (fs : List Func) (d : Dev) : Option Nat :=
  (tfind d.cfg.alm fun x => decide ((x.state = 1 ∨ x.state = 2) ∧ x.action = 1) && (bank x.arg d).changes.any fun y =>
    fs.any fun f => (funcsOf y).any (sameFunc f) || match f with
      | .dests a n => namesDest y a n
      | _ => false).head?

/-- The conflict rule for a command outside a bank that changes configuration: R36 for a disable, and R432. -/
def conflict (c : CmdSpec) (a : Args) (d : Dev) : Option Nat :=
  let named := match c.disables with
    | some fs => scheduledNames (fs a.payload d) d
    | none => none
  match named with
  | some e => some e
  | none =>
    if almOrder d = [] then none
    else
      let after := (runSpec c { a with mbx := 0xFF } true d).2
      wouldFail d (if c.stageable then recordChange true ⟨c.opcode, a.payload⟩ after else after)

/-! ### Bank contents (R422, R425) -/

/-- A bank can take more changes: at most 65,536 and 16 MiB of payload. -/
def bankRoom (l more : List Change) : Bool :=
  decide (l.length + more.length ≤ 65536)
    && decide ((l ++ more).foldl (fun n x => n + x.payload.length) 0 ≤ 16777216)

/-- A request becomes changes: an `AUD_CELLS` request one for each destination (R422). -/
def stagedChanges (op : Nat) (p : List Byte) : List Change := if op = 0x0903 then cellChanges p else [⟨op, p⟩]

/-- A staged request (R425): 0x0006 for a bank that is not OPEN, 0x0005 for a full one, else the change's index. -/
def stage (b op : Nat) (p : List Byte) (d : Dev) : Reply × Dev :=
  let x := bank b d
  let l := stagedChanges op p
  if x.state ≠ 1 then ({ status := 0x0006, detail := 0xFB00 + b }, d)
  else if !bankRoom x.changes l then ({ status := 0x0005, detail := 0xFB10 + b }, d)
  else ({ payload := le 4 x.changes.length }, updBank b (fun x => { x with changes := x.changes ++ l }) d)

/-- CFG_EPOCH increments (R431). -/
def bumpEpoch (d : Dev) : Dev := { d with cfg.epoch := d.cfg.epoch + 1 }

/-- A verdict that names no change: the check passes. -/
def Verdict.passes (v : Verdict) : Bool := decide (v.index = 0xFFFFFFFF)

/-- A check in a pair waits for the partner's verdict while the link is UP (R267, R441, R474). -/
def awaitsPartner (d : Dev) : Bool := decide (d.twn.pair = 2) && twinUp d && !d.memc.partnerHeard

/-- BANK_CHECK_COMPLETE (R427): this unit's own check ends, and in a pair its verdict goes to the partner, whose verdict is waited for; then
the check ends with the verdict of both. A seal that passes seals the bank and places its pending flow entries, and every other
end leaves it OPEN. -/
def checkDone (b : Nat) (d : Dev) : Dev :=
  let x := bank b d
  if x.state ≠ 2 then d
  else
    let d := if d.twn.pair = 2 ∧ x.told = false then
        sendInset (ownVerdict b d).passes (updBank b (fun x => { x with told := true }) d)
      else d
    if awaitsPartner d then d
    else
    let v := bankVerdict b d
    let ok := decide (v.index = 0xFFFFFFFF)
    let d := cfgBump gCHECKS (if ok then d else cfgBump gCHECKS_FAILED d)
    let d := updBank b (fun x => { x with verdict := v, state := if ok ∧ x.sealing then 3 else 1 }) d
    let d := if ok ∧ x.sealing then rekeyIfFull (placePending b d).2 else d
    complete x.mbx x.tag (if x.sealing then 0x0B02 else 0x0B03) 0 v.index (useFree { d with memc.partnerHeard := false })

def execBankCheckComplete (b : Nat) (s : State) : Out := onDevIf (fun d => decide (b < 4) && perbyServes d) (checkDone b) s

/-! ### Advent (R435 to R437) -/

/-- ADVENT_START: step 1 of Advent, 500 ms before the instant. In SAFE the entry fails instead. -/
def adventStart (e : Nat) (d : Dev) : Dev :=
  let x := almEntry e d
  if x.state ≠ 1 ∨ d.house < x.instant - 500 * ms then d
  else if d.mode = SAFE then failEntry e { status := 0x0012, epoch := d.cfg.epoch.toNat } d
  else if !perbyServes d then d
  else
    let l := if x.action = 1 then [] else entryChanges x d
    let d := updAlm e (fun y => { y with state := 2, built := l }) d
    let d := if x.action = 1 then updBank x.arg (fun b => { b with state := 5 }) d else d
    let d := postEvent 0x0801 e (le 1 x.action ++ le 1 x.arg) d
    if x.checked = d.cfg.epoch.toNat then d
    else
      let v := entryVerdict e d
      let d := cfgBump gCHECKS d
      let d := if d.twn.pair = 2 then sendInset v.passes d else d
      if v.index = 0xFFFFFFFF then updAlm e (fun y => { y with checked := d.cfg.epoch.toNat, verdict := v }) d
      else failEntry e v (cfgBump gCHECKS_FAILED d)

def execAdventStart (e : Nat) (s : State) : Out := onDevIf (fun _ => decide (e < 256)) (adventStart e) s

/-- The raster that a change works on is bound. -/
def rasterHere (x : Change) (d : Dev) : Bool := decide ((raster (u16 x.payload 0) d).n ≠ 0)

/-- Where a committed change takes effect (R438). A raster that the same commit binds has its timing group from the state
after the commit. -/
def commitPoint (x : Change) (t : Time) (d after : Dev) : Point :=
  match stageSpec x.opcode with
  | none => .strobe t
  | some c =>
    let s := if (x.opcode = 0x0707 ∨ 0x0810 ≤ x.opcode) ∧ x.opcode < 0x0900 ∧ !rasterHere x d then after else d
    match c.commit x.payload s t with
    | .now => .strobe t
    | .frame g u => if groupRuns g s then .frame g u else .strobe t
    | p => p

/-- ADVENT_HANDOVER: steps 2 to 4 of Advent. Perby hands the checked change list to the commit engine, which arms every
block with the instant. -/
def adventHandover (e : Nat) (d : Dev) : Dev :=
  let x := almEntry e d
  if x.state ≠ 2 ∨ x.handed = true ∨ x.instant - 250 * ms < d.house ∨ !perbyServes d then d
  else
    let l := if x.action = 1 then (bank x.arg d).changes else x.built
    let after := (checkOrder l).foldl (fun s y => tryChange y.2 s) d
    let armed := (checkOrder l).map fun y => (⟨commitPoint y.2 x.instant d after, y.2, some e, false⟩ : Waiting)
    updAlm e (fun y => { y with handed := true, built := l }) (masterWorks 7 { d with cfg.waiting := d.cfg.waiting ++ armed })

def execAdventHandover (e : Nat) (s : State) : Out := onDevIf (fun _ => decide (e < 256)) (adventHandover e) s

/-- ADVENT_HANDOVER_DEADLINE: no handover by T − 250 ms fails the entry with 0x0008 (R436). -/
def handoverMissed (e : Nat) (d : Dev) : Dev :=
  let x := almEntry e d
  if x.state = 2 ∧ x.handed = false ∧ x.instant - 250 * ms ≤ d.house then
    failEntry e { status := 0x0008, epoch := d.cfg.epoch.toNat } d
  -- A restart that began before step 1 suspends it too (R437).
  else if x.state = 1 ∧ x.instant - 250 * ms ≤ d.house then
    failEntry e { status := 0x0008, epoch := d.cfg.epoch.toNat } d
  else d

def execAdventHandoverDeadline (e : Nat) (s : State) : Out := onDevIf (fun _ => decide (e < 256)) (handoverMissed e) s

/-! ### The commit (R438 to R440) -/

/-- Entries whose instant has come, handed over and not yet strobed, in ascending entry order within an instant. -/
def strobeDue (d : Dev) : List Nat :=
  (almOrder d).filter fun e => (almEntry e d).handed && !(almEntry e d).strobed && decide ((almEntry e d).instant ≤ d.house)

/-- A bank's pending flow entries become the table's at its commit instant. -/
def strobeTable (e : Nat) (d : Dev) : Dev := if (almEntry e d).action = 1 then commitPending (almEntry e d).arg d else d

/-- COMMIT_STROBE (R439): the entries of the earliest instant that has come: their banks' pending flow entries become the
table's, and strobe-driven blocks apply their armed state. -/
def commitStrobe (d : Dev) : Dev :=
  match strobeDue d with
  | [] => d
  | e :: _ =>
    let t := (almEntry e d).instant
    let group := (strobeDue d).filter fun a => decide ((almEntry a d).instant = t)
    let d := group.foldl (fun d a => strobeTable a (updAlm a (fun y => { y with strobed := true }) d)) d
    settle (applyWaiting (fun w => match w.point with
      | .strobe u => decide (u ≤ t)
      | _ => false) d)

def execCommitStrobe (s : State) : Out := onDev commitStrobe s

/-- A strobed entry with nothing left to apply. -/
def entryApplied (e : Nat) (d : Dev) : Bool :=
  (almEntry e d).strobed && d.cfg.waiting.all fun w => decide (w.armed ≠ some e)

/-- An entry's commit enters the books: the configuration in force, the season, the bank EMPTY, and the entry FREE or
WAITING again. -/
def closeEntry (e : Nat) (d : Dev) : Dev :=
  let x := almEntry e d
  let l := x.built
  let season := entrySeason x d
  let image := if x.action = 1 then (bank x.arg d).image else none
  let d := l.foldl (fun d y => recordChange season.isNone y d) d
  let d := match image with
    | some b => { d with cfg.base := b }
    | none => d
  let d := match season with
    | some s => { d with cfg.season := s }
    | none => d
  let d := if x.action = 1 then updBank x.arg (fun _ => {}) d else d
  updAlm e (fun y => (nextInstant y).getD {}) d

/-- COMMIT_RECORD (R435 step 6): after the last unit of every entry of an instant. One record names the lowest entry; each
entry posts event 0x0802 with the instant as its time. -/
def commitRecord (d : Dev) : Dev :=
  match (almOrder d).find? fun e => (almEntry e d).strobed with
  | none => d
  | some e =>
    let t := (almEntry e d).instant
    let group := (almOrder d).filter fun a => decide ((almEntry a d).instant = t) && (almEntry a d).handed
    if !(group.all fun a => entryApplied a d) then d
    else
      let counts := group.map fun a => (a, (almEntry a d).built.length)
      let d := group.foldl (fun d a => closeEntry a d) d
      let d := bumpEpoch (cfgBump gCOMMITS { d with
        cfg.lastT := t, cfg.lastEntry := e, cfg.lastChanges := total (counts.map (·.2)) })
      counts.foldl (fun d c => postEntry { code := 0x0802, object := c.1, time := ns48 t,
                                           data := le 4 c.2 ++ le 4 d.cfg.epoch.toNat } d) d

def execCommitRecord (s : State) : Out := onDev (fun d => commitRecord (settle d)) s

/-- The top byte of a change's block in the CTL map (R440). -/
def blockOfChange (x : Change) : Nat :=
  match x.opcode / 256 with
  | 0x02 => 0x20
  | 0x03 => 0x30
  | 0x04 => 0x38
  | 0x05 => 0x40
  | 0x06 => 0x58
  | 0x07 => 0x50
  | 0x08 => if 0x0810 ≤ x.opcode then 0x68 else 0x60
  | 0x09 => if 0x0908 ≤ x.opcode then 0x78 else 0x70
  | _ => if 0x0A10 ≤ x.opcode ∧ x.opcode < 0x0A20 then 0x15 else 0x14

/-- A waiting point that has passed. -/
def pointPassed (p : Point) (d : Dev) : Bool :=
  match p with
  | .strobe t => decide (t ≤ d.house)
  | .frame g t => decide (t ≤ tgBoundary g d)
  | .picture e t => decide (t ≤ pictureStart (timGroup (cvTg (engine e d).conf) d)
      (nextOutput (timGroup (cvTg (engine e d).conf) d) d.house) 0 - framePeriod (tgFormat (cvTg (engine e d).conf) d))
  | .block n => decide (n ≤ blockOf d.house)
  | _ => true

/-- An armed change that a reset took from a block, which has left reset (R440). -/
def rearmable (b : Nat) (d : Dev) (w : Waiting) : Bool := w.lost && decide (blockOfChange w.change = b) && !inReset w.change d

/-- BLOCK_REARM (R440): a block that was reset during Advent is armed again. Where its boundary at or after the instant has
passed, LATE_ARMS counts, source 0x0C0 reports and event 0x0804 names the block; what the strobe drives applies at once, and the
rest at its next boundary. -/
def blockRearm (b : Nat) (d : Dev) : Dev :=
  let again := d.cfg.waiting.filter (rearmable b d)
  let late := again.filter fun w => pointPassed w.point d
  let d := { d with cfg.waiting := d.cfg.waiting.map fun w => if rearmable b d w then { w with lost := false } else w }
  match late with
  | [] => d
  | w :: _ =>
    let d := major 0x0C0 b (cfgBump gLATE_ARMS d)
    let d := postEvent 0x0804 (w.armed.getD 0) (le 1 b) d
    applyWaiting (fun w => late.any (fun l => decide (l.change = w.change ∧ l.armed = w.armed)) && (match w.point with
      | .strobe t => decide (t ≤ d.house)
      | _ => false)) d

def execBlockRearm (b : Nat) (s : State) : Out := onDev (blockRearm b) s

end Sys2Proof.Machine
end

