-- ==== Sys2Proof/Machine/Cfg.lean ====
section
/-! DEFINITION. The commands of family 0x0B (R443 to R452): banks, schedules, images, seasons and salvos. -/

namespace Sys2Proof.Machine

/-! ### Words (R430, R449) -/

/-- The 16 bytes of a verdict. -/
def verdictBytes (v : Verdict) : List Byte :=
  le 4 v.index ++ le 2 v.opcode ++ le 2 v.status ++ le 2 v.detail ++ le 1 v.unit ++ le 1 0 ++ le 4 v.epoch

def cfgStatusWord (d : Dev) : Nat :=
  fld d.cfg.season 27 5 + fld (tfind d.cfg.alm fun x => decide (x.state ≠ 0)).length 18 9
    + fld (b2n (d.cfg.alm.any fun x => decide (x.2.state = 2))) 17 1

def bankStatusWord (b : Nat) (d : Dev) : Nat :=
  let x := bank b d
  fld x.state 29 3 + fld x.changes.length 12 17 + fld x.entry 3 9

/-- The four words of a bank. -/
def bankWords (b : Nat) (d : Dev) : List Nat :=
  let v := (bank b d).verdict
  [bankStatusWord b d, v.index, fld v.opcode 16 16 + fld v.status 0 16, fld v.detail 16 16 + fld v.unit 8 8]

/-- The eight words of an Almanac entry; the last is reserved. -/
def almWords (e : Nat) (d : Dev) : List Nat :=
  let x := almEntry e d
  let t := t96 x.instant
  [fld x.state 30 2 + fld x.action 28 2 + fld x.arg 20 8, x.label, x.period, x.count,
   t % 2 ^ 32, t / 2 ^ 32 % 2 ^ 32, t / 2 ^ 64 % 2 ^ 32, 0]

/-- The five words of the commit record. -/
def lastWords (d : Dev) : List Nat :=
  let t := t96 d.cfg.lastT
  [t % 2 ^ 32, t / 2 ^ 32 % 2 ^ 32, t / 2 ^ 64 % 2 ^ 32, fld d.cfg.lastEntry 23 9, d.cfg.lastChanges]

/-! ### Accepting a change outside a bank -/

/-- A command accepted outside a bank takes effect at its point (R438 and the family chapters): now, or when that
comes. -/
def acceptAt (p : Point) (c : CmdSpec) (a : Args) (d : Dev) : Nat × Dev :=
  match p with
  | .now => runSpec c a false d
  | q => (ocNone, { d with cfg.waiting := d.cfg.waiting ++ [⟨q, ⟨c.opcode, a.payload⟩, none, false⟩] })

/-! ### Bank commands (R424 to R427) -/

/-- The bank field and three reserved bytes. -/
def bankFields : List Fld := [rng 0 1 0 3, res 1 3]

def wrongState (b s : Nat) (d : Dev) : Option (Nat × Nat) := refuseIf (decide ((bank b d).state ≠ s)) 0x0010

def cmdCfgBankOpen : CmdSpec where
  opcode := 0x0B01
  len := len 4
  fields _ := bankFields
  check a d := wrongState (u8 a.payload 0) 0 d
  apply a d := updBank (u8 a.payload 0) (fun _ => { state := 1 }) d

/-- The check of an OPEN bank begins (R427). -/
def startCheck (sealing : Bool) (a : Args) (d : Dev) : Dev :=
  updBank (u8 a.payload 0) (fun x => { x with state := 2, told := false, sealing := sealing, mbx := a.mbx, tag := a.tag }) d

def cmdCfgBankSeal : CmdSpec where
  opcode := 0x0B02
  len := len 4
  fields _ := bankFields
  check a d := wrongState (u8 a.payload 0) 1 d
  apply := startCheck true
  reply _ _ _ := { status := 1 }

def cmdCfgBankCheck : CmdSpec where
  opcode := 0x0B03
  len := len 4
  fields _ := bankFields
  check a d := wrongState (u8 a.payload 0) 1 d
  apply := startCheck false
  reply _ _ _ := { status := 1 }

def cmdCfgBankTruncate : CmdSpec where
  opcode := 0x0B04
  len := len 8
  fields _ := bankFields
  check a d := wrongState (u8 a.payload 0) 1 d
  apply a d := updBank (u8 a.payload 0) (fun x => { x with changes := x.changes.take (u32 a.payload 4) }) d

/-- A bank is emptied (R426): a check in progress stops, its entry is freed, its pending flow entries are undone. -/
def abandonBank (b : Nat) (d : Dev) : Dev :=
  let x := bank b d
  let d := if x.state = 2 then
      complete x.mbx x.tag (if x.sealing then 0x0B02 else 0x0B03) 0x0010 0xFFFFFFFF d
    else if x.state = 4 then bumpEpoch (updAlm x.entry (fun _ => {}) d)
    else d
  updBank b (fun _ => {}) (undoPending b d)

def cmdCfgBankAbandon : CmdSpec where
  opcode := 0x0B05
  len := len 4
  fields _ := bankFields
  check a d := firstOf [
    refuseIf (decide ((bank (u8 a.payload 0) d).state = 5)) 0x0015,
    refuseIf (decide ((bank (u8 a.payload 0) d).state = 0)) 0x0010]
  apply a d := abandonBank (u8 a.payload 0) d

/-! ### Records (R443) -/

/-- A change as a command record: opcode, length, payload, and zeros to a multiple of 4 bytes. -/
def recordBytes (x : Change) : List Byte :=
  le 2 x.opcode ++ le 2 x.payload.length ++ x.payload ++ le ((4 - x.payload.length % 4) % 4) 0

/-- As many records as fit in `room` bytes. -/
def fitRecords : Nat → List Change → List (List Byte)
  | _, [] => []
  | room, x :: l => if (recordBytes x).length ≤ room then recordBytes x :: fitRecords (room - (recordBytes x).length) l else []

/-- A record names a stageable command and has its length. -/
def layoutOk (x : Change) : Bool :=
  match stageSpec x.opcode with
  | some c => c.len x.payload
  | none => false

/-- The records of a body, up to the first that is malformed; the Bool says that there is none. -/
def readRecords : Nat → List Byte → List Change × Bool
  | 0, bs => ([], decide (bs = []))
  | n + 1, bs =>
    if bs = [] then ([], true)
    else
      let l := u16 bs 2
      let x : Change := ⟨u16 bs 0, (bs.drop 4).take l⟩
      let pad := (4 - l % 4) % 4
      if bs.length < 4 + l + pad ∨ layoutOk x = false ∨ un pad bs (4 + l) ≠ 0 then ([], false)
      else
        let r := readRecords n (bs.drop (4 + l + pad))
        (x :: r.1, r.2)

/-- The records of a whole body. -/
def bodyRecords (bs : List Byte) : List Change × Bool := readRecords (bs.length / 4 + 1) bs

def cmdCfgBankRead : CmdSpec where
  opcode := 0x0B06
  len := len 8
  fields _ := bankFields
  reply a d _ :=
    let l := fitRecords 4076 ((bank (u8 a.payload 0) d).changes.drop (u32 a.payload 4))
    { payload := le 4 l.length ++ l.flatten }

/-! ### Schedules (R433, R434) -/

/-- The entry that a schedule takes: the one named, or for 0xFF the lowest FREE one (R451). -/
def scheduleEntry (e : Nat) (d : Dev) : Option Nat :=
  if e = 0xFF then (List.range 256).find? fun i => decide ((almEntry i d).state = 0)
  else if (almEntry e d).state = 0 then some e else none

/-- The season or salvo holds nothing, so it cannot be switched to or fired; season 0 is the base configuration. -/
def seasonEmpty (s : Nat) (d : Dev) : Bool := decide (s ≠ 0) && decide (tget d.cfg.seasons s = [])
def salvoEmpty (s : Nat) (d : Dev) : Bool := decide (tget d.cfg.salvos s = [])

/-- A refused schedule: its status, detail and verdict, and no entry. -/
def refusedSchedule (status detail : Nat) (v : Verdict) : Reply :=
  { status := status, detail := detail, payload := verdictBytes v ++ le 1 0xFF ++ le 3 0 }

/-- An entry enters the Almanac, and its bank is SCHEDULED. -/
def placeEntryAt (e : Nat) (x : AlmEntry) (d : Dev) : Dev :=
  let d := updAlm e (fun _ => x) d
  if x.action = 1 then updBank x.arg (fun b => { b with state := 4, entry := e }) d else d

/-- `CFG_SCHEDULE` (R434). A bank whose verdict is of another epoch is checked again first; every later entry is checked
with the new one included. -/
def schedule (p : List Byte) (d : Dev) : Reply × Dev :=
  let action := u8 p 1
  let arg := u8 p 2
  let t := ofT96 (un 12 p 4)
  let now : Verdict := { epoch := d.cfg.epoch.toNat }
  match scheduleEntry (u8 p 0) d with
  | none => (refusedSchedule 0x0013 0 now, d)
  | some e =>
    if action = 1 ∧ (bank arg d).state ≠ 3 then (refusedSchedule 0x0010 0 (bank arg d).verdict, d)
    else if (action = 2 ∧ salvoEmpty arg d = true) ∨ (action = 3 ∧ seasonEmpty arg d = true) then
      (refusedSchedule 0x0017 0 now, d)
    else if t < d.house + 600 * ms then (refusedSchedule 0x0012 0 now, d)
    else
      let stale := decide (action = 1 ∧ (bank arg d).verdict.epoch ≠ d.cfg.epoch.toNat)
      let v := if action = 1 then (if stale then bankVerdict arg d else (bank arg d).verdict) else now
      let d := if stale then updBank arg (fun b => { b with verdict := v }) (useFree (cfgBump gCHECKS d)) else d
      if v.index ≠ 0xFFFFFFFF then
        (refusedSchedule 0x0010 0 v, undoPending arg (updBank arg (fun b => { b with state := 1 }) (cfgBump gCHECKS_FAILED d)))
      else
        let x : AlmEntry := { state := 1, action := action, arg := arg, label := u32 p 24, period := u32 p 16,
                              count := u32 p 20, instant := t }
        let after := placeEntryAt e x d
        let old := failing d
        let later := (almOrder after).filter fun a => decide (a ≠ e) && almBefore e (almEntry a after).instant a after
        match (failing after).find? fun a => later.contains a && !old.contains a with
        | some a => (refusedSchedule 0x0016 a v, d)
        | none =>
          let d := bumpEpoch after
          let ep := d.cfg.epoch.toNat
          let d := updAlm e (fun x => { x with checked := if action = 1 then ep else 2 ^ 32 }) d
          let d := later.foldl (fun d a => updAlm a (fun x => { x with checked := ep }) d) d
          ({ payload := verdictBytes v ++ le 1 e ++ le 3 0 }, d)

/-- The argument that an action accepts. -/
def scheduleArg (p : List Byte) : Fld := rng 2 1 0 (if u8 p 1 = 1 then 3 else if u8 p 1 = 3 then 16 else 255)

def cmdCfgSchedule : CmdSpec where
  opcode := 0x0B07
  len := len 28
  fields p := [rng 1 1 1 3, scheduleArg p, res 3 1, time96 4]
  apply a d := (schedule a.payload d).2
  reply a d _ := (schedule a.payload d).1

/-- An entry is cancelled (R436): the bank of a WAITING entry returns to SEALED. -/
def cancelEntry (e : Nat) (d : Dev) : Dev :=
  let x := almEntry e d
  let d := if x.state = 1 ∧ x.action = 1 then updBank x.arg (fun b => { b with state := 3, entry := 0x1FF }) d else d
  bumpEpoch (updAlm e (fun _ => {}) d)

def cmdCfgCancel : CmdSpec where
  opcode := 0x0B08
  len := len 4
  fields _ := [res 1 3]
  check a d := firstOf [
    refuseIf (decide ((almEntry (u8 a.payload 0) d).state = 2)) 0x0015,
    refuseIf (decide ((almEntry (u8 a.payload 0) d).state = 0)) 0x0010]
  apply a d := cancelEntry (u8 a.payload 0) d

/-! ### Images (R443 to R445) -/

/-- A staging range that ends beyond the region is refused at its offset field (R451). -/
def stagingRange (off n : Nat) : Fld := fok off 4 fun o => decide (o + n ≤ stagingBytes)

/-- The bytes of an image with its header's CRC taken as zero. -/
def withoutCrc (img : List Byte) : List Byte := img.take 60 ++ le 4 0 ++ img.drop 64

/-- The header of an image is as R443 states it. -/
def headerOk (img : List Byte) : Bool :=
  decide (64 ≤ img.length ∧ u32 img 0 = 0x434B5246 ∧ u16 img 4 = 1 ∧ u16 img 6 = 0x0480)
    && (decide (u8 img 8 = 0) || decide (u8 img 8 = (if Config.otpCapacity = .gib24 then 2 else 1)))
    && decide (u8 img 9 ≤ 1 ∧ 1 ≤ u16 img 10 ∧ u16 img 10 ≤ 64 ∧ u32 img 12 = img.length ∧ u8 img 24 ≤ 1 ∧ u8 img 25 ≤ 16)
    && decide (un 34 img 26 = 0 ∧ 64 + 16 * u16 img 10 ≤ img.length)
    && decide (u32 img 60 = (crc32 (withoutCrc img)).toNat)

/-- The type and body of section `i`; none where its table entry or its CRC is wrong. -/
def sectionOf (img : List Byte) (i : Nat) : Option (Nat × List Byte) :=
  let e := img.drop (64 + 16 * i)
  let off := u32 e 4
  let body := (img.drop off).take (u32 e 8)
  if u16 e 2 = 0 ∧ off % 4 = 0 ∧ 64 + 16 * u16 img 10 ≤ off ∧ off + u32 e 8 ≤ img.length
      ∧ u32 e 12 = (crc32 body).toNat
  then some (u16 e 0, body) else none

/-- Equal records of `n` bytes, each with a number field of `w` bytes and reserved bytes to offset 4. -/
def storeRecords (n w : Nat) (body : List Byte) : List (Nat × List Byte) :=
  (chunks n body).map fun c => (un w c 0, c.drop 4)

/-- Every record has its length and a number in range, and its reserved bytes are 0. -/
def storeOk (n w lo hi : Nat) (body : List Byte) : Bool :=
  (chunks n body).all fun c => decide (c.length = n ∧ lo ≤ un w c 0 ∧ un w c 0 ≤ hi ∧ un (4 - w) c w = 0)

/-- The matrix records of a body: destination and its 64 cells (R375). -/
def matrixRecords : Nat → List Byte → Option (List (Nat × List Nat))
  | 0, bs => if bs = [] then some [] else none
  | n + 1, bs =>
    if bs = [] then some []
    else
      let count := u16 bs 2
      if bs.length < 4 + 256 * count then none
      else (matrixRecords n (bs.drop (4 + 256 * count))).map fun l =>
        ((List.range count).map fun i => (u16 bs 0 + i, (List.range 64).map fun k => u32 bs (4 + 256 * i + 4 * k))) ++ l

/-- The destinations of a matrix body. -/
def matrixOf (bs : List Byte) : Option (List (Nat × List Nat)) := matrixRecords (bs.length / 4 + 1) bs

/-- The season of a body: its number and records; the Bool says that it is well formed. -/
def seasonOf (bs : List Byte) : Nat × List Change × Bool :=
  let r := bodyRecords (bs.drop 8)
  (u8 bs 0, r.1, decide (8 ≤ bs.length ∧ 1 ≤ u8 bs 0 ∧ u8 bs 0 ≤ 16 ∧ un 3 bs 1 = 0 ∧ r.1.length = u32 bs 4) && r.2)

/-- The takes of a salvo body. -/
def salvoOf (bs : List Byte) : Nat × List (List Byte) := (u8 bs 0, chunks 24 (bs.drop 4))

/-- A salvo body is well formed: 1 to 1,152 takes of 24 bytes. -/
def salvoOk (bs : List Byte) : Bool :=
  decide (4 ≤ bs.length ∧ u8 bs 1 = 0 ∧ 1 ≤ u16 bs 2 ∧ u16 bs 2 ≤ 1152 ∧ bs.length = 4 + 24 * u16 bs 2)

/-- The first take that names a raster a second time (R448). -/
def repeatedRaster (l : List (List Byte)) : Option Nat :=
  (List.range l.length).find? fun i => (l.take i).any fun p => decide (u16 p 0 = u16 (l.getD i []) 0)

/-- A section is well formed, and what it loads can be loaded (R444). -/
def sectionOk (s : Nat × List Byte) (d : Dev) : Bool :=
  match s.1 with
  | 1 => (bodyRecords s.2).2
  | 2 => (matrixOf s.2).isSome
  | 3 => storeOk 4100 1 4 63 s.2 && (storeRecords 4100 1 s.2).all fun r =>
      bankOk r.2 && (!bankInUse r.1 d || decide (tget d.cnv.banks r.1 = r.2))
  | 4 => storeOk 23052 1 5 31 s.2 && (storeRecords 23052 1 s.2).all fun r =>
      !setInUse r.1 d || decide (tget d.cnv.luts r.1 = r.2)
  | 5 => storeOk 2052 2 0 511 s.2
  | 6 => (seasonOf s.2).2.2 && decide ((seasonOf s.2).2.1.length ≤ 4096)
  | 7 => salvoOk s.2 && (repeatedRaster (salvoOf s.2).2).isNone
  | _ => false

/-- The sections of an image. -/
def imageSections (img : List Byte) : List (Option (Nat × List Byte)) := (List.range (u16 img 10)).map (sectionOf img)

/-- The bodies of a type. -/
def bodies (img : List Byte) (type : Nat) : List (List Byte) :=
  (imageSections img).filterMap fun s => s.bind fun s => if s.1 = type then some s.2 else none

/-- The fault that refuses an image: its section. A fault of the header has none, and what DETAIL says of it is a free
value (log entry 6). -/
def imageFault (img : List Byte) (d : Dev) : Option Nat :=
  if headerOk img = false then some (freeNat d % 65536)
  else (findIdx? (fun s => match s with
    | some s => !sectionOk s d
    | none => true) (imageSections img)).map (·.1)

/-- The word of a cell in force. -/
def wordInForce (cell : Nat) (d : Dev) : Nat :=
  match d.cfg.inForce.find? fun x => decide (objectOf x = objectOf (oneCell cell 0)) with
  | some x => u32 x.payload 8
  | none => 0

/-- The change of one destination whose cells differ from those in force. -/
def matrixChange (m : Nat × List Nat) (d : Dev) : Option Change :=
  let differ := (List.range 64).filter fun k => decide (m.2.getD k 0 ≠ wordInForce (64 * m.1 + k) d)
  match differ.head?, differ.getLast? with
  | some a, some b =>
    some ⟨0x0903, le 2 1 ++ le 2 0 ++ le 2 m.1 ++ le 1 a ++ le 1 (b + 1 - a)
      ++ ((m.2.drop a).take (b + 1 - a)).flatMap (le 4)⟩
  | _, _ => none

/-- The destinations that an image's matrix sections name. -/
def imageMatrix (img : List Byte) : List (Nat × List Nat) := (bodies img 2).flatMap fun b => (matrixOf b).getD []

/-- The base configuration of an image: its command records and its cells. -/
def imageBase (img : List Byte) : List Change :=
  let records := (bodies img 1).flatMap fun b => (bodyRecords b).1
  let cells := (imageMatrix img).flatMap fun m =>
    (List.range 64).filterMap fun k => if m.2.getD k 0 = 0 then none else some (oneCell (64 * m.1 + k) (m.2.getD k 0))
  (records ++ cells).foldl recordIn []

/-- The records of an image's season in force. -/
def imageSeason (img : List Byte) : List Change :=
  if u8 img 25 = 0 then []
  else (((bodies img 6).map seasonOf).filter fun s => decide (s.1 = u8 img 25)).flatMap (·.2.1)

/-- A removal takes the image's DISABLE_MODE where it is a disable. -/
def removalWith (mode : Nat) (x : Change) : Change :=
  let o := disableOffset x.opcode
  if ((stageSpec x.opcode).bind (·.disables)).isSome then
    { x with payload := x.payload.take o ++ le 1 mode ++ x.payload.drop (o + 1) }
  else x

/-- The changes that take the configuration in force to an image's state (R444): removals, then the image's records and
cells in order, those in force already left out. -/
def imageChanges (img : List Byte) (d : Dev) : List Change :=
  let target := (imageSeason img).foldl recordIn (imageBase img)
  let kept (x : Change) : Bool := target.any fun y => decide (objectOf y = objectOf x)
  let inMatrix (x : Change) : Bool :=
    decide (x.opcode = 0x0903) && (imageMatrix img).any fun m => decide (m.1 = u16 x.payload 4)
  let gone := (d.cfg.inForce.filter fun x => !kept x && !inMatrix x).filterMap removalOf
  gone.map (removalWith (u8 img 24))
    ++ (target.filter fun x => !inMatrix x && !inForceAs x d)
    ++ (imageMatrix img).filterMap fun m => matrixChange m d

/-- The image's stores are loaded at once (R444): coefficient banks, table sets, glyphs, seasons and salvos. -/
def loadStores (img : List Byte) (d : Dev) : Dev :=
  let d := ((bodies img 3).flatMap (storeRecords 4100 1)).foldl (fun d r => { d with cnv.banks := tset d.cnv.banks r.1 r.2 }) d
  let d := ((bodies img 4).flatMap (storeRecords 23052 1)).foldl (fun d r => { d with cnv.luts := tset d.cnv.luts r.1 r.2 }) d
  let d := ((bodies img 5).flatMap (storeRecords 2052 2)).foldl (fun d r => loadGlyph r.1 r.2 d) d
  { d with
    cfg.seasons := ((bodies img 6).map seasonOf).foldl (fun t s => tset t s.1 s.2.1) [],
    cfg.salvos := ((bodies img 7).map salvoOf).foldl (fun t s => tset t s.1 s.2) [] }

/-- The image that a `CFG_IMAGE_LOAD` names. -/
def imageAt (a : Args) (d : Dev) : List Byte := stagingRead a.mem d (u32 a.payload 4) (u32 a.payload 8)

def cmdCfgImageLoad : CmdSpec where
  opcode := 0x0B09
  len := len 12
  fields p := bankFields ++ [stagingRange 4 (u32 p 8)]
  check a d :=
    let img := imageAt a d
    firstOf [
      wrongState (u8 a.payload 0) 0 d,
      (imageFault img d).map fun i => (0x0014, i),
      refuseIf (!bankRoom [] (imageChanges img d)) 0x0011]
  apply a d :=
    let img := imageAt a d
    let l := imageChanges img d
    complete a.mbx a.tag 0x0B09 0 0xFFFFFFFF
      (updBank (u8 a.payload 0) (fun _ => { state := 1, changes := l, season := some (u8 img 25), image := some (imageBase img) })
        (loadStores img (useFree d)))
  reply _ _ _ := { status := 1 }

/-- The sections of an image of the present configuration (R445): the base configuration, and the stores that hold
something. -/
def saveSections (d : Dev) : List (Nat × List Byte) :=
  let store (t : Tab (List Byte)) (w : Nat) : List Byte := t.flatMap fun e => le w e.1 ++ le (4 - w) 0 ++ e.2
  [(1, d.cfg.base.flatMap recordBytes)]
    ++ (if d.cnv.banks = [] then [] else [(3, store d.cnv.banks 1)])
    ++ (if d.cnv.luts = [] then [] else [(4, store d.cnv.luts 1)])
    ++ (if d.fab.glyphs = [] then [] else [(5, store d.fab.glyphs 2)])
    ++ (d.cfg.seasons.map fun e => (6, le 1 e.1 ++ le 3 0 ++ le 4 e.2.length ++ e.2.flatMap recordBytes))
    ++ (d.cfg.salvos.map fun e => (7, le 1 e.1 ++ le 1 0 ++ le 2 e.2.length ++ e.2.flatten))

/-- The section table and bodies from an offset. -/
def placeSections : Nat → List (Nat × List Byte) → List Byte × List Byte
  | _, [] => ([], [])
  | off, s :: l =>
    let r := placeSections (off + s.2.length) l
    (le 2 s.1 ++ le 2 0 ++ le 4 off ++ le 4 s.2.length ++ le 4 (crc32 s.2).toNat ++ r.1, s.2 ++ r.2)

/-- An image of sections (R443), with GENERATOR 0. -/
def imageFile (l : List (Nat × List Byte)) (serial mode season : Nat) : List Byte :=
  let r := placeSections (64 + 16 * l.length) l
  let rest := r.1 ++ r.2
  let head := le 4 0x434B5246 ++ le 2 1 ++ le 2 0x0480 ++ le 2 0 ++ le 2 l.length ++ le 4 (64 + rest.length)
    ++ le 8 serial ++ le 1 mode ++ le 1 season ++ le 34 0
  head ++ le 4 (crc32 (head ++ le 4 0 ++ rest)).toNat ++ rest

/-- The image that `CFG_IMAGE_SAVE` writes. Its SERIAL and DISABLE_MODE, which the host sets in images of its own, are free values. -/
def savedImage (d : Dev) : List Byte := imageFile (saveSections d) (freeNat d) (freeNat (useFree d) % 2) d.cfg.season

/-- The addresses of a staging range, with the bytes written there. -/
def stagingWrites (off : Nat) (bs : List Byte) (d : Dev) : List (Nat × Byte) :=
  (List.range bs.length).map fun i => (sysAddr (off + i) d, bs.getD i 0)

/-- The words of the system region that a write of bytes fills whole are good again; a word that it fills in part keeps its
poison (R27, R396). -/
def cleanWords (off n : Nat) (d : Dev) : Dev :=
  let first := (off + 31) / 32
  { d with
    memc.errs := (List.range ((off + n) / 32 - first)).foldl
      (fun t i => tset t (sysAddr (32 * (first + i)) d / 32) []) d.memc.errs }

/-- An image that holds more than 64 sections, or ends beyond the region, cannot be written. -/
def cmdCfgImageSave : CmdSpec where
  opcode := 0x0B0A
  len := len 4
  check a d := firstOf [
    refuseIf (decide (64 < (saveSections d).length)) 0x0011,
    refuseIf (decide (stagingBytes < u32 a.payload 0 + (savedImage d).length)) 0x0004 0]
  apply a d := useFree (useFree (cleanWords (u32 a.payload 0) (savedImage d).length d))
  reply a d _ := { payload := le 4 (u32 a.payload 0) ++ le 4 (savedImage d).length }
  store a d := stagingWrites (u32 a.payload 0) (savedImage d) d

/-! ### Seasons and salvos (R446 to R448) -/

/-- The body that a store command names. -/
def bodyAt (a : Args) (d : Dev) : List Byte := stagingRead a.mem d (u32 a.payload 4) (u32 a.payload 8)

/-- The first record fault of a season body: its index, or a free value where the fault lies before the records. -/
def seasonFault (n : Nat) (bs : List Byte) (d : Dev) : Option Nat :=
  let s := seasonOf bs
  if s.1 ≠ n ∨ bs.length < 8 then some (freeNat d % 65536)
  else if s.2.2 then none
  else some (min s.2.1.length 65535)

def cmdCfgSeasonStore : CmdSpec where
  opcode := 0x0B0B
  len := len 12
  fields p := [rng 0 1 1 16, res 1 3, stagingRange 4 (u32 p 8)]
  check a d :=
    let n := u8 a.payload 0
    let bs := bodyAt a d
    firstOf [
      refuseIf (decide (d.cfg.season = n) || d.cfg.alm.any fun x => decide (x.2.state = 1 ∧ x.2.action = 3 ∧ x.2.arg = n)) 0x0006,
      refuseIf (decide (4096 < u32 bs 4)) 0x0011,
      (seasonFault n bs d).map fun i => (0x0014, i)]
  apply a d := { d with cfg.seasons := tset d.cfg.seasons (u8 a.payload 0) (seasonOf (bodyAt a d)).2.1 }

def cmdCfgSeasonSwitch : CmdSpec where
  opcode := 0x0B0C
  len := len 4
  fields _ := [rng 0 1 0 16, rng 1 1 0 3, res 2 2]
  check a d := firstOf [
    wrongState (u8 a.payload 1) 0 d,
    refuseIf (seasonEmpty (u8 a.payload 0) d) 0x0017,
    refuseIf (!bankRoom [] (seasonSwitch (u8 a.payload 0) d)) 0x0011]
  apply a d := updBank (u8 a.payload 1)
    (fun _ => { state := 1, changes := seasonSwitch (u8 a.payload 0) d, season := some (u8 a.payload 0) }) d
  reply a d _ := { payload := le 4 (seasonSwitch (u8 a.payload 0) d).length }

def cmdCfgSalvoStore : CmdSpec where
  opcode := 0x0B0D
  len := len 12
  fields p := [res 1 3, stagingRange 4 (u32 p 8)]
  check a d :=
    let bs := bodyAt a d
    firstOf [
      refuseIf (decide (1152 < u16 bs 2)) 0x0011,
      refuseIf (!salvoOk bs || decide (u8 bs 0 ≠ u8 a.payload 0)) 0x0014 (freeNat d % 65536),
      (repeatedRaster (salvoOf bs).2).map fun i => (0x0014, i)]
  apply a d := { d with cfg.salvos := tset d.cfg.salvos (u8 a.payload 0) (salvoOf (bodyAt a d)).2 }

/-- The takes of a salvo apply as non-staged takes (R448): none where one fails its check or would make an entry fail. -/
def fireNow (s : Nat) (d : Dev) : Reply × Dev :=
  let l := salvoTakes s d
  let r := checkChanges l d
  match r.1 with
  | some _ => ({ payload := verdictBytes (verdictOf r.1 d) }, d)
  | none =>
    match wouldFail d r.2 with
    | some e => ({ status := 0x0006, detail := e }, d)
    | none =>
      let v := verdictBytes { epoch := d.cfg.epoch.toNat }
      ({ payload := v }, bumpEpoch (l.foldl (fun d x => recordChange true x
        ((stageSpec x.opcode).elim d fun c => (acceptAt (c.point x.payload d) c { payload := x.payload } d).2)) d))

/-- The takes of a salvo are appended to an OPEN bank (R448). -/
def fireInto (s b : Nat) (d : Dev) : Reply × Dev :=
  let x := bank b d
  if x.state ≠ 1 then ({ status := 0x0010 }, d)
  else if bankRoom x.changes (salvoTakes s d) = false then ({ status := 0x0011 }, d)
  else ({ payload := verdictBytes { epoch := d.cfg.epoch.toNat } },
        updBank b (fun x => { x with changes := x.changes ++ salvoTakes s d }) d)

def fireSalvo (p : List Byte) (d : Dev) : Reply × Dev :=
  if u8 p 1 = 0xFF then fireNow (u8 p 0) d else fireInto (u8 p 0) (u8 p 1) d

def cmdCfgSalvoFire : CmdSpec where
  opcode := 0x0B0E
  len := len 4
  fields _ := [fok 1 1 fun b => decide (b ≤ 3 ∨ b = 0xFF), res 2 2]
  check a d := refuseIf (salvoEmpty (u8 a.payload 0) d) 0x0017
  apply a d := (fireSalvo a.payload d).2
  reply a d _ := (fireSalvo a.payload d).1

def cmdCfgStatusRead : CmdSpec where
  opcode := 0x0B0F
  len := len 0
  safe := true
  reply _ d _ :=
    { payload := le 4 (cfgStatusWord d) ++ le 4 d.cfg.epoch.toNat
        ++ (List.range 4).flatMap (fun b => (bankWords b d).flatMap (le 4))
        ++ (lastWords d).flatMap (le 4) ++ le 4 0 ++ ctrBytes d.cfg.ctrs 0 5 }

def family0B : List CmdSpec :=
  [cmdCfgBankOpen, cmdCfgBankSeal, cmdCfgBankCheck, cmdCfgBankTruncate, cmdCfgBankAbandon, cmdCfgBankRead, cmdCfgSchedule,
   cmdCfgCancel, cmdCfgImageLoad, cmdCfgImageSave, cmdCfgSeasonStore, cmdCfgSeasonSwitch, cmdCfgSalvoStore,
   cmdCfgSalvoFire, cmdCfgStatusRead]

/-! ### `MEMC_ADMIT_REPORT` (R273), which reads a sealed bank's configuration -/

/-- The configuration that a report is about: that in force, or the one after a sealed bank's commit. -/
def reportedConfig (p : List Byte) (d : Dev) : Dev :=
  if u8 p 0 = 0 then d
  else
    let b := u8 p 1
    let s := (almOrder d).foldl (fun s e =>
      if (almEntry e d).action = 1 ∧ (almEntry e d).arg = b then s else simEntry e s) d
    (checkOrder (bank b d).changes).foldl (fun s x => tryChange x.2 s) (undoPending b s)

def cmdMemcAdmitReport : CmdSpec where
  opcode := 0x0603
  len := len 4
  fields _ := [res 2 2]
  check a d := firstOf [
    refuseIf (decide (1 < u8 a.payload 0 ∨ 3 < u8 a.payload 1)) 0x0011,
    refuseIf (decide (u8 a.payload 0 = 1 ∧ (bank (u8 a.payload 1) d).state < 3)) 0x0014]
  reply a d _ := { payload := admitReport (u8 a.payload 0) (reportedConfig a.payload d) }

def family06 : List CmdSpec :=
  [cmdMemcRingConfig, cmdMemcRingRead, cmdMemcAdmitReport, cmdMemcPcRetire, cmdMemcErrorConfig, cmdMemcScrubConfig,
   cmdMemcHolidayConfig, cmdMemcStatusRead, cmdMemcWindow]

end Sys2Proof.Machine
end

