-- ==== Sys2Proof/Machine/Twn.lean ====
section
/-! DEFINITION. Chapter 13: the twin link, claims, pairing, the slip ledger, handover, the loss of the partner and Vigil;
the commands of family 0x0C and the events of the chapter. -/

namespace Sys2Proof.Machine

def updTwn (f : Twn → Twn) (d : Dev) : Dev := { d with twn := f d.twn }

/-! ### Link frames (R455, R456) -/

/-- Sequence number `a` lies before `b`, modulo 2^32. -/
def seqBefore (a b : Nat) : Bool := let n := (b + 2 ^ 32 - a) % 2 ^ 32; decide (0 < n ∧ n < 2 ^ 31)

/-- The partner's acknowledgement frees the frames before it. -/
def ackFrames (ack : Nat) (d : Dev) : Dev :=
  let keep := d.twn.replay.filter fun f => !seqBefore f.seq ack
  if keep = d.twn.replay then d else { d with twn.replay := keep, twn.ackAt := d.up }

/-- Held frames are released while they fit, by rank and in order within a rank (R455). The fuel is their number. -/
def releaseHeld : Nat → Dev → Dev
  | 0, d => d
  | n + 1, d =>
    match (List.range 4).findSome? fun r => findIdx? (fun m : TwinMsg => decide (twinRank m.type = r)) d.twn.holding with
    | none => d
    | some (i, m) =>
      if replayWords d.twn.replay + 1 + m.words ≤ 4096 then
        releaseHeld n (sendTwin m { d with twn.holding := d.twn.holding.eraseIdx i })
      else d

/-- The checker of the words of a link frame (R23, R26, R455, R495), those in error given; the first word takes an injection. Whether
one of them is uncorrectable. -/
def checkLinkWords (errs : List SymErr) (d : Dev) : Bool × Dev :=
  (if errs = [] then [[]] else errs).foldl (fun (a : Bool × Dev) e =>
    let out := injectedOutcome e (injSymbols 0x0D0 a.2)
    let d := if out = .poisoned then twnBump tWORD_UE 1 a.2 else a.2
    (a.1 || decide (out = .poisoned), checkerReport 0x0D0 0 (checkOutcome e) out d)) (false, d)

/-- A link frame is received (R455): one with an uncorrectable word or out of sequence is discarded; every other delivers
its message once and acknowledges. -/
def receiveFrame (h : LinkHdr) (body : Dev → Dev) (d : Dev) : Dev :=
  if !twinUp d then d
  else
    let (bad, d) := checkLinkWords h.errs { d with twn.heardAt := d.up }
    if bad ∨ h.seq ≠ d.twn.rxSeq then d
    else
      let d := ackFrames h.ack { d with twn.rxSeq := (d.twn.rxSeq + 1) % 2 ^ 32 }
      body (releaseHeld d.twn.holding.length d)

/-- REPLAY_TIMEOUT (R455): 10 us without progress of the acknowledgement resends every unacknowledged frame. -/
def execReplayTimeout (s : State) : Out :=
  onDevIf (fun d => twinUp d && decide (d.twn.replay ≠ [] ∧ d.twn.ackAt + 10 * us ≤ d.up))
    (fun d => d.twn.replay.foldl (fun d f =>
        let (f, d) := depart f d
        putWords (frameWords f d.twn.rxSeq) { d with twn.replay := d.twn.replay ++ [f] })
      (twnBump tRETRANSMIT d.twn.replay.length { d with twn.ackAt := d.up, twn.replay := [] })) s

/-- TWIN_LINK_DOWN (R454): no valid block for 100 us. Fewer than three lanes bring the link down as the lane leaves UP. -/
def execTwinLinkDown (s : State) : Out :=
  onDevIf (fun d => twinUp d && decide (d.twn.heardAt + 100 * us ≤ d.up)) linkFell s

/-- What HELLO carries (R456). -/
def helloOf (d : Dev) : HelloMsg :=
  ⟨BitVec.ofNat 32 (devIdWord d), d.host.version, d.twn.unit, d.mode, claimSupplied d, max d.twn.e d.twn.eMax, d.cfg.epoch,
   d.aud.rate96, d.twn.pair⟩

/-- What HEARTBEAT carries (R456). -/
def heartbeatOf (d : Dev) : HeartbeatMsg :=
  ⟨d.mode, d.twn.role, claimSupplied d, max d.twn.e d.twn.eMax, d.cfg.epoch, d.twn.mirrorSeq, d.twn.fit, d.tim.ref.state⟩

/-- INSET goes out when the in-service set of a unit of a pair has changed (R456). -/
def insetDue (d : Dev) : Dev :=
  if d.twn.pair ≠ 0 ∧ twinUp d = true ∧ d.memc.set ≠ d.twn.insetSent then sendInset true d else d

/-- The four receivers of the twin group are UP. -/
def twinLanesUp (d : Dev) : Bool :=
  let order (l : Nat) := (lane (192 + l) d).order
  ((List.range 4).all fun l => decide ((lane (192 + l) d).rxState = 4))
    && (List.range 4).all fun k => (List.range 4).any fun l => decide (order l = k)

/-- Digests of a raster are compared without being judged for its next 4 frames (R477). -/
def holdJudgement (d : Dev) : Dev :=
  { d with twn.judgeFrom := (rasters d).foldl (fun t e => tset t e (tgIndex (timGroup (rasterTg e d) d) d.house + 5)) d.twn.judgeFrom }

/-- TWIN_LINK_UP (R456): the link returns with its sequence numbers at 0, and HELLO is sent. -/
def linkRose (d : Dev) : Dev :=
  let d := laneSet [0, 1, 2, 3] { d with
    twn.link := 2, twn.txSeq := 0, twn.rxSeq := 0, twn.turn := 0, twn.replay := [], twn.holding := [], twn.hello := none, twn.lastBeat := d.up, twn.heardAt := d.up,
    twn.timeOut := [], twn.timeIn := none }
  holdJudgement (sendTwin (.hello (helloOf d)) d)

def execTwinLinkUp (s : State) : Out :=
  onDevIf (fun d => blocksRun d && !twinUp d && twinLanesUp d && d.twn.peerUp && !d.flt.inReset.contains (0x0A, 0)
    && !d.flt.quarantine.contains (0x0A, 0)) linkRose s

/-! ### Vigil (R476 to R478) -/

/-- A test's result by number. -/
def testCode (t : Nat) (d : Dev) : Nat := tget d.twn.vigil t

/-- The eight tests as they stand (R477): 0 not run, 1 pass, 2 warn, 3 fail. No message carries the partner's RUNNING
bits, so V7 is a free value among pass and warn. -/
def vigilTests (d : Dev) : List Nat :=
  let t := d.twn
  let v1 := if t.rasterRun.any (fun e => decide (t.mismatch ≤ e.2)) then 3 else if t.rasterRun = [] then 1 else 2
  let v2 := if t.laneRun.any (fun e => decide (64 ≤ e.2)) then 3 else if t.laneRun = [] then 1 else 2
  let v3 := if t.missRun.any (fun e => decide (2 ≤ e.2)) then 3
    else (match t.lastMiss with
      | some m => if d.up < m + sec then 2 else 1
      | none => 1)
  let v4 := if absQ t.theta ≤ (t.timeTol : Rat) then 1 else 3
  let v5 := if t.mirrorSeq = t.partnerMirror ∧ t.stale = false then 1 else 3
  let v6 := match t.newKeys with
    | some (f, p) => if d.flows.tbl.key = f ∧ d.memc.key = p then 1 else 3
    | none => 3
  let v7 := freeNat d % 2 + 1
  let seen := match t.claimAt with
    | some a => decide (d.up < a + sec)
    | none => false
  let other := (List.range 8).any fun n => bitOf t.ackPins n && decide (tget t.ack n = 2)
  let v8 := if seen && other then 1 else 2
  [v1, v2, v3, v4, v5, v6, v7, v8]

/-- The first failing test, 1 to 8, or 0. -/
def firstFailing (l : List Nat) : Nat :=
  match findIdx? (fun v => decide (v = 3)) l with
  | some (i, _) => i + 1
  | none => 0

/-- Fitness changes (R478): event 0x0704, and the Vigil source reports a loss. -/
def setFit (f : Bool) (d : Dev) : Dev :=
  if f = d.twn.fit then d
  else
    let bad := firstFailing ((List.range 8).map fun t => testCode t d)
    let d := postEvent 0x0704 0 (le 1 (b2n f) ++ le 1 bad) { d with twn.fit := f, twn.fitAt := d.house }
    if f then d else major 0x0D4 0 d

/-- Vigil runs in SHADOW, with the link UP and no resync under way (R477). -/
def vigilRuns (d : Dev) : Bool := decide (roleMode d = SHADOW ∧ d.twn.pair = 2) && twinUp d && !d.twn.resync

/-- The tests are evaluated: while V1 to V6 all pass the time counts from when they began to; when one does not, the shadow is not
FIT (R478). -/
def vigil (d : Dev) : Dev :=
  if !vigilRuns d then setFit false { d with twn.vigil := [], twn.passSince := none }
  else
    let l := vigilTests d
    let d := useFree { d with twn.vigil := ((List.range 8).foldl (fun t i => tset t i (l.getD i 0)) []) }
    if (l.take 6).all (· = 1) then { d with twn.passSince := some (d.twn.passSince.getD d.up) }
    else setFit false { d with twn.passSince := none }

/-- VIGIL_SETTLE (R478): V1 to V6 have passed for SETTLE seconds. -/
def execVigilSettle (s : State) : Out :=
  onDevIf (fun d => vigilRuns d && !d.twn.fit && (match d.twn.passSince with
      | some t => decide (t + (d.twn.settle : Rat) * sec ≤ d.up)
      | none => false)) (setFit true) s

/-! ### Roles (R473, R511) -/

/-- The unit takes a role (R473): SOLO none, LEAD lead, SHADOW shadow. While CONTAINED is set the mode is DEGRADED. The
suppression and the wait for an acknowledgement end. -/
def goRole (m : Nat) (d : Dev) : Dev :=
  let role := if m = LEAD then 1 else if m = SHADOW then 2 else 0
  let d := { d with twn.role := role, twn.suppress := false, twn.takenAt := none }
  let d := if d.flt.contained = false then setMode m d
    else if d.mode = READY then setMode DEGRADED (setMode m d) else setMode DEGRADED d
  vigil (noteClaim d)

/-- A handover that can no longer take place is given up; its command completes with 0x0010. -/
def dropPlan (d : Dev) : Dev :=
  match d.twn.plan with
  | none => d
  | some p =>
    let d := { d with twn.plan := none }
    match p.mbx with
    | some (m, t) => complete m t 0x0C04 0x0010 0 d
    | none => d

/-- The unit enters HANDOVER (R473) with the claim and the role that it holds. -/
def enterHandover (d : Dev) : Dev :=
  let d := dropPlan { d with
    twn.held := claimSupplied d, twn.entryRole := if roleMode d = LEAD then 1 else 2, twn.enteredAt := d.up, twn.pair := 3,
    twn.beat := false, twn.contested := true, twn.takenAt := none, twn.resync := false, twn.judgedAt := d.up - 100 * us }
  vigil (twnBump tHB_LOST 1 (setMode HANDOVER d))

/-- A unit whose partner's loss counts (R473): paired, in LEAD or SHADOW or in DEGRADED with that role. -/
def inPairRole (d : Dev) : Bool := decide (d.twn.pair = 2 ∧ (roleMode d = LEAD ∨ roleMode d = SHADOW))

/-- HEARTBEAT_TIMEOUT (R473): no HEARTBEAT for HB_TIMEOUT. -/
def heartbeatLost (d : Dev) : Dev :=
  let d := { d with twn.beat := false }
  if inPairRole d then postEvent 0x0701 0 (le 1 d.twn.link) (enterHandover d) else d

def execHeartbeatTimeout (s : State) : Out :=
  onDevIf (fun d => d.twn.beat && decide (d.twn.lastBeat + (d.twn.hb : Rat) * ms / 2 ≤ d.up)) heartbeatLost s

/-- W of R463: twice the longest frame period of the groups that have rasters, or 100 ms. -/
def decisionWindow (d : Dev) : Time :=
  match slowestPeriod d with
  | some p => 2 * p
  | none => 100 * ms

/-- A new claim is taken (R459): epoch E_max + 1, role 0b11. -/
def takeClaim (d : Dev) : Dev :=
  let n := max d.twn.e d.twn.eMax + 1
  if 0xFFFF < n then
    (if d.twn.exhausted then d else major 0x0D2 0 { d with twn.exhausted := true })
  else
    let d := if 0xFF00 ≤ n then major 0x0D1 0 d else d
    let d := twnBump tCLAIMS_TAKEN 1 (noteClaim { d with
      twn.e := n, twn.eMax := n, twn.held := BitVec.ofNat 32 (n * 65536 + 3 * 16384 + d.twn.unit), twn.takenAt := some d.house })
    if d.twn.ackPins = 0 then goRole SOLO d else d

/-- A used pin decodes to a state. -/
def anyPin (st : Nat) (d : Dev) : Bool := (List.range 8).any fun n => bitOf d.twn.ackPins n && decide (tget d.twn.ack n = st)

/-- WITNESS_JUDGEMENT (R473): the table of judgement in HANDOVER. -/
def judge (d : Dev) : Dev :=
  let w := decisionWindow d
  let shown := match d.twn.witAt with
    | some t => decide (d.up < t + w)
    | none => false
  if d.twn.leaveSeen then (if d.twn.takenAt.isNone then takeClaim d else d)
  else if anyPin 2 d then goRole SHADOW { d with twn.e := max d.twn.e d.twn.eMax }
  else if shown && decide (d.twn.held.toNat < d.twn.witClaim.toNat) then
    goRole SHADOW { d with twn.e := d.twn.witClaim.toNat / 65536 }
  else if shown && d.twn.takenAt.isNone then
    (if d.twn.entryRole = 1 then goRole LEAD d else d)
  else if d.twn.takenAt.isNone ∧ d.twn.enteredAt + w ≤ d.up then takeClaim d
  else d

/-- In HANDOVER the witnesses are judged on entry and every 100 us. -/
def execWitnessJudgement (s : State) : Out :=
  onDevIf (fun d => decide (d.mode = HANDOVER ∧ d.twn.judgedAt + 100 * us ≤ d.up)) (fun d => judge { d with twn.judgedAt := d.up }) s

/-! ### CLAIM_ACK (R461, R464) -/

/-- The slowest timing group that has rasters. -/
def slowestGroup (d : Dev) : Option Nat :=
  (slowestPeriod d).bind fun p => (((rasters d).map fun e => rasterTg e d).find? fun g => decide (framePeriod (tgFormat g d) = p))

/-- The first frame that carries a claim taken at `t`, and the frame period, of the slowest timing group (R464). Where no
group has a raster the frame is half of W. -/
def claimFrame (t : Time) (d : Dev) : Time × Time :=
  match slowestGroup d with
  | some g => (tgTime (timGroup g d) (tgNext (timGroup g d) t), framePeriod (tgFormat g d))
  | none => (t, decisionWindow d / 2)

/-- The rising edges of a pin: every other change of its level. -/
def risingEdges (p : PinTrace) : Nat := if p.start then p.changes / 2 else (p.changes + 1) / 2

/-- A pin's state (R461): 1 ACK, 2 OTHER, 0 NONE. -/
def pinState (p : PinTrace) : Nat := if p.start ∧ p.changes = 0 then 1 else if 3 ≤ risingEdges p then 2 else 0

/-- A claim has not been acknowledged (R464): merged flows are suppressed. -/
def unacked (d : Dev) : Dev :=
  postEvent 0x0703 0 (le 4 d.twn.held.toNat) (major 0x0D3 0 (twnBump tUNACKED 1 { d with twn.suppress := true }))

/-- The window of a new claim's acknowledgement has passed (R464): two frames after the first that carries it. -/
def windowPassed (d : Dev) : Bool :=
  !d.twn.suppress && decide (d.mode = HANDOVER) && (match d.twn.takenAt with
    | some t => decide ((claimFrame t d).1 + 2 * (claimFrame t d).2 < d.house)
    | none => false)

/-- CLAIM_ACK_DECODE (R461, R464): the used pins are decoded. An ACK within the window acknowledges a new claim, and ends a
suppression at any time. -/
def decodePins (pins : List PinTrace) (d : Dev) : Dev :=
  let d := if windowPassed d then unacked d else d
  let d := { d with
    twn.ackSampled := d.up,
    twn.ack := (List.range 8).foldl (fun t n => tset t n
      (if bitOf d.twn.ackPins n then ((pins.map pinState).getD n 0) else 0)) d.twn.ack }
  match d.twn.takenAt with
  | none => if anyPin 1 d then { d with twn.suppress := false } else d
  | some t =>
    let f := claimFrame t d
    if anyPin 1 d && (d.twn.suppress || decide (f.1 + f.2 ≤ d.house)) then
      (if d.mode = HANDOVER then goRole SOLO d else { d with twn.suppress := false, twn.takenAt := none })
    else d

def execClaimAckDecode (pins : List PinTrace) (s : State) : Out :=
  onDevIf (fun d => blocksRun d && decide (d.twn.ackSampled + 100 * us ≤ d.up)) (decodePins pins) s

/-- CLAIM_ACK_WINDOW (R464): two frames after the first that carries it a claim is not acknowledged; merged flows are
suppressed. -/
def execClaimAckWindow (s : State) : Out :=
  onDevIf (fun d => !d.twn.suppress && decide (d.mode = HANDOVER) && (match d.twn.takenAt with
      | some t => decide ((claimFrame t d).1 + 2 * (claimFrame t d).2 ≤ d.house)
      | none => false))
    unacked s

/-! ### Pairing and resync (R469, R470) -/

/-- Bytes of the staging region that a command reads, from the offset that its payload gives at byte 4. -/
def stagedLength (op : Nat) (p : List Byte) : Nat :=
  match op with
  | 0x0806 => 4096
  | 0x0807 => 23048
  | 0x0B09 | 0x0B0B | 0x0B0D => u32 p 8
  | _ => 0

/-- The lead sends a mirror record, its body cut over frames; the sequence goes on while the link is DOWN (R455, R466, R474). -/
def sendMirror (r : MirrorRec) (d : Dev) : Dev :=
  let d := { d with twn.mirrorSeq := d.twn.mirrorSeq + 1 }
  let parts := match chunks 2016 (r.payload ++ r.data) with
    | [] => [[]]
    | l => l
  parts.zipIdx.foldl (fun d x => sendTwin (.mirror ⟨d.twn.mirrorSeq, r.stage, r.opcode, r.payload.length, x.1, r.instant,
    decide (x.2 + 1 < parts.length)⟩) d) d

/-- A point as an instant (R466): the frame boundary, output frame or block; of a change that waits for a unit's own frame, or for
nothing, now. -/
def pointInstant (p : Point) (d : Dev) : Time :=
  match p with
  | .strobe t | .frame _ t | .picture _ t => t
  | .block n => (n : Rat) * (125 * us)
  | .now | .laneFrame _ | .flowFrame _ => d.house

/-- The mirror record of a command or staged request that the lead accepts (R466). -/
def mirrorOf (stage : Option Nat) (op : Nat) (a : Args) (t : Time) (d : Dev) : MirrorRec :=
  ⟨stage, op, a.payload, stagingRead a.mem d (u32 a.payload 4) (stagedLength op a.payload), t⟩

/-- An image whose section 1 holds records. -/
def recordImage (l : List Change) (season : Nat) : List Byte := imageFile [(1, l.flatMap recordBytes)] 0 0 season

/-- The records that copy a bank (R469 step 4): it is opened, its changes are staged, and it is sealed. One that puts a season or
a base configuration in force names it in a record of its own, its bank number plus 0x80. -/
def bankCopy (b : Nat) (x : Bank) (t : Time) : List MirrorRec :=
  let r (op : Nat) (p data : List Byte) : MirrorRec := ⟨none, op, p, data, t⟩
  let head := le 1 b ++ le 3 0
  if x.state = 0 then [] else
    [r 0x0B01 head []]
      ++ (match x.image with
        | some l => let img := recordImage l (x.season.getD 0); [r 0x0B09 (le 1 (0x80 + b) ++ le 3 0 ++ le 4 0 ++ le 4 img.length) img]
        | none => match x.season with
          | some s => [r 0x0B0C (le 1 s ++ le 1 (0x80 + b) ++ le 2 0) []]
          | none => [])
      ++ x.changes.map (fun c => ⟨some b, c.opcode, c.payload, [], t⟩)
      ++ (if 3 ≤ x.state then [r 0x0B02 head []] else [])

/-- The record that copies an Almanac entry that waits or is in Advent: the schedule that names it. -/
def entryCopy (e : Nat) (x : AlmEntry) (t : Time) : List MirrorRec :=
  if x.state = 1 ∨ x.state = 2 then
    [⟨none, 0x0B07, le 1 e ++ le 1 x.action ++ le 1 x.arg ++ le 1 0 ++ le 12 (t96 x.instant) ++ le 4 x.period ++ le 4 x.count ++ le 4 x.label,
      [], t⟩]
  else []

/-- The copy (R469 step 4): the configuration in force and the stores, as an image that a record for no bank carries, then the
banks and the Almanac entries; every record names T_m. -/
def copyRecords (t : Time) (d : Dev) : List MirrorRec :=
  let img := savedImage d
  ⟨none, 0x0B09, le 1 0xFF ++ le 3 0 ++ le 4 0 ++ le 4 img.length, img, t⟩
    :: (d.cfg.banks.flatMap (fun b => bankCopy b.1 b.2 t) ++ d.cfg.alm.flatMap fun e => entryCopy e.1 e.2 t)

/-- Steps 3 and 4 on the lead: KEYS, with a switch instant at least 10 ms ahead, the copy, SEQ of each enabled send flow, and T_m, which
lies 600 ms ahead; both instants are later by a free value. -/
def startCopy (d : Dev) : Dev :=
  let tm : Time := d.house + 600 * ms + (freeNat d : Rat)
  let d := sendTwin (.keys d.flows.tbl.key d.memc.key (d.house + 10 * ms + (freeNat (useFree d) : Rat))) (useFree (useFree d))
  let d := (copyRecords tm d).foldl (fun d r => sendMirror r d) (useFree (useFree d))
  let flows := (tfind d.flows.tx fun x => x.en).map fun n => (n, (txFlow n d).seq)
  let d := (chunks 256 flows).foldl (fun d l => sendTwin (.seq l) d) { d with twn.step := 4, twn.tm := some tm }
  sendInset true d

/-- A resync starts (R470) on the unit that leads; the shadow collects what it then sends. -/
def startResync (d : Dev) : Dev := vigil (startCopy { d with twn.resync := true })

/-- The units are compatible (R469). -/
def compatible (m : HelloMsg) (d : Dev) : Bool :=
  decide (m.devId.toNat / 2 ^ 20 = 0x480 ∧ m.version.toNat / 65536 = d.host.version.toNat / 65536)
    && decide (m.rate = d.aud.rate96) && decide (m.unit ≠ 0 ∧ d.twn.unit ≠ 0 ∧ m.unit ≠ d.twn.unit)

/-- The `TWN_PAIR` that waits is answered. -/
def answerPair (status : Nat) (d : Dev) : Dev :=
  match d.twn.pairCmd with
  | some (m, t) => complete m t 0x0C02 status 0 { d with twn.pairCmd := none }
  | none => d

/-- A unit of that mode is in service. -/
def modeServes (m : Nat) : Bool := decide (SOLO ≤ m ∧ m ≤ DEGRADED)

/-- The unit is to be the lead (R469). -/
def isLead (m : HelloMsg) (d : Dev) : Bool :=
  if inService d ≠ modeServes m.mode then inService d
  else if inService d then decide (m.claim.toNat < (claimSupplied d).toNat)
  else decide (m.unit < d.twn.unit)

/-- Pairing begins (R469 step 1): compatibility is checked and the roles are fixed; the shadow sets E to the lead's. -/
def beginPairing (m : HelloMsg) (d : Dev) : Dev :=
  if !compatible m d then answerPair 0x0011 { d with twn.pair := 0, twn.step := 0 }
  else
    let lead := isLead m d
    let d := { d with
      twn.held := claimSupplied d, twn.pair := 1, twn.step := 2, twn.isShadow := !lead, twn.stepped := false,
      twn.ledgerOn := false, twn.resync := false, twn.mirrored := [], twn.tm := none, twn.ts := none }
    if lead then d
    else select { d with twn.e := if m.claim = 0 then m.epochMax else m.claim.toNat / 65536 }

/-- A pairing in force resumes when the link returns (R470, R473): the unit with the higher claim leads. After a contest a
resync follows. -/
def resumePair (m : HelloMsg) (d : Dev) : Dev :=
  let contest := d.twn.contested || decide (m.pairing = 3)
  let d := { d with twn.pair := 2, twn.contested := false }
  if m.claim.toNat < (claimSupplied d).toNat then
    let d := if roleMode d = LEAD then d else goRole LEAD d
    if contest || d.twn.resync || d.twn.stale then startResync d else { d with twn.ledgerOn := true }
  else
    let d := { d with twn.e := m.claim.toNat / 65536, twn.resync := d.twn.resync || contest, twn.mirrored := [], twn.tm := none }
    goRole SHADOW d

/-- HELLO (R456, R469, R470). -/
def helloReceived (m : HelloMsg) (d : Dev) : Dev :=
  let d := { d with
    twn.hello := some m, twn.partnerUnit := m.unit, twn.partnerClaim := m.claim, twn.leaveSeen := false,
    twn.eMax := max d.twn.eMax (max m.epochMax (m.claim.toNat / 65536)) }
  if 2 ≤ d.twn.pair ∧ 2 ≤ m.pairing ∧ inService d = true then resumePair m d
  else if d.twn.pair = 1 ∧ m.pairing = 1 ∧ d.twn.step = 0 then beginPairing m d
  else d

def execHello (h : LinkHdr) (m : HelloMsg) (s : State) : Out := onDev (receiveFrame h (helloReceived m)) s

/-- HEARTBEAT (R456, R473, R478). In HANDOVER a partner that is heard again ends the contest; the mirror sequences show
what either unit missed (R466, R474). -/
def heartbeatReceived (m : HeartbeatMsg) (d : Dev) : Dev :=
  let d := { d with
    twn.beat := true, twn.lastBeat := d.up, twn.partnerClaim := m.claim, twn.partnerFit := m.fit,
    twn.partnerRef := m.refState, twn.partnerMirror := m.mirrorSeq,
    twn.eMax := max d.twn.eMax (max m.epochMax (m.claim.toNat / 65536)) }
  let quiet := !(d.twn.replay.any fun f => decide (f.msg.type = 0x07)) && !(d.twn.holding.any fun m => decide (m.type = 0x07))
  let d :=
    if d.mode = HANDOVER ∧ d.twn.leaveSeen = false ∧ modeServes m.mode = true then
      (match d.twn.hello with
       | some h => resumePair { h with claim := m.claim, mode := m.mode, epochMax := m.epochMax, pairing := 2 } d
       | none => d)
    else if d.twn.pair = 2 ∧ roleMode d = LEAD ∧ d.twn.resync = false ∧ quiet = true ∧ m.mirrorSeq ≠ d.twn.mirrorSeq then
      startResync { d with twn.stale := true }
    else if d.twn.pair = 2 ∧ roleMode d = SHADOW ∧ d.twn.offline = true ∧ m.mirrorSeq ≠ d.twn.mirrorSeq then
      { d with twn.stale := true, twn.resync := true, twn.mirrored := [], twn.tm := none }
    else d
  vigil { d with twn.offline := false }

def execHeartbeat (h : LinkHdr) (m : HeartbeatMsg) (s : State) : Out := onDev (receiveFrame h (heartbeatReceived m)) s

/-- HEARTBEAT_SEND (R456): every 100 us. -/
def execHeartbeatSend (s : State) : Out :=
  onDevIf (fun d => twinUp d && decide (d.twn.lastHbSent + 100 * us ≤ d.up))
    (fun d => sendTwin (.heartbeat (heartbeatOf d)) { d with twn.lastHbSent := d.up }) s

/-- TIME_SEND (R457): every 1 ms. -/
def execTimeSend (s : State) : Out :=
  onDevIf (fun d => twinUp d && decide (d.twn.lastTimeSent + ms ≤ d.up))
    (fun d => sendTwin (.time d.house (d.twn.timeIn.getD 0)) { d with twn.lastTimeSent := d.up }) s

/-- Step 2 of pairing (R469) as an offset is measured: a READY shadow whose partner candidate is active is stepped to the
partner; the step ends when the offset lies within TIME_TOL, and the lead then sends its keys and configuration. -/
def pairingOffset (d : Dev) : Dev :=
  if d.twn.pair ≠ 1 ∨ d.twn.step ≠ 2 then d
  else
    let a := d.tim.ref.active
    let d := if d.twn.isShadow ∧ d.mode = READY ∧ d.twn.stepped = false ∧ a < 16 ∧ (cand a d).kind = 6 then
        { alignTo a d with twn.stepped := true }
      else d
    if (d.twn.timeTol : Rat) < absQ d.twn.theta then d
    else if d.twn.isShadow then { d with twn.step := 3 }
    else startCopy { d with twn.step := 3 }

/-- A new offset (R457): TWN_OFFSET shows it, and it is the partner candidate's phase, which a glitch does not reach (R58). -/
def offsetMeasured (theta : Time) (d : Dev) : Dev :=
  let d := match candOf 6 0 d with
    | some n => if selectorRuns d then measurePhase n (d.house + theta) d else d
    | none => d
  vigil (pairingOffset { d with twn.theta := theta })

/-- TIME (R457): θ = ((t2 − t1) − (t4 − t3)) ÷ 2 − ASYM, t1 being the departure of this unit's last TIME frame that the partner
acknowledges, t2 its arrival there, t3 the departure of the frame received and t4 its arrival here. -/
def timeReceived (ack : Nat) (departure arrival : Time) (d : Dev) : Dev :=
  let now := stamped d.house d
  let heard := d.twn.timeOut.filter fun x => seqBefore x.1 ack
  let d := { d with
    twn.timeIn := some now,
    twn.timeOut := heard.getLast?.toList ++ d.twn.timeOut.filter fun x => !seqBefore x.1 ack }
  match heard.getLast? with
  | none => d
  | some x => offsetMeasured (((arrival - x.2) - (now - departure)) / 2 - (d.twn.asym : Rat)) d

def execTime (h : LinkHdr) (leftS : Nat) (leftNs : Time) (cameS : Nat) (cameNs : Time) (s : State) : Out :=
  onDev (receiveFrame h (timeReceived h.ack (leftS * sec + leftNs) (cameS * sec + cameNs))) s

/-- The unit takes the lead's items: it is the shadow, or is to become it. -/
def takesFromLead (d : Dev) : Bool := decide (roleMode d = SHADOW) || (decide (d.twn.pair = 1) && d.twn.isShadow)

/-- The placement key is adopted (R243, R269): every ring migrates; a retirement in progress is let finish first. -/
def adoptPlacementKey (k : BitVec 128) (d : Dev) : Dev :=
  if d.memc.keyState ≠ 0 ∧ d.memc.key = k then { d with memc.keyState := 2 }
  else if d.memc.retire.isSome then { d with memc.newKey := some k }
  else newPlaceEpoch { d with memc.key := k, memc.keyState := 2 }

/-- The lead's flow key is adopted by a re-key that switches at the named instant (R199, R200); a table with no key takes it
at once. -/
def adoptFlowKey (k : BitVec 128) (t : Time) (d : Dev) : Dev :=
  let b := d.flows.tbl
  if b.state = 0 then { d with flows.tbl := { b with state := 1, key := k } }
  else if b.key = k ∧ b.state = 1 then d
  else { d with
    flows.tbl := { b with state := 2, newKey := k, spare := [], placed := false, switchAt := some t,
                          switched := none } }

/-- KEYS (R200, R243, R469 step 3). While a pairing or a resync is under way they open the copy. -/
def keysReceived (fk pk : BitVec 128) (t : Time) (d : Dev) : Dev :=
  if !takesFromLead d then d
  else
    let d := { d with twn.newKeys := some (fk, pk) }
    let d := if d.twn.pair = 1 ∨ d.twn.resync ∨ d.twn.stale then
        { d with twn.mirrored := [], twn.tm := none, twn.step := 4, twn.resync := d.twn.resync || decide (d.twn.pair = 2) }
      else d
    vigil (adoptPlacementKey pk (adoptFlowKey fk t d))

def execKeys (h : LinkHdr) (fk pk : BitVec 128) (t : Time) (s : State) : Out := onDev (receiveFrame h (keysReceived fk pk t)) s

/-! ### The slip ledger (R467, R468) -/

/-- One ledger entry is kept for the choice that it names. A correction comes too late to be applied. -/
def ledgerEntry (x : LedgerEntry) (d : Dev) : Dev :=
  match x with
  | .route slot k start take hold dly =>
    updRaster slot (fun r => if r.n = 0 then r else
      { r with ledger := (r.ledger.filter fun l => decide (l.k ≠ k)) ++ [⟨k, start, take, hold, dly⟩] }) d
  | .converter e j q sa sb w corr none_ =>
    if corr then d
    else updEngine e (fun y => if y.conf = [] then y else
      { y with ledger := (y.ledger.filter fun l => !decide (l.j = j ∧ l.q = q)) ++ [⟨j, q, sa, sb, w, none_⟩] }) d
  | .alignment kind id index =>
    (tfind d.aud.srcs fun c => decide (c.kind = kind ∧ producerId c = id)).foldl
      (fun d c => updSrc c (fun y => { y with align := some index }) d) d
  | .rateConverter c n r p => updSrc c (fun y => if y.kind = 0 then y else { y with ratio := some (n, r, p) }) d

/-- LEDGER (R467): entries arrive, one in each payload word; a word of another type holds none. -/
def ledgerReceived (words : List (BitVec 256)) (d : Dev) : Dev :=
  if !takesFromLead d then d else (words.filterMap ledgerOf).foldl (fun d x => ledgerEntry x d) { d with twn.ledgerOn := true }

def execLedger (h : LinkHdr) (words : List (BitVec 256)) (s : State) : Out := onDev (receiveFrame h (ledgerReceived words)) s

/-! ### Digests (R476, R477) -/

/-- The codes of line `y` of a picture, plane after plane; a 4:2:0 chroma row belongs to the upper row of its pair (R238). -/
def lineCodes (sampling y : Nat) (pic : Planes) : List Nat :=
  let up := decide (sampling = 6 ∨ sampling = 7)
  pic.zipIdx.flatMap fun p =>
    let row := if p.2 = 1 ∧ up then (if y % 2 = 0 then p.1.getD (y / 2) [] else []) else p.1.getD y []
    row.map (toCode (codeBits sampling))

/-- The digest of a line of a picture (R476): each code in 2 bytes, little-endian, in the order sent. -/
def lineDigest (sampling y : Nat) (pic : Planes) : Word :=
  let cs := lineCodes sampling y pic
  crc32 ((List.range cs.length).flatMap fun i => le 2 (cs.getD (Config.sentPlace sampling cs.length i % cs.length) 0))

/-- The device's own digest of a raster's line: of the frame being sent or of the one before. Of any other frame it is a
free value. -/
def ownLine (e k y i : Nat) (d : Dev) : Word :=
  let x := raster e d
  if k = x.frame then lineDigest x.sampling y x.sent
  else if k + 1 = x.frame then lineDigest x.sampling y x.prior
  else (Config.freeValue (d.free + i)).setWidth 32

/-- The samples of block `n` of a destination, where they are still at hand. -/
def samplesOf (c n : Nat) (d : Dev) : Option (List Sample) :=
  if n + 1 = d.aud.block then some (audDst c d).now else if n + 2 = d.aud.block then some (audDst c d).out else none

/-- The device's own digest of a MAC lane's block (R376, R476). -/
def ownLane (l n : Nat) (d : Dev) : Option Word :=
  let cs := (tfind d.aud.dsts (·.en)).filter fun c => decide (c % 128 = l)
  (cs.mapM fun c => samplesOf c n d).map fun ss => crc32 ((ss.flatten).flatMap fun s => le 4 (twos 32 (sampleInt s)))

/-- The lead's digests of the frame that each raster of a group has sent (R476): 512 to a frame of the link. -/
def frameDigests (tg k : Nat) (d : Dev) : Dev :=
  if !ledgerLead d || !twinUp d then d
  else
    let es := (rasters d).filter fun e => decide ((raster e d).tg = tg ∧ (raster e d).prior ≠ [])
    let l := es.flatMap fun e => (List.range (activeLines (tgFormat tg d))).map fun y =>
      (e, k, y, lineDigest (raster e d).sampling y (raster e d).prior)
    (chunks 512 l).foldl (fun d c => sendTwin (.digest ⟨c, []⟩) d) d

/-- The lead's digests of the block just mixed, one for each MAC lane (R476). -/
def blockDigests (d : Dev) : Dev :=
  if !ledgerLead d || !twinUp d then d
  else
    let n := d.aud.block - 1
    sendTwin (.digest ⟨[], (List.range 128).filterMap fun l => (ownLane l n d).map fun c => (l, n, c)⟩) d

/-- A run of mismatches in a row goes on, or ends. -/
def runOn (bad : Bool) (t : Tab Nat) (k : Nat) : Tab Nat := tset t k (if bad then tget t k + 1 else 0)

/-- The lead's digests of one raster's frame are compared. -/
def compareRaster (e : Nat) (ls : List (Nat × Nat × Nat × Word)) (d : Dev) : Dev :=
  let ix := (List.range ls.length).zip ls
  let bad := ix.filter fun x => decide (x.2.2.2.2 ≠ ownLine e x.2.2.1 x.2.2.2.1 x.1 d)
  let k := (ls.map fun l => l.2.1).headD 0
  let judged := decide (tget d.twn.judgeFrom e ≤ k)
  let d := { twnBump tLINES_COMPARED ls.length (twnBump tLINES_MISMATCH bad.length d) with free := d.free + ls.length }
  { d with
    twn.rasterRun := if judged then runOn (bad ≠ []) d.twn.rasterRun e else d.twn.rasterRun,
    twn.badRasters := (d.twn.badRasters.filter fun x => decide (x ≠ e)) ++ (if bad = [] then [] else [e]) }

/-- One of the lead's lane digests is compared. -/
def compareLane (x : Nat × Nat × Word) (d : Dev) : Dev :=
  match ownLane x.1 x.2.1 d with
  | none => d
  | some c =>
    let bad := decide (c ≠ x.2.2)
    let d := if bad then twnBump tAUDIO_MISMATCH 1 d else d
    { d with twn.laneRun := runOn bad d.twn.laneRun x.1 }

/-- DIGEST (R477). -/
def digestReceived (m : DigestMsg) (d : Dev) : Dev :=
  if roleMode d ≠ SHADOW then d
  else
    let es := ((m.lines.map (·.1)).eraseDups).filter fun e => decide ((raster e d).n ≠ 0)
    let d := es.foldl (fun d e => compareRaster e (m.lines.filter fun l => decide (l.1 = e)) d) d
    vigil (m.lanes.foldl (fun d x => compareLane x d) d)

def execDigest (h : LinkHdr) (m : DigestMsg) (s : State) : Out := onDev (receiveFrame h (digestReceived m)) s

/-! ### The mirror (R441, R466) -/

/-- A command that the mirror can carry. -/
def mirrorSpec (op : Nat) : Option CmdSpec := (stageTable ++ family0B).find? fun c => decide (c.opcode = op)

/-- A record is applied: a staged request to its bank; a command of family 0x0B to the banks, stores and Almanac; every other
at the same instant as on the lead. The staging bytes that it reads are those that it brings. A record whose instant has passed
sets MIRROR_STALE, and a resync starts. -/
def applyMirror (m : MirrorRec) (mem : Mem) (d : Dev) : Dev :=
  match m.stage, mirrorSpec m.opcode with
  | some b, _ => (stage b m.opcode m.payload d).2
  | none, none => d
  | none, some c =>
    let a : Args := {
      payload := m.payload,
      mem := (stagingWrites (u32 m.payload 4) m.data d).foldl (fun m w => Mem.write m w.1 w.2) mem }
    if m.opcode / 256 = 0x0B then c.apply a d
    else
      let keep (d : Dev) : Dev := bumpEpoch (if c.stageable then recordChange true ⟨c.opcode, m.payload⟩ d else d)
      match c.point m.payload d with
      | .now => keep (runSpec c a false d).2
      | .laneFrame n => keep (acceptAt (.laneFrame n) c a d).2
      | .flowFrame n => keep (acceptAt (.flowFrame n) c a d).2
      | _ =>
        if m.instant < d.house then { d with twn.stale := true, twn.resync := true }
        else match c.commit m.payload d m.instant with
        | .strobe _ => keep (runSpec c a false d).2
        | p => keep (acceptAt p c a d).2

/-- MIRROR (R466, R469 step 4): a record whose parts have all come is applied; the records of a pairing or resync are kept for T_m, which
they name. -/
def mirrorReceived (m : MirrorMsg) (mem : Mem) (d : Dev) : Dev :=
  let collects := decide (d.twn.step = 4 ∧ (d.twn.pair = 1 ∨ d.twn.resync = true))
  if !takesFromLead d ∨ (!collects && d.twn.stale) = true then d
  else if !collects ∧ m.seq ≠ d.twn.mirrorSeq + 1 then vigil { d with twn.stale := true, twn.resync := true, twn.part := [] }
  else if m.more then { d with twn.part := d.twn.part ++ m.body }
  else
    let bytes := d.twn.part ++ m.body
    let r : MirrorRec := ⟨m.stage, m.opcode, bytes.take m.len, bytes.drop m.len, m.instant⟩
    let d := { d with twn.part := [] }
    if collects then
      { d with twn.mirrored := d.twn.mirrored ++ [r], twn.mirrorSeq := m.seq, twn.tm := some (d.twn.tm.getD m.instant) }
    else
      let d := applyMirror r mem d
      vigil (settle (if d.twn.stale then d else { d with twn.mirrorSeq := m.seq }))

def execMirror (h : LinkHdr) (m : MirrorMsg) (s : State) : Out := onDev (receiveFrame h (mirrorReceived m s.hbm)) s

/-- INSET (R267): the partner's in-service set, a bit for each pseudo-channel, and its check's verdict. -/
def insetReceived (lo hi : Word) (pass : Bool) (d : Dev) : Dev :=
  let v := lo.toNat + hi.toNat * 2 ^ 32
  let set := (List.range 64).filter (bitOf v)
  -- A report of a set already known is a check's.
  let check := decide (d.memc.partnerSet = some set)
  { d with memc.partnerHeard := d.memc.partnerHeard || check, memc.partnerSet := some set,
           memc.partnerOk := if check then pass else d.memc.partnerOk }

def execInset (h : LinkHdr) (lo hi : Word) (pass : Bool) (s : State) : Out := onDev (receiveFrame h (insetReceived lo hi pass)) s

/-- SEQ (R465): each counter takes the lead's number. -/
def seqReceived (l : List (Nat × Nat)) (d : Dev) : Dev :=
  if !takesFromLead d then d
  else l.foldl (fun d x => updTxFlow x.1 (fun f => if f.type = 0 then f else { f with seq := x.2 % 2 ^ 32 }) d) d

def execSeq (h : LinkHdr) (l : List (Nat × Nat)) (s : State) : Out := onDev (receiveFrame h (seqReceived l)) s

/-- An object of a unit-local command (R466). -/
def localChange (x : Change) : Bool :=
  match stageSpec x.opcode with
  | some c => c.unitLocal
  | none => true

/-- The lead's configuration takes the place of the shadow's own, and its stores that of the shadow's; objects of unit-local commands
stay (R466, R469 step 5). -/
def adoptImage (img : List Byte) (d : Dev) : Dev :=
  let d := loadStores img { d with cnv.banks := [], cnv.luts := [], fab.glyphs := [] }
  let l := (imageChanges img d).filter fun x => !localChange x
  let own := d.cfg.base.filter localChange
  let d := (checkOrder l).foldl (fun d x => recordChange true x.2 (runChange false x.2 d)) d
  { d with cfg.base := own ++ (imageBase img).filter (fun x => !localChange x), cfg.season := u8 img 25 }

/-- A copied bank is sealed: the lead's seal has passed, and the shadow's own check gives its verdict (R474). -/
def adoptSeal (b : Nat) (d : Dev) : Dev :=
  let v := ownVerdict b d
  (placePending b (updBank b (fun x => { x with verdict := v, state := if v.passes then 3 else 1 }) d)).2

/-- A record of the copy takes effect. -/
def applyCopy (mem : Mem) (d : Dev) (m : MirrorRec) : Dev :=
  let p := m.payload
  if m.stage.isSome then applyMirror m mem d
  else if m.opcode = 0x0B09 ∧ u8 p 0 = 0xFF then adoptImage m.data d
  else if m.opcode = 0x0B09 ∧ 0x80 ≤ u8 p 0 then
    updBank (u8 p 0 - 0x80) (fun x => { x with
      image := some (imageBase m.data), season := if u8 m.data 25 = 0 then none else some (u8 m.data 25) }) d
  else if m.opcode = 0x0B0C ∧ 0x80 ≤ u8 p 1 then updBank (u8 p 1 - 0x80) (fun x => { x with season := some (u8 p 0) }) d
  else if m.opcode = 0x0B02 then adoptSeal (u8 p 0) d
  else if m.opcode = 0x0B07 then
    placeEntryAt ((scheduleEntry (u8 p 0) d).getD 0)
      { state := 1, action := u8 p 1, arg := u8 p 2, label := u32 p 24, period := u32 p 16, count := u32 p 20,
        instant := ofT96 (un 12 p 4), checked := 2 ^ 32 } d
  else applyMirror m mem d

/-- The shadow commits the copy (R469 step 5): its own banks, Almanac entries and armed changes go, and the lead's take their place. -/
def commitCopy (mem : Mem) (d : Dev) : Dev :=
  let d := (List.range 4).foldl (fun d b => undoPending b d) d
  let l := d.twn.mirrored
  let d := { d with
    twn.mirrored := [], cfg.banks := [], cfg.alm := [], cfg.waiting := d.cfg.waiting.filter fun w => w.armed.isNone }
  bumpEpoch (l.foldl (applyCopy mem) d)

/-- PAIRING_COMMIT (R469 step 5, R470): at T_m the shadow commits the lead's configuration and the ledger starts. A resync is
then complete. -/
def pairingCommit (mem : Mem) (d : Dev) : Dev :=
  let tm := d.twn.tm.getD d.house
  let d := if takesFromLead d then (let d := commitCopy mem d; sendInset (admitted d) d) else d
  let d := { d with twn.ledgerOn := true, twn.tm := none, twn.stale := false }
  if d.twn.pair = 1 then { d with twn.step := 5, twn.ts := some (tm + sec) }
  else
    let span := 4 * (slowestPeriod d).getD 0
    let d := vigil (holdJudgement (twnBump tRESYNCS 1 { d with twn.resync := false, twn.step := 0 }))
    let d := { d with twn.passSince := d.twn.passSince.map (· + span) }
    postEvent 0x0705 d.twn.partnerUnit (le 1 2) d

def execPairingCommit (s : State) : Out :=
  onDevIf (fun d => (decide (d.twn.pair = 1) || d.twn.resync) && decide (d.twn.step = 4) && (match d.twn.tm with
      | some t => decide (t ≤ d.house)
      | none => false)) (fun d => settle (pairingCommit s.hbm d)) s

/-- PAIRING_SERVICE (R469 step 6): at T_s the shadow enters SHADOW and the lead LEAD; `TWN_PAIR` completes. -/
def pairingService (d : Dev) : Dev :=
  let lead := !d.twn.isShadow
  let d := goRole (if lead then LEAD else SHADOW) { d with twn.pair := 2, twn.step := 0, twn.ts := none, twn.contested := false }
  postEvent 0x0705 d.twn.partnerUnit (le 1 1) (answerPair 0 d)

def execPairingService (s : State) : Out :=
  onDevIf (fun d => decide (d.twn.pair = 1 ∧ d.twn.step = 5) && blocksRun d && (match d.twn.ts with
      | some t => decide (t ≤ d.house)
      | none => false)) pairingService s

/-! ### Planned handover and LEAVE (R471, R472) -/

/-- HANDOVER (R471): the shadow learns the instant and the new epoch. -/
def execHandover (h : LinkHdr) (t : Time) (epoch : Nat) (s : State) : Out :=
  onDev (receiveFrame h fun d =>
    if inPairRole d && decide (roleMode d = SHADOW) then { d with twn.plan := some ⟨t, epoch, none⟩ } else d) s

/-- HANDOVER_BOUNDARY (R471): at the first frame boundary at or after T the roles and claims swap. The claims of the other
timing groups' outputs change with their own first boundaries, where each frame takes the claim supplied. -/
def swapRoles (p : HandoverPlan) (d : Dev) : Dev :=
  let lead := decide (roleMode d = LEAD)
  let d := { d with twn.plan := none, twn.e := p.epoch, twn.eMax := max d.twn.eMax p.epoch }
  let d := if 0xFF00 ≤ p.epoch then major 0x0D1 0 d else d
  let d := twnBump tHANDOVERS 1 (holdJudgement (goRole (if lead then SHADOW else LEAD) d))
  match p.mbx with
  | some (m, t) => complete m t 0x0C04 0 0 d
  | none => d

def execHandoverBoundary (tg : Nat) (s : State) : Out :=
  onDev (fun d => match d.twn.plan with
    | none => d
    | some p =>
      if inPairRole d && decide (p.t ≤ d.house) && (decide (p.t ≤ tgBoundary tg d) || decide (rasters d = [])) then swapRoles p d
      else d) s

/-- LEAVE (R472): on unpair the lead enters SOLO; on SAFE or removal the unit acts under R473 without waiting for W. -/
def leaveReceived (reason : Nat) (d : Dev) : Dev :=
  if reason = 1 then
    let d := { d with memc.partnerSet := none, memc.partnerHeard := false, twn.insetSent := [] }
    let d := answerPair 0x0014 (dropPlan { d with
      twn.pair := 0, twn.step := 0, twn.resync := false, twn.stale := false, twn.ledgerOn := false })
    if roleMode d = LEAD then goRole SOLO d else vigil d
  else if inPairRole d then enterHandover { d with twn.leaveSeen := true }
  else if d.mode = HANDOVER then { d with twn.leaveSeen := true }
  else d

def execLeave (h : LinkHdr) (reason : Nat) (s : State) : Out :=
  onDev (receiveFrame h fun d => if d.twn.pair = 0 then d else leaveReceived reason d) s

/-! ### Registers (R479) -/

def twnCfgWord (d : Dev) : Nat :=
  fld d.twn.unit 24 8 + fld d.twn.ackPins 16 8 + fld (b2n d.twn.soloClaim) 15 1 + fld d.twn.hb 10 5

/-- TWN_STATUS; FIT is the shadow's own fitness, or on the lead what the shadow reports. -/
def twnStatusWord (d : Dev) : Nat :=
  let t := d.twn
  let role := if d.mode = HANDOVER then 3 else t.role
  let fit := if roleMode d = LEAD then t.partnerFit else t.fit
  fld t.link 29 3 + fld role 27 2 + fld t.pair 25 2 + fld (b2n t.beat) 24 1 + fld (b2n t.ledgerOn) 23 1 + fld (b2n t.stale) 22 1
    + fld (b2n fit) 21 1 + fld (b2n t.suppress) 20 1 + fld t.partnerUnit 12 8 + fld (t.lanes.foldl (fun n l => n + 2 ^ l) 0) 8 4

def twnAckWord (d : Dev) : Nat :=
  (List.range 8).foldl (fun n i => n + fld (if bitOf d.twn.ackPins i then tget d.twn.ack i else 3) (2 * i) 2) 0

/-- θ as a signed number of ns, saturating. -/
def twnOffsetWord (d : Dev) : Nat :=
  let e := d.twn.theta
  let n : Int := if 0 ≤ e then e.floor else -((-e).floor)
  let m : Int := 2147483647
  twos 32 (if m < n then m else if n < -m then -m else n)

def twnVigilWord (d : Dev) : Nat := (List.range 8).foldl (fun n t => n + fld (testCode t d) (16 + 2 * t) 2) 0

/-- The eight registers. -/
def twnWords (d : Dev) : List Nat :=
  [twnCfgWord d, twnStatusWord d, (claimSupplied d).toNat, d.twn.partnerClaim.toNat, twnAckWord d, twnOffsetWord d, twnVigilWord d,
   fld d.twn.e 16 16 + fld d.twn.eMax 0 16]

/-! ### Commands of family 0x0C (R480 to R482) -/

def cmdTwnConfig : CmdSpec where
  opcode := 0x0C01
  len := len 16
  fields _ := [rng 0 1 0 254, rng 2 1 1 20, rng 3 1 0 1, rng 4 2 100 10000, rng 6 1 1 60, rng 7 1 1 60, res 12 4]
  config := true
  unitLocal := true
  check a d := refuseIf (decide (u8 a.payload 0 ≠ d.twn.unit ∧ d.twn.pair ≠ 0)) 0x0014
  apply a d :=
    let p := a.payload
    vigil (noteClaim { d with
      twn.unit := u8 p 0, twn.ackPins := u8 p 1, twn.hb := u8 p 2, twn.soloClaim := decide (u8 p 3 = 1), twn.timeTol := u16 p 4,
      twn.mismatch := u8 p 6, twn.settle := u8 p 7, twn.asym := i32 p 8 })

/-- The partner's last HELLO says that it has accepted `TWN_PAIR`. -/
def partnerAsks (d : Dev) : Option HelloMsg := d.twn.hello.filter fun m => decide (m.pairing = 1)

def cmdTwnPair : CmdSpec where
  opcode := 0x0C02
  len := len 4
  fields _ := [res 0 4]
  unitLocal := true
  check _ d := firstOf [
    refuseIf (decide (d.mode ≠ READY ∧ roleMode d ≠ SOLO)) 0x0007,
    refuseIf (decide (d.twn.unit = 0) || (match d.twn.hello with
      | some m => decide (m.unit = d.twn.unit)
      | none => false)) 0x0012,
    refuseIf (!twinUp d) 0x0010,
    refuseIf (decide (d.twn.pair = 1 ∨ d.twn.pair = 2)) 0x0014,
    refuseIf (match partnerAsks d with
      | some m => !compatible m d
      | none => false) 0x0011]
  apply a d :=
    let d := { d with twn.pair := 1, twn.step := 0, twn.pairCmd := some (a.mbx, a.tag) }
    let d := sendTwin (.hello (helloOf d)) d
    match partnerAsks d with
    | some m => beginPairing m d
    | none => d
  reply _ _ _ := { status := 1 }

def cmdTwnUnpair : CmdSpec where
  opcode := 0x0C03
  len := len 4
  fields _ := [disableWord]
  unitLocal := true
  check _ d := refuseIf (decide (roleMode d ≠ SHADOW ∨ d.twn.pair = 0)) 0x0014
  disables := some fun _ _ => [.service]
  ahead _ d := sendTwin (.leave 1) d

/-- A scheduled activation lies within 1 s of an instant (R535). -/
def nearActivation (t : Time) (d : Dev) : Bool := decide (6 ≤ d.upd.state) && decide (absQ (d.upd.instant - t) ≤ sec)

/-- A WAITING entry's instant lies within 500 ms. -/
def nearInstant (t : Time) (d : Dev) : Bool :=
  d.cfg.alm.any fun e => decide (e.2.state = 1 ∧ absQ (e.2.instant - t) < 500 * ms)

def cmdTwnHandover : CmdSpec where
  opcode := 0x0C04
  len := len 16
  fields _ := [time96 0, res 12 4]
  unitLocal := true
  check a d :=
    let t := ofT96 (un 12 a.payload 0)
    firstOf [
      refuseIf (decide (d.twn.pair ≠ 2 ∨ roleMode d ≠ LEAD) || d.twn.plan.isSome) 0x0014,
      refuseIf (!twinUp d) 0x0010,
      refuseIf (!d.twn.partnerFit) 0x0013,
      refuseIf (decide (t < d.house + 600 * ms) || nearInstant t d || nearActivation t d) 0x0016,
      refuseIf (decide (0xFFFF < d.twn.e + 1)) 0x0015]
  apply a d :=
    let t := ofT96 (un 12 a.payload 0)
    sendTwin (.handover t (d.twn.e + 1)) { d with twn.plan := some ⟨t, d.twn.e + 1, some (a.mbx, a.tag)⟩ }
  reply _ _ _ := { status := 1 }

def cmdTwnStatusRead : CmdSpec where
  opcode := 0x0C05
  len := len 0
  unitLocal := true
  safe := true
  reply _ d _ := { payload := (twnWords d).flatMap (le 4) ++ ctrBytes d.twn.ctrs 0 14 }

def cmdTwnHealthRead : CmdSpec where
  opcode := 0x0C06
  len := len 0
  unitLocal := true
  safe := true
  reply _ d _ :=
    let bad := d.twn.badRasters.mergeSort fun x y => decide (x ≤ y)
    { payload := le 4 (twnVigilWord d) ++ le 4 (b2n d.twn.fit) ++ le 12 (t96 d.twn.fitAt)
        ++ (List.range 16).flatMap fun i => le 2 (bad.getD i 0xFFFF) }

def cmdTwnEpochSet : CmdSpec where
  opcode := 0x0C07
  len := len 4
  fields _ := [res 2 2]
  config := true
  unitLocal := true
  check _ d := refuseIf (decide (d.mode ≠ READY ∧ d.mode ≠ MAINTENANCE)) 0x0007
  apply a d := { d with twn.e := u16 a.payload 0, twn.eMax := u16 a.payload 0, twn.exhausted := false }

def family0C : List CmdSpec :=
  [cmdTwnConfig, cmdTwnPair, cmdTwnUnpair, cmdTwnHandover, cmdTwnStatusRead, cmdTwnHealthRead, cmdTwnEpochSet]

end Sys2Proof.Machine
end

