-- ==== Sys2Proof/Machine/Flt.lean ====
section
/-! DEFINITION. Chapter 14: injection, wire checks, consequence windows, device resets, audits on request and the monitors;
the commands of family 0x0D and the events of this chapter. The collector's own reactions stand in Faults. -/

namespace Sys2Proof.Machine

def updSource (s : Nat) (f : Source → Source) (d : Dev) : Dev := { d with flt.sources := tupd d.flt.sources s f }

/-- The source is implemented (R484). -/
def implemented (s : Nat) : Bool := decide (s < 1024) && (srcInfo s).isSome

/-! ### Registers (R494, R507) -/

/-- The 24 bytes of a record before its reserved bytes. -/
def recordHead (r : FltRecord) : List Byte :=
  le 2 r.source ++ le 1 (b2n r.major) ++ le 1 (r.sev + 8 * b2n r.fixed) ++ le 1 r.flags ++ le 1 r.mode ++ le 2 r.code
    ++ le 8 r.time ++ le 4 r.inst ++ le 4 r.further

/-- FLT_FIRST. -/
def fltFirstBytes (d : Dev) : List Byte := recordHead d.flt.first ++ le 8 0

/-- FLT_PRIOR, with the prior FATAL_SRC at byte 24. -/
def fltPriorBytes (d : Dev) : List Byte := recordHead d.flt.prior ++ le 2 d.flt.priorFatal ++ le 6 0

/-- An injection is active. -/
def injecting (d : Dev) : Bool := d.flt.sources.any fun e => e.2.inj.isSome

def fltStatusWord (d : Dev) : Nat :=
  fld (b2n d.flt.valid) 31 1 + fld (b2n d.flt.fatal) 30 1 + fld (b2n d.flt.contained) 29 1 + fld (b2n (injecting d)) 28 1
    + fld d.flt.fatalSrc 18 10 + fld (min (d.flt.windows.filter fun w => windowOpen w d).length 255) 10 8

/-- FLT_SEV of a source; 0 where it is not implemented. -/
def fltSevWord (s : Nat) (d : Dev) : Nat :=
  match srcInfo s with
  | none => 0
  | some i =>
    let x := tget d.flt.sources s
    fld (b2n i.locked) 31 1 + fld (if i.fatal then 4 else 3) 28 3 + fld i.domain 24 4 + fld (b2n x.broken) 23 1
      + fld (sevMajor s i d) 4 3 + fld x.sevMinor 0 3

def rstCauseWord (d : Dev) : Nat := fld d.rst.last 28 4

/-! ### Reports (R484, R491, R495 to R497) -/

/-- A mode 0 injection is pending at a source. -/
def maskArmed (s : Nat) (d : Dev) : Bool :=
  match (tget d.flt.sources s).inj with
  | some j => decide (j.mode = 0)
  | none => false

/-- A report arrives over a source's wire and detail path. One whose wire is broken and whose detail word was lost reaches
nothing (R492); one that an inversion caused or accompanied spends the injection. -/
def faultReport (r : Report) (d : Dev) : Dev :=
  let spends := r.injected || r.coincident
  if implemented r.src = false ∨ (r.injected = true ∧ r.coincident = true) ∨ (spends = true ∧ maskArmed r.src d = false) then d
  else
    let lost := (tget d.flt.sources r.src).broken && r.detailLost
    let d := if lost then d else collect r d
    let d := if r.src = 0x3D1 ∧ r.major then spoilSample (!r.injected) d else d
    if spends then spendInjection r.src d else d

def execFaultReport (r : Report) (s : State) : Out := onDevIf (fun d => decide (d.mode ≠ HELD)) (faultReport r) s

/-- INJECTED_REPORT (R495): the next forced report of a mode 1 injection. The manual states no detail code for it, which is a
free value. -/
def injectedReport (s : Nat) (d : Dev) : Dev :=
  match (tget d.flt.sources s).inj with
  | none => d
  | some j =>
    if j.mode ≠ 1 then d
    else spendInjection s (collect { src := s, major := j.major, code := freeNat d % 65536, inst := j.inst, further := 0,
                                     injected := true, coincident := false, detailLost := false } (useFree d))

def execInjectedReport (src : Nat) (s : State) : Out := onDevIf (fun d => decide (d.mode ≠ HELD)) (injectedReport src) s

/-! ### Wires (R492) -/

/-- A source's wire is found broken: source 0x003 names it. -/
def wireBroken (s : Nat) (d : Dev) : Dev :=
  let was := (tget d.flt.sources s).broken
  let d := updSource s (fun x => { x with broken := true, passes := 0, failed := true }) d
  if was then d else major 0x003 s d

/-- WIRE_CHECK: once in every 10 ms. A check that has not failed by the next one was passed; two in a row mend a wire. -/
def wireCheck (d : Dev) : Dev :=
  { d with
    flt.lastCheck := some d.up,
    flt.sources := tmap d.flt.sources fun _ x =>
      if x.broken = false then x
      else
        let n := if x.failed then 0 else x.passes + 1
        { x with passes := if 2 ≤ n then 0 else n, broken := decide (n < 2), failed := false } }

def execWireCheck (s : State) : Out :=
  onDevIf (fun d => decide (d.mode ≠ HELD) && (match d.flt.lastCheck with
      | some t => decide (t + 10 * ms ≤ d.up)
      | none => true)) wireCheck s

/-- WIRE_CHECK_TIMEOUT: the test report of the check has not arrived within 100 us. -/
def execWireCheckTimeout (src : Nat) (s : State) : Out :=
  onDevIf (fun d => decide (d.mode ≠ HELD) && implemented src && (match d.flt.lastCheck with
      | some t => decide (t + 100 * us ≤ d.up)
      | none => false)) (wireBroken src) s

/-- FAULT_WIRE_BROKEN: the pair reads 0b00 or 0b11 for 8 consecutive CTL cycles. -/
def execFaultWireBroken (src : Nat) (s : State) : Out :=
  onDevIf (fun d => decide (d.mode ≠ HELD) && implemented src) (wireBroken src) s

/-! ### Consequence windows and releases (R498 to R500) -/

/-- The timing group of an instance of domain 0x03, 0x07 or 0x08, where it has one (R499). -/
def instanceGroup (domain inst : Nat) (d : Dev) : Option Nat :=
  match domain with
  | 0x03 => txGroupOf inst d
  | 0x07 => (conversionOf inst d).map fun c => cvTg (engine c d).conf
  | 0x08 => if (raster inst d).n = 0 then none else some (rasterTg inst d)
  | _ => none

/-- The frame period that a window counts (R499). -/
def windowFrame (domain inst : Nat) (d : Dev) : Time :=
  match instanceGroup domain inst d with
  | some g => framePeriod (tgFormat g d)
  | none => (slowestPeriod d).getD (50 * ms)

/-- The window of an instance opens, or starts again. -/
def openWindow (domain inst : Nat) (d : Dev) : Dev :=
  let n := (tget d.flt.winFrames domain).getD 2
  let mine (w : Window) : Bool := decide (w.domain = domain ∧ w.inst = inst)
  let held := match d.flt.windows.find? mine with
    | some w => w.held
    | none => 0
  { d with flt.windows := (d.flt.windows.filter fun w => !mine w) ++ [⟨domain, inst, d.up + (n : Rat) * windowFrame domain inst d, held⟩] }

/-- An instance leaves reset: its functions run again and its window opens. -/
def releaseInstance (domain inst : Nat) (d : Dev) : Dev :=
  openWindow domain inst (blockFree domain inst
    { d with flt.inReset := d.flt.inReset.filter fun k => decide (k ≠ (domain, inst)) })

def execDomainResetRelease (domain inst : Nat) (s : State) : Out :=
  onDevIf (fun d => (decide (domain ≠ 6) || decide ((pc inst d).state ≠ 1)) && d.flt.inReset.contains (domain, inst)) (releaseInstance domain inst) s

/-- PC_RESET_RELEASE (R251): retraining completes. -/
def execPcResetRelease (k : Nat) (s : State) : Out :=
  onDevIf (fun d => decide (k < 64 ∧ (pc k d).state = 1) && d.flt.inReset.contains (6, k))
    (fun d =>
      let leaving := match d.memc.retire with
        | some r => r.pcs.contains k
        | none => false
      releaseInstance 6 k (updPc k (fun x => { x with
        state := if leaving then 3 else 2, lastRetrain := d.up, tempAt := stackTemp k d, dueRetrain := none }) d)) s

/-- CONSEQUENCE_WINDOW_CLOSE: event 0x0504 says how many reports the window held. -/
def closeWindow (domain inst : Nat) (d : Dev) : Dev :=
  match d.flt.windows.find? fun w => decide (w.domain = domain ∧ w.inst = inst ∧ w.closeAt ≤ d.up) with
  | none => d
  | some w => postEvent 0x0504 domain (le 2 inst ++ le 4 w.held) { d with flt.windows := d.flt.windows.erase w }

def execConsequenceWindowClose (domain inst : Nat) (s : State) : Out := onDev (closeWindow domain inst) s

/-! ### Device resets (R494, R501) -/

/-- The state after a device reset asserts: 1 power-on, 2 SYS_RESET_N, 3 `RST_DEVICE`, 4 thermal trip. All state takes its reset value but
RST_CAUSE, the count of resets and FLT_PRIOR; the flash lies outside the device, as do the timers' clock and the free values, and the TAP is
reset by power-on alone (R501, R569). A reset while a thermal trip holds does not end the trip (R506). -/
def deviceReset (cause : Nat) (d : Dev) : Dev :=
  let none_ : Dev := {}
  { none_ with
    up := d.up, free := d.free, flash := d.flash, pins := { (if cause = 1 then {} else d.pins : Pins) with smbus := [], supplies := d.pins.supplies, goodAt := d.pins.goodAt },
    flt := if cause = 1 then {} else { prior := d.flt.first, priorFatal := d.flt.fatalSrc },
    rst := { last := cause, count := if cause = 1 then 0 else d.rst.count + 1,
             trip := decide (cause = 4) || (d.rst.trip && decide (cause ≠ 1)) } }

/-! ### Monitors (R504 to R506) -/

/-- Kinds of monitor by index: 0 die temperature, 1 supply, 2 process, 3 HBM stack temperature. -/
def monKind (i : Nat) : Nat := if i < 16 then 0 else if i < 48 then 1 else if i < 96 then 2 else 3

/-- The fault source of a monitor. -/
def monSource (i : Nat) : Nat :=
  match monKind i with
  | 0 => 0x040 + i
  | 1 => 0x050 + (i - 16)
  | 2 => 0x070 + (i - 48)
  | _ => 0x0A0 + (i - 96)

/-- The nominal voltage at VM00 to VM31 in mV, from the electrical chapter. -/
def vmNominal (i : Nat) : Int :=
  if i < 12 then 750 else if i < 16 then 800 else if i < 20 then 900 else if i < 24 then 1200 else if i < 26 then 1100
  else if i < 28 then 400 else if i < 30 then 1800 else if i < 31 then 900 else 1800

/-- The thresholds in force: those set, or the defaults. -/
def monWarn (i : Nat) (d : Dev) : Int :=
  (tget d.rst.mons i).warn.getD (match monKind i with
    | 0 => 400 | 1 => 30 | 2 => -300 | _ => 360)
def monCrit (i : Nat) (d : Dev) : Int :=
  (tget d.rst.mons i).crit.getD (match monKind i with
    | 0 => 440 | 1 => 60 | 2 => -600 | _ => 400)

/-- How far a sample lies beyond a threshold, in the threshold's unit; a negative process threshold is passed downwards. -/
def beyond (i : Nat) (value thr : Int) : Rat :=
  match monKind i with
  | 1 =>
    let n := vmNominal (i - 16)
    absQ ((value - n : Int) : Rat) * 1000 / (n : Rat) - absQ (thr : Rat)
  | 2 => if thr < 0 then ((thr - value : Int) : Rat) else ((value - thr : Int) : Rat)
  | _ => ((value - thr : Int) : Rat)

/-- The hysteresis (R505): 2 degrees, 1.0 % of nominal, or 1.00 %. -/
def monHyst (i : Nat) : Rat :=
  match monKind i with
  | 1 => 10 | 2 => 100 | _ => 8

/-- The run lengths after a sample. -/
def sampleRuns (i : Nat) (value : Int) (d : Dev) (m : Monitor) : Monitor :=
  let run (c : Bool) (n : Nat) : Nat := if c then n + 1 else 0
  let w := beyond i value (monWarn i d)
  let c := beyond i value (monCrit i d)
  { m with
    value := value, state := if m.state = 3 then 0 else m.state, sampled := some d.up,
    runWarn := run (decide (0 < w)) m.runWarn, runCrit := run (decide (0 < c)) m.runCrit,
    runOkW := run (decide (w ≤ -monHyst i)) m.runOkW, runOkC := run (decide (c ≤ -monHyst i)) m.runOkC,
    runTrip := run (decide (i < 16 ∧ 500 ≤ value)) m.runTrip }

/-- A crossing or recovery: event 0x0505 and the monitor's report, whose detail code is the same. -/
def monReport (i code : Nat) (d : Dev) : Dev :=
  let d := postEvent 0x0505 i (le 1 code ++ le 1 0 ++ le 2 (twos 16 (tget d.rst.mons i).value)) d
  report (monSource i) (decide (code = 2)) code i d

/-- THERM_ALERT_N is low: some temperature monitor is beyond WARN (R505). -/
def thermAlert (d : Dev) : Bool :=
  ((List.range 16) ++ [96, 97]).any fun i => decide ((tget d.rst.mons i).state = 1 ∨ (tget d.rst.mons i).state = 2)

def setMon (i : Nat) (st : Nat) (d : Dev) : Dev :=
  let d := { d with rst.mons := tupd d.rst.mons i fun m => { m with state := st } }
  { d with rst.thermAlert := thermAlert d }

/-- MONITOR_SAMPLE (R505): four samples in a row beyond a threshold cross it, four back within it by the hysteresis recover
it. -/
def monitorSample (i : Nat) (value : Int) (d : Dev) : Dev :=
  let d := { d with rst.mons := tupd d.rst.mons i (sampleRuns i value d) }
  let m := tget d.rst.mons i
  let d := if m.state = 0 ∧ 4 ≤ m.runWarn then monReport i 1 (setMon i 1 d) else d
  let d := if (tget d.rst.mons i).state = 1 ∧ 4 ≤ m.runCrit then monReport i 2 (setMon i 2 d) else d
  let d := if (tget d.rst.mons i).state = 2 ∧ 4 ≤ m.runOkC then monReport i 3 (setMon i 1 d) else d
  if (tget d.rst.mons i).state = 1 ∧ 4 ≤ m.runOkW then monReport i 3 (setMon i 0 d) else d

/-- The sample period of a monitor (R504). -/
def samplePeriod (i : Nat) : Time := match monKind i with
  | 2 => sec | 3 => 10 * ms | _ => ms

/-- A monitor's next sample is due. -/
def sampleDue (i : Nat) (d : Dev) : Bool := match (tget d.rst.mons i).sampled with
  | some t => decide (t + samplePeriod i ≤ d.up)
  | none => true

/-- The monitors sample outside reset, and the die temperatures while a thermal trip holds the device (R506). -/
def execMonitorSample (i : Nat) (value : Int) (s : State) : Out :=
  onDevIf (fun d => decide (i < 98) && sampleDue i d && (decide (d.mode ≠ HELD) || (d.rst.trip && decide (i < 16)))) (monitorSample i value) s

/-- Four samples in a row of a die temperature read 125 degrees or more (R506). -/
def tripDue (d : Dev) : Bool := !d.rst.trip && (List.range 16).any fun i => decide (4 ≤ (tget d.rst.mons i).runTrip)

/-- Every die temperature has been read below 115 degrees since the trip. -/
def tripOver (d : Dev) : Bool :=
  (List.range 16).all fun i => decide ((tget d.rst.mons i).state ≠ 3 ∧ (tget d.rst.mons i).value < 460)

def execThermalTrip (s : State) : Out := onDevIf tripDue (deviceReset 4) s

/-! ### Commands of family 0x0D (R508 to R510) -/

def cmdFltStatusRead : CmdSpec where
  opcode := 0x0D01
  len := len 0
  unitLocal := true
  safe := true
  reply _ d _ :=
    { payload := le 4 (fltStatusWord d) ++ le 4 0 ++ le 8 d.flt.overflow.toNat ++ fltFirstBytes d ++ fltPriorBytes d }

/-- `FLT_CLEAR` (R488, R493): DEGRADED ends in the mode of the role held. -/
def cmdFltClear : CmdSpec where
  opcode := 0x0D02
  len := len 0
  unitLocal := true
  check _ d := refuseIf (d.flt.windows.any fun w => windowOpen w d) 0x0002
  apply _ d :=
    let d := { d with flt.valid := false, flt.overflow := 0, flt.contained := false }
    if d.mode = DEGRADED then vigil (noteClaim (setMode (roleMode d) d)) else d

/-- The sources that a severity command names. -/
def sevSources (p : List Byte) : List Nat := (List.range (u16 p 2)).map (u16 p 0 + ·)

/-- A severity byte that its source does not accept (R485, R486). -/
def sevRefused (p : List Byte) (i : Nat) : Bool :=
  let v := u8 p (4 + i)
  let s := u16 p 0 + i
  decide (4 < bits v 6 4 ∨ 4 < bits v 2 0) || (match srcInfo s with
    | some x => x.locked && decide (bits v 6 4 ≠ 4)
    | none => false)

def cmdFltSeverity : CmdSpec where
  opcode := 0x0D03
  len p := decide (4 ≤ p.length ∧ p.length = 4 + u16 p 2)
  fields p := rng 2 2 1 1024 :: (List.range (u16 p 2)).map fun i => fok (4 + i) 1 fun v => !bitOf v 3 && !bitOf v 7
  config := true
  unitLocal := true
  check a _ := firstOf [
    refuseIf ((sevSources a.payload).any fun s => !implemented s) 0x0010,
    refuseIf ((List.range (u16 a.payload 2)).any (sevRefused a.payload)) 0x0011]
  apply a d :=
    (List.range (u16 a.payload 2)).foldl (fun d i =>
      let v := u8 a.payload (4 + i)
      updSource (u16 a.payload 0 + i) (fun x => { x with sevMajor := some (bits v 6 4), sevMinor := bits v 2 0 }) d) d

def cmdFltSourceRead : CmdSpec where
  opcode := 0x0D04
  len := len 4
  fields _ := [res 2 2]
  unitLocal := true
  safe := true
  check a _ := refuseIf (!implemented (u16 a.payload 0)) 0x0010
  reply a d _ :=
    { payload := le 4 (fltSevWord (u16 a.payload 0) d) ++ le 4 0 ++ ctrBytes (tget d.flt.sources (u16 a.payload 0)).ctrs 0 4 }

/-- Sources that check words, and so accept mode 0 (R484, R510). -/
def isChecker (s : Nat) : Bool :=
  decide (s = 0x035 ∨ s = 0x0D0 ∨ s = 0x1D0 ∨ s = 0x1D1 ∨ s = 0x240 ∨ s = 0x241 ∨ s = 0x261 ∨ s = 0x3C8 ∨ s = 0x3D0 ∨ s = 0x3D1)
    || decide (0x200 ≤ s ∧ s < 0x240 ∧ s % 4 = 1) || decide (0x280 ≤ s ∧ s < 0x380 ∧ s % 4 = 0)
    || decide (0x390 ≤ s ∧ s < 0x3C0)

/-- Check symbols that a mask names. -/
def maskSymbols (m : Nat) : Nat := (List.range 4).foldl (fun n i => n + b2n (decide (bits m (8 * i + 7) (8 * i) ≠ 0))) 0

def cmdFltInject : CmdSpec where
  opcode := 0x0D05
  len := len 16
  fields _ := [rng 0 2 0 1023, rng 2 1 0 1, rng 3 1 0 1, rng 8 2 1 65535, rng 10 1 0 1, res 11 1]
  unitLocal := true
  check a d :=
    let p := a.payload
    let n := maskSymbols (u32 p 4)
    firstOf [
      refuseIf (!implemented (u16 p 0)) 0x0010,
      refuseIf (decide (u8 p 2 = 0) && (!isChecker (u16 p 0) || decide (n = 0 ∨ n = 4))) 0x0012,
      refuseIf (decide (u8 p 10 = 1 ∧ d.mode ≠ MAINTENANCE)) 0x0012]
  apply a d :=
    let p := a.payload
    updSource (u16 p 0) (fun x => { x with
      inj := some { mode := u8 p 2, major := decide (u8 p 3 = 1), mask := BitVec.ofNat 32 (u32 p 4), count := u16 p 8,
                    react := decide (u8 p 10 = 1), inst := u32 p 12 } }) d
  reply _ d _ := { payload := le 12 (t96 d.house) ++ le 4 0 }

/-- The instances of a reset domain; 0 for a number that is no domain. An audio port is KIND × 256 + port. -/
def instanceOk (domain inst : Nat) : Bool :=
  match domain with
  | 0x01 => decide (inst < 25)
  | 0x02 | 0x03 => decide (inst < 256)
  | 0x04 => decide (inst < 16)
  | 0x06 => decide (inst < 64)
  | 0x07 => decide (inst < 48)
  | 0x08 => decide (inst < 1152)
  | 0x09 => decide ((inst / 256 = 1 ∨ inst / 256 = 2) ∧ inst % 256 < 32) || decide ((inst / 256 = 3 ∨ inst / 256 = 4) ∧ inst % 256 < 8)
      || decide (inst = 5 * 256)
  | 0x0A => decide (inst = 0)
  | _ => false

/-- The reset domains (R498). -/
def isDomain (x : Nat) : Bool := decide (1 ≤ x ∧ x ≤ 10 ∧ x ≠ 5)

def cmdFltWindow : CmdSpec where
  opcode := 0x0D06
  len := len 4
  fields _ := [rng 1 1 1 16, res 2 2]
  config := true
  unitLocal := true
  check a _ := refuseIf (!isDomain (u8 a.payload 0)) 0x0013
  apply a d := { d with flt.winFrames := tset d.flt.winFrames (u8 a.payload 0) (some (u8 a.payload 1)) }

/-- The answer to `FLT_AUDIT` (R503) at its audit point, from the first equation of the law that does not hold, else its first. -/
def auditReply (law inst : Nat) (d : Dev) : List Byte :=
  let es := (lawEquations law inst d).getD []
  let e := ((es.find? fun e => !e.holds).or es.head?).getD ⟨[], []⟩
  let terms := (e.left ++ e.right).take 16
  le 8 (ns48 d.house) ++ le 1 (b2n (es.all Equation.holds)) ++ le 1 terms.length ++ le 6 0
    ++ le 8 (total e.left) ++ le 8 (total e.right) ++ terms.flatMap (le 8)

def cmdFltAudit : CmdSpec where
  opcode := 0x0D07
  len := len 4
  fields _ := [res 1 1]
  unitLocal := true
  safe := true
  check a d := refuseIf ((lawEquations (u8 a.payload 0) (u16 a.payload 2) d).isNone) 0x0016
  apply a d := { d with host.asks := d.host.asks ++ [⟨a.mbx, a.tag, u8 a.payload 0, u16 a.payload 2, 0⟩] }

/-- An instance may be reset on request: its idle flag is set, and it is not held already. -/
def resetIdle (domain inst : Nat) (d : Dev) : Bool :=
  blockIdle domain inst d && !d.flt.inReset.contains (domain, inst) && !d.flt.quarantine.contains (domain, inst)

/-- `RST_BLOCK` (R502): an idle instance is reset and released before the answer; a busy one runs on and is reported. An idle
engine has nothing to abandon, and a requested reset is no fault of it (R339). -/
def requestReset (domain inst : Nat) (d : Dev) : Dev :=
  if resetIdle domain inst d then
    releaseInstance domain inst (postEvent 0x0503 domain (le 2 inst ++ le 1 1)
      (if domain = 7 then d else blockReset domain inst d))
  else report 0x004 true domain inst d

def cmdRstBlock : CmdSpec where
  opcode := 0x0D10
  len := len 4
  fields _ := [res 1 1]
  unitLocal := true
  check a _ := refuseIf (!instanceOk (u8 a.payload 0) (u16 a.payload 2)) 0x0013
  apply a d := requestReset (u8 a.payload 0) (u16 a.payload 2) d
  reply a d _ := { status := if resetIdle (u8 a.payload 0) (u16 a.payload 2) d then 0 else 0x0002 }

def cmdRstRelease : CmdSpec where
  opcode := 0x0D11
  len := len 4
  fields _ := [res 1 1]
  unitLocal := true
  check a d := firstOf [
    refuseIf (!instanceOk (u8 a.payload 0) (u16 a.payload 2)) 0x0013,
    refuseIf (!d.flt.quarantine.contains (u8 a.payload 0, u16 a.payload 2)) 0x0014]
  apply a d :=
    let k := (u8 a.payload 0, u16 a.payload 2)
    releaseInstance k.1 k.2 { d with flt.quarantine := d.flt.quarantine.filter fun q => decide (q ≠ k) }

/-- `RST_DEVICE` (R501): the reset follows within 1 ms of the response, when is a free value. -/
def cmdRstDevice : CmdSpec where
  opcode := 0x0D12
  len := len 4
  unitLocal := true
  safe := true
  check a _ := refuseIf (decide (u32 a.payload 0 ≠ 0x52535444)) 0x0014
  apply _ d := useFree { d with rst.due := some (d.up + ((freeNat d % 1000001 : Nat) : Rat)) }

def cmdRstStatusRead : CmdSpec where
  opcode := 0x0D13
  len := len 0
  unitLocal := true
  safe := true
  reply _ d _ :=
    let q := d.flt.quarantine
    { payload := le 4 (rstCauseWord d) ++ le 4 0 ++ le 8 d.rst.count.toNat ++ le 2 q.length ++ le 6 0
        ++ (q.take 64).flatMap fun k => le 1 k.1 ++ le 1 0 ++ le 2 k.2 }

/-- Thresholds are in order (R505). -/
def monOrder (i : Nat) (w c : Int) : Bool :=
  if monKind i = 0 ∨ monKind i = 3 then decide (w < c) else decide (w.natAbs < c.natAbs)

/-- A monitor's thresholds are set, and its counts of samples begin again. -/
def setThresholds (i : Nat) (w c : Int) (d : Dev) : Dev :=
  { d with
    rst.mons := tupd d.rst.mons i fun m => { m with
      warn := some w, crit := some c, runWarn := 0, runCrit := 0, runOkW := 0, runOkC := 0 } }

def cmdMonConfig : CmdSpec where
  opcode := 0x0D20
  len := len 8
  fields _ := [rng 0 1 0 97, res 1 1, res 6 2]
  config := true
  unitLocal := true
  check a _ := refuseIf (!monOrder (u8 a.payload 0) (i16 a.payload 2) (i16 a.payload 4)) 0x0015
  apply a d := setThresholds (u8 a.payload 0) (i16 a.payload 2) (i16 a.payload 4) d

/-- MON reading and thresholds of a monitor. -/
def monReadWord (i : Nat) (d : Dev) : Nat :=
  fld (twos 16 (tget d.rst.mons i).value) 16 16 + fld (tget d.rst.mons i).state 14 2
def monThrWord (i : Nat) (d : Dev) : Nat := fld (twos 16 (monWarn i d)) 16 16 + fld (twos 16 (monCrit i d)) 0 16

def cmdMonRead : CmdSpec where
  opcode := 0x0D21
  len := len 0
  unitLocal := true
  safe := true
  reply _ d _ := { payload := (List.range 98).flatMap fun i => le 4 (monReadWord i d) }

def family0D : List CmdSpec :=
  [cmdFltStatusRead, cmdFltClear, cmdFltSeverity, cmdFltSourceRead, cmdFltInject, cmdFltWindow, cmdFltAudit, cmdRstBlock,
   cmdRstRelease, cmdRstDevice, cmdRstStatusRead, cmdMonConfig, cmdMonRead]

end Sys2Proof.Machine
end

