-- ==== Sys2Proof/Machine/Boot.lean ====
section
/-! DEFINITION. Chapter 15: start-up, the loader, modes, the host link and firmware update; the commands of families 0x01 and
0x0E and the events of the chapter, with those of the power, SMBus and JTAG pins of chapter 17. -/

namespace Sys2Proof.Machine

/-! ### Words (R2 to R4, R537) -/

def devModeWord (d : Dev) : Nat := fld d.mode 0 4

/-- HOST_STATUS; PERBY_UP says that Perby runs and accepts doorbells, which it does not in a restart (R392, R395). -/
def hostStatusWord (d : Dev) : Nat :=
  fld (b2n (d.host.perbyUp && !d.host.stopped)) 31 1 + fld (b2n d.host.restarting) 30 1 + fld (b2n d.host.bar2Ready) 29 1
    + fld (b2n d.host.debug) 28 1 + fld (b2n d.host.lockout) 27 1

def bootStatusWord (d : Dev) : Nat :=
  let b := d.boot
  fld b.stage 28 4 + fld b.code 20 8 + fld (b2n b.trimValid) 19 1 + fld (b2n b.trimCopy) 18 1 + fld b.store 17 1
    + fld (b2n b.fallback) 16 1 + fld (b2n b.recovered) 15 1 + fld (b2n b.image) 14 1

def bootTimeWord (d : Dev) : Nat := fld d.boot.timeMs 0 16

def updStatusWord (d : Dev) : Nat :=
  let u := d.upd
  fld u.state 28 4 + fld u.code 20 8 + fld (b2n u.lane) 19 1 + fld u.active 18 1 + fld (b2n u.loader) 17 1

def updProgressWord (d : Dev) : Nat := fld d.upd.placed 16 16 + fld d.upd.granules.length 0 16

def updRunningWord (d : Dev) : Nat := fld d.upd.svn 16 16

/-- UPD counters (R537). -/
abbrev uACTIVATIONS := 0x40
abbrev uRECOVERIES := 0x48
abbrev uFLASH_ERR := 0x50
abbrev uBLOCKS := 0x58
def updBump (k : Nat) (d : Dev) : Dev := { d with upd.ctrs := bump d.upd.ctrs k }

/-! ### Manifests (R528, R529) -/

/-- The parts of a transfer's manifest: kind, offset, size, and the entry itself. -/
def manifestParts (t : List Byte) : List (List Byte) :=
  (List.range (u8 t 10)).map fun i => t.drop (128 + 16 * u8 t 11 + 64 * i)

/-- Two parts overlap. -/
def overlap (a b : List Byte) : Bool := decide (u32 a 8 < u32 b 8 + u32 b 12 ∧ u32 b 8 < u32 a 8 + u32 a 12)

/-- A list has no two elements, at different places, that stand in a relation. -/
def noPair {α : Type} (r : α → α → Bool) : List α → Bool
  | [] => true
  | a :: l => l.all (fun b => !r a b) && noPair r l

/-- A manifest's layout is sound, and its parts lie within the transfer without overlapping (R529). -/
def manifestLayout (t : List Byte) (total : Nat) : Bool :=
  let ps := manifestParts t
  let n := u32 t 20
  decide (u32 t 0 = 0x4D4B5246 ∧ u16 t 4 = 1 ∧ 1 ≤ u8 t 10 ∧ u8 t 10 ≤ 16 ∧ u8 t 11 ≤ 32 ∧ u16 t 14 = 0 ∧ u32 t 28 = 0)
    && decide (un 80 t 48 = 0 ∧ n = 128 + 16 * u8 t 11 + 64 * u8 t 10 + 64 ∧ n ≤ total ∧ u32 t 24 = total)
    && ps.all (fun e => decide (1 ≤ u8 e 0 ∧ u8 e 0 ≤ 4 ∧ un 3 e 1 = 0 ∧ un 16 e 48 = 0 ∧ u32 e 8 % 4096 = 0 ∧ n ≤ u32 e 8
        ∧ u32 e 8 + u32 e 12 ≤ total))
    && noPair (fun a b => decide (u8 a 0 = u8 b 0)) ps && noPair overlap ps

/-- The signature verifies over every byte before it, against the update key. -/
def manifestSigned (t : List Byte) : Bool :=
  let n := u32 t 20
  Config.ecdsaVerifies 1 (t.take (n - 64)) ((t.drop (n - 64)).take 64)

/-- The manifest is bound to this device and does not go back below a security version. -/
def manifestBound (t : List Byte) (svn : Nat) (d : Dev) : Bool :=
  decide (u16 t 6 = 0x0480) && bitOf (u8 t 8) 2 && (decide (u8 t 9 = 0) || decide (u8 t 9 = bits (devIdWord d) 11 8))
    && (decide (u8 t 11 = 0) || (List.range (u8 t 11)).any fun i => decide (un 16 t (128 + 16 * i) = Config.uniqueNumber.toNat))
    && decide (svn ≤ u16 t 12)

/-- A part's digest matches. -/
def partMatches (t e : List Byte) : Bool :=
  decide ((Config.sha256 ((t.drop (u32 e 8)).take (u32 e 12))).toNat = un 32 e 16)

/-- The first check of R529 that a transfer fails, with the part whose digest does not match. -/
def manifestFault (t : List Byte) (total svn : Nat) (d : Dev) : Option (Nat × Nat) :=
  if !manifestLayout t total then some (0x0012, 0)
  else if !manifestSigned t then some (0x0013, 0)
  else if !manifestBound t svn d then some (0x0014, 0)
  else (findIdx? (fun e => !partMatches t e) (manifestParts t)).map fun r => (0x0015, r.1)

/-- The part of a kind, if the transfer has one. -/
def partOf (t : List Byte) (kind : Nat) : Option (List Byte) :=
  ((manifestParts t).find? fun e => decide (u8 e 0 = kind)).map fun e => (t.drop (u32 e 8)).take (u32 e 12)

/-! ### Flash (R516) -/

/-- A store's bytes. -/
def storeBytes (s : Nat) (d : Dev) : List Byte := if s = 1 then d.flash.storeB else d.flash.storeA

def setStore (s : Nat) (bs : List Byte) (d : Dev) : Dev :=
  if s = 1 then { d with flash.storeB := bs } else { d with flash.storeA := bs }

/-- The valid boot record with the higher GEN; copy A where they are equal. -/
def bootRecord (d : Dev) : Option BootRec :=
  match d.flash.recA, d.flash.recB with
  | some a, some b => some (if a.gen < b.gen then b else a)
  | some a, none => some a
  | none, b => b

/-- The newest journal record: the one with the highest SEQ. -/
def newestRecord (d : Dev) : Option JournalRec :=
  d.flash.journal.foldl (fun m r => match m with
    | some x => some (if x.seq < r.seq then r else x)
    | none => some r) none

/-- A record is written to the journal, whose two sectors of 1,024 records are used in turn. -/
def journal (type store : Nat) (digest : BitVec 256) (d : Dev) : Dev :=
  let seq := match newestRecord d with
    | some r => r.seq + 1
    | none => 1
  let old := if 2048 ≤ d.flash.journal.length then d.flash.journal.drop 1024 else d.flash.journal
  { d with flash.journal := old ++ [⟨seq, type, store, digest⟩] }

/-- Both boot records are written with the next GEN (R517, R534). -/
def writeBootRecords (store : Nat) (digest : BitVec 256) (d : Dev) : Dev :=
  let g := match bootRecord d with
    | some r => r.gen + 1
    | none => 1
  { d with flash.recA := some ⟨g, store, digest⟩, flash.recB := some ⟨g, store, digest⟩ }

/-- The digest of a transfer's manifest. -/
def manifestDigest (t : List Byte) : BitVec 256 := Config.sha256 (t.take (u32 t 20))

/-! ### Reset and trim (R513 to R515) -/

/-- FLOW draws its key as it leaves reset (R198), where the entropy source passes its health test. -/
def drawFlowKey (healthy : Bool) (d : Dev) : Dev :=
  if healthy then useFree { d with flows.tbl.state := 1, flows.tbl.key := drawKey d }
  else major 0x002 0 { d with flows.tbl.retryAt := d.up }

/-- MEMC draws its placement key (R243). -/
def drawPlacementKey (healthy : Bool) (d : Dev) : Dev :=
  if healthy then useFree { d with memc.keyState := 1, memc.key := drawKey d }
  else major 0x002 0 { d with memc.retryAt := d.up }

/-- ENTROPY_DRAW_RETRY (R198, R243): every 10 ms while there is no key. -/
def entropyRetry (memc healthy : Bool) (d : Dev) : Dev :=
  if memc then (if d.memc.keyState = 0 ∧ d.memc.retryAt + 10 * ms ≤ d.up then drawPlacementKey healthy d else d)
  else if d.flows.tbl.state = 0 ∧ d.flows.tbl.retryAt + 10 * ms ≤ d.up then drawFlowKey healthy d else d

def execEntropyDrawRetry (memc healthy : Bool) (s : State) : Out :=
  onDevIf (fun d => decide (d.mode ≠ HELD)) (entropyRetry memc healthy) s

/-- A supply is good: above 92 % of its nominal value (R555). -/
def supplyGood (i : Nat) (d : Dev) : Bool := decide (92 * nominalSupplies.getD i 0 < 100 * d.pins.supplies.getD i 0)
def suppliesGood (d : Dev) : Bool := (List.range 9).all fun i => supplyGood i d

/-- RESET_RELEASE (R501, R513 step 1): mode TRIM; the synthesisers begin their searches, and the keys are drawn. Whether the
entropy source passes its health test is a free value. A thermal trip must be over (R506), and the supplies good for 10 ms (R555). -/
def resetRelease (d : Dev) : Dev :=
  if (d.rst.trip ∧ tripOver d = false) ∨ suppliesGood d = false ∨ d.up < d.pins.goodAt + 10 * ms then d
  else
    let d := { d with
      rst.trip := false, boot.since := d.up,
      tim.synths := (List.range 12).foldl (fun t n => tupd t n fun x => beginSelection d.up x) d.tim.synths,
      octets := tupd d.octets 24 fun x => { x with osa := { x.osa with searching := true, searchFrom := d.up } } }
    let d := setMode TRIM d
    let ok := decide (freeNat d % 2 = 1)
    let d := drawFlowKey ok (useFree d)
    let ok := decide (freeNat d % 2 = 1)
    drawPlacementKey ok (useFree d)

def execResetRelease (s : State) : Out := onDevIf (fun d => decide (d.mode = HELD)) resetRelease s

/-- The supplies stand at levels in mV, the time being counted from here where they have become good (R555). -/
def setSupplies (mv : List Nat) (d : Dev) : Dev :=
  let was := suppliesGood d
  let d := { d with pins.supplies := mv }
  if !was ∧ suppliesGood d then { d with pins.goodAt := d.up } else d

/-- POWER_ON_RESET (R555): the reset asserts with the supplies at these levels, and holds until they have been good for 10 ms. -/
def powerOnReset (mv : List Nat) (d : Dev) : Dev :=
  let d := setSupplies mv (deviceReset 1 d)
  { d with pins.goodAt := d.up }

def execPowerOnReset (s : State) (mv : List Nat := []) : Out := onDev (powerOnReset mv) s

/-- SUPPLY_LOSS (R555): levels that the supplies have had for 2 us; where one is not good, the power-on reset asserts again. -/
def supplyLoss (mv : List Nat) (d : Dev) : Dev :=
  let d := setSupplies mv d
  if suppliesGood d then d else deviceReset 1 d

def execSupplyLoss (s : State) (mv : List Nat := []) : Out := onDev (supplyLoss mv) s

def execSysResetN (s : State) : Out := onDev (deviceReset 2) s

/-- TRIM_LOAD_COMPLETE (R514): copy 0 where its CRC is good, else copy 1; with neither the device enters SAFE. -/
def trimLoaded (copy0 copy1 : Bool) (d : Dev) : Dev :=
  if copy0 || copy1 then setMode LOADER { d with boot.trimValid := true, boot.trimCopy := !copy0, boot.stage := 1 }
  else major 0x001 0 { d with boot.code := 0x10 }

def execTrimLoadComplete (copy0 copy1 : Bool) (s : State) : Out :=
  onDevIf (fun d => decide (d.mode = TRIM)) (trimLoaded copy0 copy1) s

/-! ### The loader (R516 to R520) -/

/-- The loader waits for recovery, serving mailbox 0. -/
def waitRecovery (code : Nat) (d : Dev) : Dev :=
  { d with boot.stage := 3, boot.code := code, upd.loader := true }

/-- The activation that a reset interrupted is completed (R517). -/
def finishActivation (r : JournalRec) (d : Dev) : Dev :=
  let d := journal 5 r.store r.digest (writeBootRecords r.store r.digest d)
  minor 0x0C9 0 (updBump uACTIVATIONS (updBump uRECOVERIES { d with boot.recovered := true }))

/-- LOADER_BOOT_RECORDS (R517): once synthesisers 0 to 10 have locked, or run in bypass. -/
def readRecords' (d : Dev) : Dev :=
  let d := match newestRecord d with
    | some r => if r.type = 4 then finishActivation r d else d
    | none => d
  let d := { d with boot.records := true, boot.recordsAt := d.up, boot.readAt := d.up }
  match bootRecord d with
  | some r => { d with boot.store := r.store, boot.stage := 2, upd.active := r.store }
  | none => waitRecovery 0x20 d

/-- Synthesisers 0 to 10 give their clocks. -/
def clocksRun (d : Dev) : Bool :=
  (List.range 11).all fun n => (tget d.tim.synths n).locked || (tget d.tim.synths n).bypass

def execLoaderBootRecords (s : State) : Out :=
  onDevIf (fun d => decide (d.mode = LOADER) && !d.boot.records && clocksRun d) readRecords' s

/-- A store passes every check of R529. -/
def storePasses (s : Nat) (d : Dev) : Bool :=
  let t := storeBytes s d
  (manifestFault t (u32 t 24) 0 d).isNone

/-- The loader has loaded a store: its manifest is the running one. -/
def loadStore (s : Nat) (d : Dev) : Dev :=
  let t := storeBytes s d
  { d with boot.store := s, boot.loaded := true, upd.active := s, upd.running := t.take 128, upd.svn := u16 t 12 }

/-- LOADER_STORE_CHECK (R518): the active store is checked, then the other; `answers` says that the flash answers. -/
def storeCheck (answers : Bool) (d : Dev) : Dev :=
  let d := { d with flash.answers := answers }
  let s := d.boot.store
  if !answers then waitRecovery 0x31 d
  else if storePasses s d then loadStore s d
  else if storePasses (1 - s) d then major 0x0CC 0 (loadStore (1 - s) { d with boot.fallback := true })
  else waitRecovery 0x21 d

/-- The time that the loader takes to read a store's transfer, at 25 MB/s (R513 step 6). -/
def readTime (s : Nat) (d : Dev) : Time := (min (u32 (storeBytes s d) 24) 33554432 * 40 : Nat)

/-- The loader has read the stores that it checks; a flash that does not answer gives nothing to read. -/
def storesRead (answers : Bool) (d : Dev) : Bool :=
  let s := d.boot.store
  !answers || decide (d.boot.readAt + readTime s d + (if storePasses s d then 0 else readTime (1 - s) d) ≤ d.up)

def execLoaderStoreCheck (answers : Bool) (s : State) : Out :=
  onDevIf (fun d => decide (d.mode = LOADER) && d.boot.records && decide (d.boot.stage = 2) && !d.boot.loaded && storesRead answers d)
    (storeCheck answers) s

/-- HBM_TRAINING_COMPLETE (R231): the pseudo-channels that trained hold zeros and are in service; the others are FAILED. With
none left the device enters SAFE. -/
def hbmTrained (failed : List Nat) (d : Dev) : Dev :=
  let bad (k : Nat) : Bool := failed.contains k
  let good := (List.range 64).filter fun k => !bad k
  let d := { d with
    boot.trained := true, memc.set := good, memc.sysSet := good, memc.errs := [],
    memc.pcs := (List.range 64).foldl (fun t k => tupd t k fun x => { x with
      state := if bad k then 5 else 2, tempAt := stackTemp k d, winAt := d.house,
      -- R254: the first retrain falls due k × RETRAIN_MS ÷ 64 after PC k enters service.
      lastRetrain := d.up + ((k : Rat) / 64 - 1) * (d.memc.retrainMs : Rat) * ms }) d.memc.pcs }
  let d := ((List.range 64).filter bad).foldl (fun d k => major (0x280 + 4 * k + 3) k d) d
  if good = [] then setMode SAFE { d with boot.code := 0x30, flt.safeHold := true }
  else { d with host.bar2Ready := true }

/-- Training and the fill with zeros, from step 4 on (R231, R513 step 5). -/
def trainTime : Time := if Config.otpCapacity = .gib24 then 45200 * us else 36800 * us

def execHbmTrainingComplete (failed : List Nat) (s : State) : Out :=
  if s.dev.mode = LOADER ∧ s.dev.boot.records = true ∧ s.dev.boot.trained = false ∧ s.dev.boot.recordsAt + trainTime ≤ s.dev.up then
    .next { s with hbm := [], dev := hbmTrained failed s.dev }
  else .next s

/-- The stored configuration image of the running store (R513 step 7). -/
def storedImage (d : Dev) : List Byte := (partOf (storeBytes d.boot.store d) 4).getD []

/-- PERBY_START (R513 step 7): mode READY; a stored configuration image has been copied to staging offset 0. The audio core
runs from the block at hand. -/
def perbyStart (d : Dev) : Dev :=
  let img := storedImage d
  let t := ((d.up - d.boot.since) / ms).floor.toNat
  let d := cleanWords 0 img.length d
  let d := { d with
    host.perbyUp := true, host.version := BitVec.ofNat 32 (u32 d.upd.running 16), twn.link := 1,
    boot.stage := 4, boot.timeMs := min t 65535, boot.image := decide (img ≠ []), boot.imageLen := img.length,
    upd.loader := false, aud.block := blockOf d.house }
  let d := setMode READY d
  if d.boot.recovered then postEvent 0x0906 0 (le 1 d.boot.store) d else d

def execPerbyStart (s : State) : Out :=
  if s.dev.mode = LOADER ∧ s.dev.boot.trained = true ∧ s.dev.boot.loaded = true ∧ s.dev.host.perbyUp = false then
    .next { s with
      hbm := (stagingWrites 0 (storedImage s.dev) s.dev).foldl (fun m w => Mem.write m w.1 w.2) s.hbm,
      dev := perbyStart s.dev }
  else .next s

/-! ### The host link (R524, R525) -/

/-- No command is owed a completion event any more. -/
def dropOwed (d : Dev) : Dev :=
  { d with
    host.evt.owed := 0, host.late := [], host.snaps := [], host.asks := [], host.rung := [],
    drains := d.drains.map fun x => { x with owed := x.owed.map fun c => (0xFF, c.2) },
    cfg.banks := tmap d.cfg.banks fun _ b => { b with mbx := 0xFF },
    memc.retire := d.memc.retire.map fun r => { r with mbx := 0xFF },
    twn.plan := d.twn.plan.map fun p => { p with mbx := none },
    twn.pairCmd := none, upd.mbx := 0xFF }

/-- A host interface reset: PERST_N, function-level reset, link-down, surprise removal or loss of synthesiser 11 (R525). -/
def hostReset (d : Dev) : Dev :=
  let d := dropOwed d
  coresReload (writeEntry { code := 0x0603, time := ns48 d.house } { d with
    host.linkUp := false,
    host.mbx := tmap d.host.mbx fun _ m => { m with state := 0, accepted := false, request := [], response := [] },
    host.evt.prod := 0, host.evt.cons := 0, host.evt.ring := [],
    host.msix := { sent := d.host.msix.sent } })

def execHostInterfaceReset (s : State) : Out := onDevIf (fun d => decide (d.mode ≠ HELD)) hostReset s

/-- PCIE_LINK_UP (R524): the link trains from the reference clock through synthesiser 11. -/
def execPcieLinkUp (s : State) : Out :=
  onDevIf (fun d => decide (d.mode ≠ HELD) && (tget d.tim.synths 11).locked) (fun d => { d with host.linkUp := true }) s

/-- PLL_LOSS_OF_LOCK (R78, R80): the domains of synthesisers 0 to 10 run from XTAL in bypass; synthesiser 11 has none, and
its loss takes the PCIe link down. -/
def execPllLossOfLock (n : Nat) (s : State) : Out :=
  onDevIf (fun d => decide (n < 12 ∧ d.mode ≠ HELD) && (tget d.tim.synths n).locked)
    -- The report comes first, and the host reset of synthesiser 11's loss clears the ring after it (log entry 209).
    (fun d =>
      let d := updSynth n (fun x => { x with locked := false, bypass := decide (n ≠ 11), searches := 0, select := 0,
                                             searchFrom := d.up }) d
      let d := major (0x010 + n) n d
      if n = 11 then hostReset d else d) s

/-! ### Commands of family 0x01 (R511, R527, R538, R539) -/

/-- The mode that a request for a target leads to is reachable (R511). -/
def targetReachable (t : Nat) (d : Dev) : Bool :=
  decide ((d.mode = READY ∧ (t = SOLO ∨ t = MAINTENANCE)) ∨ (d.mode = MAINTENANCE ∧ t = READY) ∨ (d.mode = SOLO ∧ t = READY))

def cmdDevModeRequest : CmdSpec where
  opcode := 0x0101
  len := len 8
  fields _ := [disableWord, oneOf 4 1 [READY, SOLO, MAINTENANCE], res 5 3]
  unitLocal := true
  check a d :=
    let t := u8 a.payload 4
    firstOf [
      refuseIf (inService d && decide (t ≠ SOLO ∧ (d.twn.pair = 1 ∨ d.twn.pair = 2))) 0x0011,
      refuseIf (!targetReachable t d) 0x0010]
  disables := some fun p d => if inService d ∧ u8 p 4 = READY then [.service] else []
  apply a d :=
    let t := u8 a.payload 4
    if inService d then d
    else if t = SOLO then goRole SOLO d
    else setMode t d

/-- `DEV_REMOVE` (R527): a paired unit first sends LEAVE with reason 3. -/
def cmdDevRemove : CmdSpec where
  opcode := 0x0102
  len := len 4
  fields _ := [disableWord]
  unitLocal := true
  ahead _ d := if inService d ∧ d.twn.pair ≠ 0 then sendTwin (.leave 3) (dropPlan d) else d
  disables := some fun _ _ => [.service]

def cmdDevStatusRead : CmdSpec where
  opcode := 0x0103
  len := len 0
  unitLocal := true
  safe := true
  reply _ d _ :=
    { payload := [devIdWord d, devModeWord d, hostStatusWord d, bootStatusWord d, bootTimeWord d, rstCauseWord d].flatMap (le 4) }

def family01 : List CmdSpec := [cmdDevModeRequest, cmdDevRemove, cmdDevStatusRead]

/-! ### Firmware update (R530 to R536) -/

/-- The bytes of the transfer. -/
def transfer (d : Dev) : List Byte := Mem.readN d.upd.area 0 d.upd.total

/-- The session returns to IDLE; the low byte of the last failing status and the counters are kept. -/
def endSession (d : Dev) : Dev :=
  let u := d.upd
  { d with upd := { state := 0, code := u.code, active := u.active, loader := u.loader, svn := u.svn, ctrs := u.ctrs,
                    running := u.running, laneIdle := u.laneIdle, hbmPart := u.hbmPart } }

/-- A verification, placement or activation that is owed a completion is given up. -/
def dropSession (d : Dev) : Dev :=
  let u := d.upd
  endSession (match u.state with
    | 2 => complete u.mbx u.tag 0x0E03 0x0010 0 d
    | 4 => complete u.mbx u.tag 0x0E04 0x0010 0 d
    | _ => d)

/-- The session must be in a state. -/
def sessionIn (ok : Nat → Bool) (d : Dev) : Option (Nat × Nat) := refuseIf (!ok d.upd.state) 0x0010

def cmdUpdBegin : CmdSpec where
  opcode := 0x0E01
  len := len 8
  fields _ := [rng 0 4 4096 33554432, res 4 4]
  unitLocal := true
  check _ d := sessionIn (fun s => decide (s ≤ 5)) d
  apply a d :=
    let d := dropSession d
    { d with upd.state := 1, upd.total := u32 a.payload 0 }

/-- The staging bytes that a block names. -/
def blockBytes (a : Args) (d : Dev) : List Byte := stagingRead a.mem d (u32 a.payload 4) (u32 a.payload 8)

/-- The granules of a block. -/
def blockGranules (p : List Byte) : List Nat := (List.range (ceilDiv (u32 p 8) 65536)).map (u32 p 0 / 65536 + ·)

def cmdUpdBlock : CmdSpec where
  opcode := 0x0E02
  len := len 16
  unitLocal := true
  check a d :=
    let p := a.payload
    let off := u32 p 0
    let n := u32 p 8
    firstOf [
      sessionIn (fun s => decide (s = 1)) d,
      refuseIf (decide (off % 65536 ≠ 0 ∨ 1048576 < n ∨ d.upd.total < off + n ∨ (n % 65536 ≠ 0 ∧ off + n ≠ d.upd.total))) 0x0011,
      refuseIf (decide (u32 p 4 % 32 ≠ 0 ∨ stagingBytes < u32 p 4 + n)) 0x0011,
      refuseIf (decide (u32 p 12 ≠ (crc32 (blockBytes a d)).toNat)) 0x0011 (off / 65536)]
  apply a d :=
    updBump uBLOCKS { d with
      upd.area := Mem.writeN d.upd.area (u32 a.payload 0) (blockBytes a d),
      upd.granules := d.upd.granules ++ (blockGranules a.payload).filter fun g => !d.upd.granules.contains g }

/-- Every granule of the transfer has been received. -/
def transferWhole (d : Dev) : Bool := decide (d.upd.granules.length = ceilDiv d.upd.total 65536)

def cmdUpdVerify : CmdSpec where
  opcode := 0x0E03
  len := len 0
  unitLocal := true
  check _ d := firstOf [sessionIn (fun s => decide (s = 1)) d, refuseIf (!transferWhole d) 0x0015]
  apply a d := { d with upd.state := 2, upd.mbx := a.mbx, upd.tag := a.tag }
  reply _ _ _ := { status := 1 }

/-- UPD_VERIFY_COMPLETE (R532). -/
def verifyDone (d : Dev) : Dev :=
  let u := d.upd
  let t := transfer d
  match manifestFault t u.total u.svn d with
  | some (st, part) =>
    complete u.mbx u.tag 0x0E03 st part (major 0x0CA 0 { d with upd.state := 1, upd.code := st % 256 })
  | none =>
    let lane := (partOf t 2).isSome
    complete u.mbx u.tag 0x0E03 0 0
      (postEvent 0x0901 0 (le 1 (u8 t 10) ++ le 1 (b2n lane)) { d with upd.state := 3, upd.lane := lane })

def execUpdVerifyComplete (s : State) : Out := onDevIf (fun d => decide (d.upd.state = 2)) verifyDone s

/-- The store that `UPD_PLACE` writes (R533, R520): the one that is not active; store A where none is. -/
def placeStore (d : Dev) : Nat := if d.boot.code = 0x20 then 0 else 1 - d.upd.active

/-- `UPD_PLACE` (R533 step 1): a PLACING record is written, and the store is erased. -/
def cmdUpdPlace : CmdSpec where
  opcode := 0x0E04
  len := len 0
  unitLocal := true
  check _ d := sessionIn (fun s => decide (s = 3)) d
  apply a d :=
    let d := { d with upd.state := 4, upd.placed := 0, upd.mbx := a.mbx, upd.tag := a.tag }
    if d.flash.answers then setStore (placeStore d) [] (journal 1 (placeStore d) (manifestDigest (transfer d)) d) else d
  reply _ _ _ := { status := 1 }

/-- UPD_PLACE_COMPLETE (R533 steps 2 to 4): the store holds the transfer; a program, erase or read-back failure returns the
session to VERIFIED. -/
def placeDone (ok : Bool) (d : Dev) : Dev :=
  let u := d.upd
  if ok ∧ d.flash.answers = true then
    let s := placeStore d
    let d := journal 2 s (manifestDigest (transfer d)) (setStore s (transfer d) d)
    complete u.mbx u.tag 0x0E04 0 0
      (postEvent 0x0902 0 (le 1 s) { d with upd.state := 5, upd.placed := u.granules.length })
  else
    complete u.mbx u.tag 0x0E04 0x0016 0
      (major 0x0C8 0 (updBump uFLASH_ERR { d with upd.state := 3, upd.code := 0x16 }))

def execUpdPlaceComplete (ok : Bool) (s : State) : Out := onDevIf (fun d => decide (d.upd.state = 4)) (placeDone ok) s

/-- The modes in which an activation is accepted (R535). -/
def activationMode (d : Dev) : Bool :=
  decide (d.mode = READY ∨ d.mode = MAINTENANCE ∨ d.mode = DEGRADED) || decide (SOLO ≤ d.mode ∧ d.mode ≤ SHADOW)

/-- The conditions of R535 that stand at acceptance, at T − 500 ms and at T alike: the status that refuses, if any. -/
def activationFault (t : Time) (force : Bool) (d : Dev) : Option Nat :=
  let near := match d.twn.plan with
    | some p => decide (absQ (p.t - t) ≤ sec)
    | none => false
  let x := transfer d
  let major_ := u8 x 19
  if !activationMode d then some 0x0007
  else if near then some 0x0017
  else if d.upd.lane ∧ (d.twn.role = 1 ∨ (roleMode d = SOLO ∧ force = false)) then some 0x0018
  else if d.twn.pair ≠ 0 ∧ (partOf x 1).isSome ∧ major_ ≠ d.host.version.toNat / 2 ^ 24 then some 0x0018
  else none

/-- The new store becomes active (R534 steps 3 and 4, R520). -/
def activated (d : Dev) : Dev :=
  let u := d.upd
  let t := transfer d
  let s := placeStore d
  let g := manifestDigest t
  let d := journal 5 s g (writeBootRecords s g d)
  let d := updBump uACTIVATIONS d
  let d := endSession { d with upd.active := s, upd.running := t.take 128, upd.svn := u16 t 12 }
  complete u.mbx u.tag 0x0E05 0 0 (postEvent 0x0904 0 (le 1 s ++ le 1 (u8 t 10)) d)

/-- Activation in LOADER (R519, R520): its records are written at once, and the loader goes on from step 6 of R513 with the new
store. -/
def activateInLoader (d : Dev) : Dev :=
  let s := placeStore d
  let g := manifestDigest (transfer d)
  let d := activated (journal 4 s g (journal 3 s g d))
  { d with boot.stage := 2, boot.code := 0, boot.store := s, boot.readAt := d.up, upd.loader := false }

def cmdUpdActivate : CmdSpec where
  opcode := 0x0E05
  len := len 16
  fields _ := [time96 0, rng 12 1 0 1, res 13 3]
  unitLocal := true
  check a d :=
    let t := ofT96 (un 12 a.payload 0)
    if d.upd.loader then
      firstOf [sessionIn (fun s => decide (s = 5)) d, refuseIf (decide (un 12 a.payload 0 ≠ 0)) 0x0017]
    else firstOf [
      sessionIn (fun s => decide (s = 5)) d,
      refuseIf (!activationMode d) 0x0007,
      refuseIf (decide (t < d.house + 600 * ms)) 0x0017,
      (activationFault t (decide (u8 a.payload 12 = 1)) d).map fun s => (s, 0)]
  apply a d :=
    let d := { d with upd.mbx := a.mbx, upd.tag := a.tag }
    if d.upd.loader then activateInLoader d
    else { d with upd.state := 6, upd.instant := ofT96 (un 12 a.payload 0), upd.force := decide (u8 a.payload 12 = 1),
                  upd.prepared := false }
  reply _ _ _ := { status := 1 }

/-- A scheduled activation fails: nothing activates (R535). -/
def activationFailed (st : Nat) (d : Dev) : Dev :=
  let u := d.upd
  complete u.mbx u.tag 0x0E05 st 0
    (major 0x0CB 0 (postEvent 0x0905 0 (le 2 st) { d with upd.state := 5, upd.prepared := false, upd.code := st % 256 }))

/-- ACTIVATION_PREPARE (R534 step 1). -/
def activationPrepare (d : Dev) : Dev :=
  let u := d.upd
  match activationFault u.instant u.force d with
  | some st => activationFailed st d
  | none =>
    postEvent 0x0903 0 (le 12 (t96 u.instant))
      (journal 3 (placeStore d) (manifestDigest (transfer d)) { d with upd.prepared := true })

def execActivationPrepare (s : State) : Out :=
  onDevIf (fun d => decide (d.upd.state = 6 ∧ d.upd.instant - 500 * ms ≤ d.house) && !d.upd.prepared) activationPrepare s

/-- ACTIVATION_START (R534 step 2): the ACTIVATING record is written, and every part activates from that write. -/
def activationStart (d : Dev) : Dev :=
  let u := d.upd
  let t := transfer d
  match activationFault u.instant u.force d with
  | some st => activationFailed st d
  | none =>
    let d := journal 4 (placeStore d) (manifestDigest t) (masterWorks 8 { d with upd.state := 7 })
    let d := if (partOf t 1).isSome then hitlessBegin { d with host.nextVersion := some (BitVec.ofNat 32 (u32 t 16)) } else d
    let d := if (partOf t 2).isSome then { d with upd.laneIdle := some d.up } else d
    if (partOf t 3).isSome then { d with upd.hbmPart := d.memc.set } else d

def execActivationStart (s : State) : Out :=
  onDevIf (fun d => decide (d.upd.state = 6 ∧ d.upd.instant ≤ d.house) && d.upd.prepared) activationStart s

def execActivationComplete (s : State) : Out := onDevIf (fun d => decide (d.upd.state = 7)) activated s

/-- LANE_CONTROLLER_RESTART_END (R534): after 1 ms of electrical idle every enabled receiver of octets 00 to 23 returns to
step 1 of bring-up, and the Ethernet ports go DOWN. -/
def laneControllersUp (d : Dev) : Dev :=
  (List.range 192).foldl (fun d n => if (lane n d).rxEn then reporting n (laneDrop n) d else d) { d with upd.laneIdle := none }

def execLaneControllerRestartEnd (s : State) : Out :=
  onDevIf (fun d => match d.upd.laneIdle with
    | some t => decide (t + ms ≤ d.up)
    | none => false) laneControllersUp s

def cmdUpdCancel : CmdSpec where
  opcode := 0x0E06
  len := len 0
  unitLocal := true
  check _ d := refuseIf
    (!(decide (1 ≤ d.upd.state ∧ d.upd.state ≤ 5) || (decide (d.upd.state = 6 ∧ d.house < d.upd.instant - 500 * ms) && !d.upd.prepared)))
    0x0015
  apply _ d :=
    if d.upd.state = 6 then complete d.upd.mbx d.upd.tag 0x0E05 0x0010 0 { d with upd.state := 5 } else dropSession d

def cmdUpdStatusRead : CmdSpec where
  opcode := 0x0E07
  len := len 0
  unitLocal := true
  safe := true
  reply _ d _ :=
    { payload := le 4 (updStatusWord d) ++ le 4 (updProgressWord d) ++ le 4 (updRunningWord d) ++ le 12 (t96 d.upd.instant)
        ++ ctrBytes d.upd.ctrs uACTIVATIONS 4 ++ (if d.upd.running = [] then le 128 0 else d.upd.running) }

def family0E : List CmdSpec :=
  [cmdUpdBegin, cmdUpdBlock, cmdUpdVerify, cmdUpdPlace, cmdUpdActivate, cmdUpdCancel, cmdUpdStatusRead]

/-! ### SMBus and JTAG (R568, R569) -/

/-- What an SMBus command code returns; none is not acknowledged. -/
def smbusWord (code : Nat) (d : Dev) : Option Nat :=
  match code with
  | 0x00 => some (devIdWord d)
  | 0x01 => some (devModeWord d)
  | 0x02 => some (bootStatusWord d)
  | 0x03 => some (rstCauseWord d)
  | 0x04 => some (fltStatusWord d)
  | _ => if 0x10 ≤ code ∧ code ≤ 0x71 then some (monReadWord (code - 0x10) d) else none

/-- SMBUS_BLOCK_READ: the 4 bytes returned, or none where the code, or in HELD the address, is not acknowledged. -/
def smbusRead (code : Nat) (d : Dev) : Dev :=
  { d with pins.smbus := if d.mode = HELD then [] else ((smbusWord code d).map (le 4)).getD [] }

def execSmbusBlockRead (code : Nat) (s : State) : Out := onDev (smbusRead code) s

/-- JTAG_INSTRUCTION (R569): the EXTEST instructions drive pins and override their states (R522). -/
def jtagSelect (i : TapInstr) (d : Dev) : Dev :=
  { d with pins.tap := i, pins.scan := decide (i = .extest ∨ i = .extestPulse ∨ i = .extestTrain) }

def execJtagInstruction (i : TapInstr) (s : State) : Out := onDev (jtagSelect i) s

/-- What the TAP shifts out under IDCODE: the stepping B0 and the part number (R569). -/
def tapIdcode (d : Dev) : Option Word :=
  if d.pins.tap = .idcode then some ((0x2 : BitVec 4) ++ (0x0480 : BitVec 16) ++ Config.jtagMaker) else none

/-- JTAG_TRST_N: the TAP controller alone is reset, which selects IDCODE. -/
def execJtagTrstN (s : State) : Out := onDev (jtagSelect .idcode) s

end Sys2Proof.Machine
end

