-- ==== Sys2Proof/Machine/Pads.lean ====
section
/-! DEFINITION. The pads (R512, R521 to R523, R556): what each signal pin shows, from the supplies, the mode, the safe-hold line,
boundary scan and what a command has configured. -/

namespace Sys2Proof.Machine

/-- The signal pins of R522. -/
inductive Pad where
  | laneTx (n : Nat)
  | laneRx (n : Nat)
  | pcieTx
  | aesOut (n : Nat)
  | tdmDout (n : Nat)
  | tdmClock (n : Nat)
  | wclkOut
  | pulseOut (n : Nat)
  | gpio (n : Nat)
  | thermAlert
  | thermTrip
  | qspiCs
  | qspi
  | claimAck (n : Nat)
  | other
  deriving DecidableEq, Repr

/-- What a pad shows: high-impedance, with or without a weak pull-down; at least 10 kOhm to VSS (R556); a level; electrical idle; an
input; what its function drives; or what boundary scan drives. -/
inductive PadState where
  | highZ
  | pulledDown
  | unpowered
  | low
  | high
  | idle
  | input
  | inputPulled
  | function
  | scanned
  deriving DecidableEq, Repr

/-- The pad is a CMOS pad: not of a lane and not of PCIe. -/
def Pad.cmos : Pad → Bool
  | .laneTx _ | .laneRx _ | .pcieTx => false
  | _ => true

/-- The first column of R522: HELD, TRIM, LOADER, and until the pin's function is first configured. -/
def heldState (mode : Nat) : Pad → PadState
  | .laneTx _ => .idle
  | .laneRx _ | .other => .highZ
  | .pcieTx => .function
  | .aesOut _ | .tdmDout _ | .wclkOut => .low
  | .tdmClock _ | .pulseOut _ | .gpio _ => .pulledDown
  | .thermAlert | .thermTrip => .highZ
  | .qspiCs => .high
  | .qspi => if LOADER ≤ mode then .function else .highZ
  | .claimAck _ => .inputPulled

/-- A temperature alarm pin: low while it is asserted, else high-impedance (R505, R506). -/
def alarmState (asserted : Bool) : PadState := if asserted then .low else .highZ

/-- The column of SAFE, which the safe-hold line forces (R523). -/
def safeState (d : Dev) : Pad → PadState
  | .laneTx _ => .idle
  | .laneRx _ | .other | .claimAck _ => .input
  | .pcieTx | .qspiCs | .qspi => .function
  | .aesOut _ | .tdmDout _ | .wclkOut => .low
  | .tdmClock _ | .pulseOut _ | .gpio _ => .pulledDown
  | .thermAlert => alarmState d.rst.thermAlert
  | .thermTrip => alarmState d.rst.trip

/-- The other modes: as configured (R512, R522). No command configures a GPIO. -/
def runState (d : Dev) : Pad → PadState
  | .laneTx n => if 2 ≤ txState n d then .function else .idle
  | .laneRx _ | .other | .claimAck _ => .input
  | .pcieTx | .qspiCs | .qspi => .function
  | .aesOut n => if (audPort 2 n d).state = 1 ∧ outputsRun d then .function else .low
  | .tdmDout n => if (audPort 4 n d).state = 1 ∧ outputsRun d then .function else .low
  | .tdmClock n =>
    let x := audPort 3 n d
    if x.set ∧ x.role = 0 then (if x.state = 0 then .low else .function) else .pulledDown
  | .wclkOut => if (audPort 5 0 d).state = 1 then .function else .low
  | .pulseOut n => if (tget d.tim.pulses n).set then .function else .pulledDown
  | .gpio _ => .pulledDown
  | .thermAlert => alarmState d.rst.thermAlert
  | .thermTrip => alarmState d.rst.trip

/-- What a pad shows (R521, R556): nothing without its own supply, then what boundary scan drives, and else the state of R522. -/
def padState (p : Pad) (d : Dev) : PadState :=
  if p.cmos && !supplyGood 8 d then .highZ
  else if (match p with
      | .laneTx _ | .laneRx _ => decide (d.pins.supplies.getD 3 0 < 500)
      | _ => false) then .unpowered
  else if d.pins.scan then .scanned
  else if d.flt.safeHold || decide (d.mode = SAFE) then safeState d p
  else if d.mode = HELD ∨ d.mode = TRIM ∨ d.mode = LOADER then heldState d.mode p
  else runState d p

end Sys2Proof.Machine
end

