-- ==== Sys2Proof/Machine/Regs.lean ====
section
/-! DEFINITION. The CTL address map: the word that stands at each address, and what a direct write to a register does
(R21, R22, and the register tables of the chapters). -/

namespace Sys2Proof.Machine

/-! ### Forms of a register -/

/-- The half of an 8-byte register at `first` that stands at `off`. -/
def halfAt (first v off : Nat) : Option Nat :=
  if off = first then some (v % 2 ^ 32) else if off = first + 4 then some (v / 2 ^ 32 % 2 ^ 32) else none

/-- The half of one of `n` counters from `first`, `key` being the first one's key in its table. -/
def counterAt (c : Ctrs) (first key n off : Nat) : Option Nat :=
  if first ≤ off ∧ off < first + 8 * n then halfAt 0 (tget c (key + (off - first) / 8 * 8)).toNat ((off - first) % 8) else none

/-- One of a row of words from `first`. -/
def wordAt (first : Nat) (l : List Nat) (off : Nat) : Option Nat :=
  if first ≤ off ∧ (off - first) % 4 = 0 then l[(off - first) / 4]? else none

/-- A word of a row of bytes from `first`. -/
def bytesAt (first : Nat) (l : List Byte) (off : Nat) : Option Nat :=
  if first ≤ off ∧ off < first + l.length then some (u32 l (off - first)) else none

/-- A region of `n` objects of `size` bytes from `first`: the object and the offset within it. -/
def objectAt (first size n off : Nat) : Option (Nat × Nat) :=
  if first ≤ off ∧ off < first + size * n then some ((off - first) / size, (off - first) % size) else none

/-! ### The blocks -/

def devReg (d : Dev) (o : Nat) : Option Nat :=
  wordAt 0 [devIdWord d, devModeWord d] o <|> wordAt 0x10 [bootStatusWord d, bootTimeWord d, d.boot.imageLen] o

def rstReg (d : Dev) (o : Nat) : Option Nat := wordAt 0 [rstCauseWord d] o <|> halfAt 8 d.rst.count.toNat o

def fltReg (d : Dev) (o : Nat) : Option Nat :=
  wordAt 0 [fltStatusWord d] o <|> halfAt 8 d.flt.overflow.toNat o <|> bytesAt 0x10 (fltFirstBytes d) o
    <|> bytesAt 0x30 (fltPriorBytes d) o
    <|> ((objectAt 0x1000 4 1024 o).bind fun (s, _) => if implemented s then some (fltSevWord s d) else none)
    <|> ((objectAt 0x10000 0x20 1024 o).bind fun (s, i) =>
      if implemented s then counterAt (tget d.flt.sources s).ctrs 0 fltMINOR 4 i else none)

def monReg (d : Dev) (o : Nat) : Option Nat :=
  (objectAt 0x1000 8 98 o).bind fun (i, b) => wordAt 0 [monReadWord i d, monThrWord i d] b

def timReg (d : Dev) (o : Nat) : Option Nat := (objectAt 0 0x40 4 o).bind fun (n, i) => wordAt 0 [tbStatus n d] i

def refReg (d : Dev) (o : Nat) : Option Nat := wordAt 0 [refStatus d, twos 32 d.tim.ref.ppt, refPhaseErr d] o

def pllReg (d : Dev) (o : Nat) : Option Nat :=
  wordAt 0 [pllStatus d] o <|> ((objectAt 0x10 8 11 o).bind fun (n, i) => halfAt 0 (tget d.tim.synths n).miss.toNat i)

/-- XBR_MQOS: the class of a master and its weight, 0 for a privileged one (R416). -/
def mqosWord (m : Nat) (d : Dev) : Nat :=
  if m < 6 then fld (tget d.host.masters m).weight 0 4 else fld (m - 5) 30 2

def xbrReg (d : Dev) (o : Nat) : Option Nat :=
  ((objectAt 0x100 4 9 o).map fun (m, _) => mqosWord m d)
    <|> ((objectAt 0x200 4 22 o).map fun (t, _) => fld (tget d.host.targets t).park 0 4)
    <|> ((objectAt 0x1000 0x40 9 o).bind fun (m, i) => counterAt (tget d.host.masters m).ctrs 0 0 5 i)

def laneReg (d : Dev) (o : Nat) : Option Nat :=
  (objectAt 0 0x100000 25 o).bind fun (n, i) =>
    wordAt 0 [octCfg n d, octStatus n d] i
      <|> ((objectAt 0x1000 0x100 (if n = 24 then 4 else 8) i).bind fun (k, j) =>
        let l := 8 * n + k
        wordAt 0 [laneRxCfg l d, laneTxCfg l d, laneStatus l d, laneEye l d] j <|> counterAt (lane l d).ctrs 0x40 0x40 8 j)

def sdiReg (d : Dev) (o : Nat) : Option Nat :=
  ((objectAt 0 0x400 256 o).bind fun (n, i) =>
      let r := tget d.sdiRx n
      wordAt 0 [sdiRxStatus n d, r.pid.toNat, r.claim.toNat, r.claimFc.toNat] i <|> counterAt r.ctrs 0x40 0x40 16 i)
    <|> ((objectAt 0x100000 0x400 256 o).bind fun (n, i) =>
      wordAt 0 [sdiTxStatus n d, 0, 0, 0] i <|> counterAt (tget d.sdiTx n).ctrs 0x40 0x40 5 i)

def macReg (d : Dev) (o : Nat) : Option Nat :=
  (objectAt 0 0x100000 16 o).bind fun (n, i) =>
    wordAt 0 [bufStatus n d] i
      <|> ((objectAt 0x1000 0x400 8 i).bind fun (j, b) =>
        let p := 8 * n + j
        wordAt 0 [portCfgWord p d, portMtuWord p d, portStatus p d] b <|> counterAt (port p d).ctrs 0x100 0x100 22 b)

def flowReg (d : Dev) (o : Nat) : Option Nat :=
  let t := d.flows.tbl
  wordAt 0 [flowTblStatus d, entryCount t.active, t.epoch.toNat, d.flows.free] o <|> counterAt t.ctrs 0x40 0 6 o
    <|> ((objectAt 0x100000 0x200 8192 o).bind fun (n, i) =>
      let x := rxFlow n d
      wordAt 0 [flowRxStatus n d, x.claimA.toNat, x.claimB.toNat] i <|> halfAt 0x10 x.seenA i <|> halfAt 0x18 x.seenB i
        <|> counterAt x.ctrs 0x40 0x40 22 i)
    <|> ((objectAt 0x500000 0x100 8192 o).bind fun (n, i) =>
      let x := txFlow n d
      wordAt 0 [flowTxStatus n d, min x.late (2 ^ 32 - 1)] i <|> counterAt x.ctrs 0x40 0x40 6 i)

/-- A register at a slot that names no stream or raster reads 0 (R307). -/
def named (n v : Nat) : Nat := if n = 0 then 0 else v

def fabReg (d : Dev) (o : Nat) : Option Nat :=
  ((objectAt 0x1000 0x20 64 o).bind fun (g, i) =>
      let x := timGroup g d
      wordAt 0 [tgCfgWord g d, x.phase, x.frac * 65536, tgStatusWord g d] i)
    <|> ((objectAt 0x4000 0x40 512 o).bind fun (a, i) =>
      wordAt 0 [agStatusWord a d] i <|> counterAt (alignGroup a d).ctrs 0x10 0x10 2 i)
    <|> ((objectAt 0x10000 0x80 1152 o).bind fun (r, i) =>
      (wordAt 0 [isStatusWord r d, isProdWord r d, isSlotsWord r d] i <|> halfAt 0x10 (isStart r d) i
        <|> counterAt (stream r d).ctrs 0x40 0x40 4 i).map (named (stream r d).n))
    <|> ((objectAt 0x100000 0x100 1152 o).bind fun (e, i) =>
      let x := raster e d
      let t := t96 x.takeFb
      (wordAt 0 [esStatusWord e d, esRouteWord e d, esAudioWord e d, esDelayWord e d] i
        <|> wordAt 0x10 [t % 2 ^ 32, t / 2 ^ 32 % 2 ^ 32, t / 2 ^ 64 % 2 ^ 32, 0] i <|> halfAt 0x20 x.takeStart i
        <|> wordAt 0x28 [x.newSrc + 65536 * x.oldSrc, 0] i <|> counterAt x.ctrs 0x40 0x40 11 i).map (named x.n))

def memcReg (d : Dev) (o : Nat) : Option Nat :=
  wordAt 0 [memcCfgWord d, memcStatusWord d, inServiceWord false d, inServiceWord true d, memcWinWord d, memcScrubWord d,
            memcHolidayWord d] o
    <|> ((objectAt 0x1000 0x100 64 o).bind fun (k, i) =>
      wordAt 0 [pcStatusWord k d, pcLoadWord k d] i <|> counterAt (pc k d).ctrs 0x40 0x40 12 i)

def cnvReg (d : Dev) (o : Nat) : Option Nat :=
  wordAt 0 [cnvPoolWord false d, cnvPoolWord true d] o
    <|> ((objectAt 0x1000 0x100 48 o).bind fun (e, i) =>
      let x := engine e d
      wordAt 0 [cnvStatusWord e d, cnvSelWord e d] i <|> halfAt 8 (selNum x.selA) i <|> halfAt 0x10 (selNum x.selB) i
        <|> wordAt 0x18 [x.tdelay, cnvTokensWord e d] i <|> counterAt x.ctrs 0x40 0x40 8 i)

def outReg (d : Dev) (o : Nat) : Option Nat :=
  (objectAt 0x1000 0x100 1152 o).bind fun (e, i) =>
    let x := raster e d
    wordAt 0 [outCfgWord e d, outTolWord e d] i <|> halfAt 8 x.bg.toNat i <|> halfAt 0x10 x.frame i
      <|> ((objectAt 0x20 8 4 i).bind fun (m, b) => wordAt 0 [markerPosWord (tget x.markers m), markerCfgWord (tget x.markers m)] b)
      <|> counterAt x.outCtrs 0x40 0x40 3 i
      <|> ((objectAt 0x80 8 16 i).bind fun (c, b) => halfAt 0 (tget x.palette c) b)

def audReg (d : Dev) (o : Nat) : Option Nat :=
  wordAt 0 [audCfgWord d, audStatusWord d, audPoolWord d] o <|> halfAt 0x10 (d.aud.block % 2 ^ 48) o
    <|> counterAt d.aud.ctrs 0x40 0 2 o
    <|> ((objectAt 0x100000 0x40 (srcCount d) o).bind fun (c, i) =>
      wordAt 0 [srcStatusWord c d, (audSrc c d).hold] i <|> counterAt (audSrc c d).ctrs 0x10 aWRITTEN 4 i)
    <|> ((objectAt 0x300000 0x40 (destCount d) o).bind fun (c, i) =>
      wordAt 0 [dstStatusWord c d] i <|> halfAt 0x10 (mixedOf (audDst c d) d % 2 ^ 48) i
        <|> counterAt (audDst c d).ctrs 0x18 aSAT 2 i)

def aprtReg (d : Dev) (o : Nat) : Option Nat :=
  ((objectAt 0x1000 0x100 32 o).bind fun (n, i) =>
      wordAt 0 [inStatusWord 1 n d] i <|> counterAt (audPort 1 n d).ctrs 0x40 pARRIVED 7 i)
    <|> ((objectAt 0x3000 0x100 32 o).bind fun (n, i) =>
      wordAt 0 [outStatusWord 2 n d] i <|> counterAt (audPort 2 n d).ctrs 0x80 pTAKEN 3 i)
    <|> ((objectAt 0x5000 0x100 8 o).bind fun (t, i) =>
      wordAt 0 [inStatusWord 3 t d, outStatusWord 4 t d] i <|> counterAt (audPort 3 t d).ctrs 0x40 pARRIVED 7 i
        <|> counterAt (audPort 4 t d).ctrs 0x80 pTAKEN 3 i)
    <|> wordAt 0x6000 [wclkWord d] o

def twnReg (d : Dev) (o : Nat) : Option Nat := wordAt 0 (twnWords d) o <|> counterAt d.twn.ctrs 0x100 0 14 o

def cfgReg (d : Dev) (o : Nat) : Option Nat :=
  wordAt 0 [cfgStatusWord d, d.cfg.epoch.toNat] o
    <|> ((objectAt 0x10 0x10 4 o).bind fun (b, i) => wordAt 0 (bankWords b d) i)
    <|> wordAt 0x100 (lastWords d) o <|> counterAt d.cfg.ctrs 0x200 0 5 o
    <|> ((objectAt 0x1000 0x20 256 o).bind fun (e, i) => wordAt 0 ((almWords e d).take 7) i)

/-- The UPD registers, mirrored at the same offsets in BAR0 (R537). -/
def updReg (d : Dev) (o : Nat) : Option Nat :=
  let t := t96 d.upd.instant
  wordAt 0 [updStatusWord d, updProgressWord d, updRunningWord d] o
    <|> wordAt 0x10 [t % 2 ^ 32, t / 2 ^ 32 % 2 ^ 32, t / 2 ^ 64 % 2 ^ 32] o <|> counterAt d.upd.ctrs 0x40 uACTIVATIONS 4 o

/-! ### The map (R21) -/

/-- Base addresses of the 21 block targets from DEV to UPD, and of the HBM control window. -/
def targetBases : List Nat :=
  [0x10000000, 0x11000000, 0x12000000, 0x13000000, 0x14000000, 0x15000000, 0x16000000, 0x17000000, 0x20000000, 0x30000000,
   0x38000000, 0x40000000, 0x50000000, 0x58000000, 0x60000000, 0x68000000, 0x70000000, 0x78000000, 0x80000000, 0x90000000,
   0xA0000000, 0xC0000000]

/-- The target whose region an address lies in. -/
def targetOf (a : Nat) : Option Nat :=
  (List.range 22).reverse.find? fun t => decide (targetBases.getD t 0 ≤ a)

/-- The register word at a 4-aligned CTL address below the HBM control window; none where no register is implemented. -/
def regWord (a : Nat) (d : Dev) : Option Nat :=
  match targetOf a with
  | none => none
  | some t =>
    let o := a - targetBases.getD t 0
    match t with
    | 0 => devReg d o | 1 => rstReg d o | 2 => fltReg d o | 3 => monReg d o | 4 => timReg d o | 5 => refReg d o
    | 6 => pllReg d o | 7 => xbrReg d o | 8 => laneReg d o | 9 => sdiReg d o | 10 => macReg d o | 11 => flowReg d o
    | 12 => fabReg d o | 13 => memcReg d o | 14 => cnvReg d o | 15 => outReg d o | 16 => audReg d o | 17 => aprtReg d o
    | 18 => twnReg d o | 19 => cfgReg d o | 20 => updReg d o | _ => none

/-! ### Direct writes (R22) -/

/-- A field of a written word: its value if that is in range, else the value it has. -/
def keep (v lo hi old : Nat) : Nat := if lo ≤ v ∧ v ≤ hi then v else old

/-- Enable bits written to a lane's registers act as `LANE_ENABLE` and an immediate `LANE_DISABLE` do (log entry 211). -/
def laneEnWrite (n : Nat) (rx on : Bool) (rate : Nat) (d : Dev) : Dev :=
  if on then
    (if rx then enableRx n rate d
     else updLane n (fun l => { l with txEn := true, txRate := rate }) d)
  else if (if rx then (lane n d).rxEn else (lane n d).txEn) then stopFunc (if rx then .laneRx n else .laneTx n) d
  else if rx then updLane n (fun l => { l with rate := rate }) d else updLane n (fun l => { l with txRate := rate }) d

/-- LANE registers. The twin group's MODE is read-only; a mode takes effect only while the octet is idle (R86), and a rate only if
the octet's mode allows it (R87); MAIN stays at least 24 (R90). -/
def laneWrite (o v : Nat) (d : Dev) : Dev :=
  match objectAt 0 0x100000 25 o with
  | none => d
  | some (n, i) =>
    if i = 0 then
      let m := bits v 31 28
      let ok := decide (n < 24 ∧ (m = 0 ∨ m = 0xF ∨ (m ≤ 4 ∧ n < 16))) && octIdle n d
      let d := if ok then octetMode n m d else d
      let d := if bitOf v 27 then d else abortVisit n (tget d.octets n).roveLane d
      updOct n (fun x => { x with
        roveEn := bitOf v 27, dwell := keep (bits v 23 16) 1 255 x.dwell,
        lastVisit := if x.roveEn then x.lastVisit else d.up }) d
    else
      let mode := (tget d.octets n).mode
      match objectAt 0x1000 0x100 (if n = 24 then 4 else 8) i with
    | some (k, 0) =>
      let l := 8 * n + k
      let rate := bits v 27 24
      let rate := if rateAllowed n mode rate then rate else (lane l d).rate
      laneEnWrite l true (bitOf v 31) rate (updLane l (fun x => { x with
        invert := bitOf v 30, adapt := keep (bits v 29 28) 0 2 x.adapt, ctle := bits v 23 20, vga := bits v 19 15,
        losTh := keep (bits v 14 11) 0 12 x.losTh, rxPre := bitOf v 10 }) d)
    | some (k, 4) =>
      let l := 8 * n + k
      let rate := bits v 29 26
      let rate := if rate ≠ 0xE ∧ rateAllowed n mode rate then rate else (lane l d).txRate
      let ok := decide (24 + bits v 21 19 + bits v 18 15 + bits v 14 10 ≤ 64)
      laneEnWrite l false (bitOf v 31) rate (updLane l (fun x => { x with
        txInv := bitOf v 30, swing := bits v 25 22, pre2 := if ok then bits v 21 19 else x.pre2,
        pre1 := if ok then bits v 18 15 else x.pre1, post1 := if ok then bits v 14 10 else x.post1, txPre := bitOf v 9 }) d)
    | _ => d

/-- MAC registers. EN acts as `MAC_PORT_ENABLE` and an immediate `MAC_PORT_DISABLE` do (log entry 211); FEC takes an option of the
port type, and its change returns an enabled port to step 1 (R156, R181). -/
def macWrite (o v : Nat) (d : Dev) : Dev :=
  match objectAt 0 0x100000 16 o with
  | none => d
  | some (n, i) => match objectAt 0x1000 0x400 8 i with
    | some (j, 0) =>
      let p := 8 * n + j
      let mode := (tget d.octets n).mode
      let f := bits v 30 29
      let fec := if (if mode = 1 then f ≤ 2 else f = 3) then f else (port p d).fec
      let d := if fec ≠ (port p d).fec ∧ (port p d).en then portDown p false d else d
      let d := updPort p (fun x => { x with
        fec := fec, fc := keep (bits v 28 27) 0 2 x.fc, allmulti := bitOf v 26, promisc := bitOf v 25,
        pvid := keep (bits v 23 12) 1 4094 x.pvid }) d
      if bitOf v 31 then (if portExists p d && lanesReady p d then enablePort p d else d)
      else if (port p d).en then stopFunc (.port p) d else d
    | some (j, 4) => updPort (8 * n + j) (fun x => { x with
        rxMtu := keep (bits v 29 16) 64 9216 x.rxMtu, ctrlMtu := keep (bits v 13 0) 64 9216 x.ctrlMtu }) d
    | _ => d

/-- MEMC registers; MEMC_WIN is set by `MEMC_WINDOW` alone (R235). -/
def memcWrite (o v : Nat) (d : Dev) : Dev :=
  let m := d.memc
  if o = 0 then { d with
    memc.autoRetire := bitOf v 31, memc.migPar := keep (bits v 30 24) 1 127 m.migPar, memc.ueTh := keep (bits v 23 16) 1 255 m.ueTh,
    memc.ceExp := keep (bits v 15 11) 8 24 m.ceExp }
  else if o = 0x14 then { d with memc.scrubEn := bitOf v 31, memc.periodH := keep (bits v 30 23) 1 168 m.periodH }
  else if o = 0x18 then { d with
    memc.retrainMs := keep (bits v 31 22) 10 1000 m.retrainMs, memc.tempStep := keep (bits v 21 17) 1 20 m.tempStep }
  else d

/-- FLT_SEV: the major severity of a source that is not locked, and the minor one (R485). -/
def sevWrite (s v : Nat) (d : Dev) : Dev :=
  match srcInfo s with
  | none => d
  | some i => updSource s (fun x => { x with
      sevMajor := if i.locked then x.sevMajor else some (keep (bits v 6 4) 0 4 (sevMajor s i d)),
      sevMinor := keep (bits v 2 0) 0 4 x.sevMinor }) d

/-- What a register's write does: the fields that are RW take the values written, within their ranges; every other register
keeps its value. -/
def regStore (a v : Nat) (d : Dev) : Dev :=
  match targetOf a with
  | none => d
  | some t =>
    let o := a - targetBases.getD t 0
    match t with
    | 2 => (match objectAt 0x1000 4 1024 o with
      | some (s, _) => sevWrite s v d
      | none => d)
    | 3 => (match objectAt 0x1000 8 98 o with
      | some (i, 4) =>
        let w := signed 16 (bits v 31 16)
        let c := signed 16 (bits v 15 0)
        if monOrder i w c then setThresholds i w c d else d
      | _ => d)
    | 7 => (match objectAt 0x100 4 6 o with
      | some (m, _) => { d with
          host.masters := tupd d.host.masters m fun x => { x with weight := keep (bits v 3 0) 1 15 x.weight } }
      | none => d)
    | 8 => laneWrite o v d
    | 10 => macWrite o v d
    | 13 => memcWrite o v d
    -- Only `AUD_CONFIG` changes RATE (R354); RAMP_BLOCKS comes into force as that command's does (R380).
    | 16 => if o = 0 ∧ 1 ≤ bits v 12 0 ∧ bits v 12 0 ≤ 8000 then { d with
        aud.rampNext := some (nextBlock (d.house + 200 * us) - 1, bits v 12 0) } else d
    | 18 => if o = 0 then { d with
        twn.unit := keep (bits v 31 24) 0 254 d.twn.unit, twn.ackPins := bits v 23 16, twn.soloClaim := bitOf v 15,
        twn.hb := keep (bits v 14 10) 1 20 d.twn.hb } else d
    | _ => d

end Sys2Proof.Machine
end

