-- ==== Sys2Proof/Machine/Host.lean ====
section
/-! DEFINITION. Chapter 11: the crossbar, Perby, mailboxes, the event ring, BAR0 and BAR2, the debug unlock and the commands
of family 0x0F; and how Perby runs a host command of any family. -/

namespace Sys2Proof.Machine

/-! ### The crossbar (R413 to R416) -/

def target (t : Nat) (d : Dev) : Target := tget d.host.targets t
def updTarget (t : Nat) (f : Target → Target) (d : Dev) : Dev := { d with host.targets := tupd d.host.targets t f }
def masterBump (m k n : Nat) (d : Dev) : Dev :=
  { d with host.masters := tupd d.host.masters m fun x => { x with ctrs := bumpBy x.ctrs k n } }

/-- Counter offsets of a master (R416). -/
abbrev xACCESSES := 0x00
abbrev xDECODE_ERR := 0x08
abbrev xDENIED := 0x10
abbrev xABORTS := 0x18
abbrev xLOCK_BREAK := 0x20

/-- The targets that a master reaches: 0 to 20 from DEV to UPD, 21 the HBM control window. -/
def reaches (m t : Nat) (d : Dev) : Bool :=
  if m < 4 then decide (t < 22)
  else if m < 6 then d.host.debug && decide (t < 22)
  else match m with
  | 6 => decide (t < 4)
  | 7 => decide (t < 20 ∧ t ≠ 7)
  | 8 => decide (t = 20 ∨ t = 0 ∨ t = 1 ∨ t = 21)
  | _ => false

/-- The detail code of an access's report (R21). -/
def accessCode (m : Nat) (w : Bool) : Nat := m + 16 * b2n w

/-- A normal master's turn moves on (R414): up to WEIGHT grants in a row. -/
def takeTurn (m : Nat) (d : Dev) (x : Target) : Target :=
  if x.turn = m ∧ x.grants < (tget d.host.masters m).weight then { x with grants := x.grants + 1 }
  else { x with turn := m, grants := 1 }

/-- A target is granted to a master for a burst: it stays parked there (R414). -/
def granted (t m : Nat) (d : Dev) : Dev :=
  updTarget t (fun x =>
    let x := { x with park := m, waited := tset x.waited m 0 }
    if m < 6 then takeTurn m d x else x) d

/-- The words of HBM that `n` bytes from a device physical address touch, by pseudo-channel and word. -/
def wordsAt (key n : Nat) : List (Nat × Nat) :=
  if n = 0 then [] else (List.range ((key + n - 1) / 32 - key / 32 + 1)).map fun i =>
    ((key / 32 + i) / 2 ^ 25, (key / 32 + i) % 2 ^ 25)

/-- A word cannot be read: it is delivered poisoned, or its pseudo-channel is in reset or failure (R251). -/
def wordBad (k w : Nat) (d : Dev) : Bool := pcBad (pc k d) || readBad k w [] d

/-- A word passes its checker on a read (R26). -/
def passChecker (k w : Nat) (d : Dev) : Dev := if pcBad (pc k d) then d else checkRead k w [] false d

/-- A word is written from byte `key` on, `n` bytes of it: a whole word loses its poison, part of one is read first and keeps
it (R235, R396). One whose pseudo-channel is in reset or failure is discarded. -/
def writeWord (key n k w : Nat) (d : Dev) : Dev :=
  let first := (wordKey k w) * 32
  if pcBad (pc k d) then discardWrite k { requester := 64, word := w, write := true, row := 0, poisoned := false } d
  else if key ≤ first ∧ first + 32 ≤ key + n then setErrs (wordKey k w) [] d
  else passChecker k w d

/-- Bytes written from a device physical address, but for those that are discarded. -/
def hbmStore (key : Nat) (bytes : List Byte) (d : Dev) : List (Nat × Byte) :=
  ((List.range bytes.length).zip bytes).filterMap fun b =>
    if pcBad (pc ((key + b.1) / 2 ^ 30) d) then none else some (key + b.1, b.2)

/-- The HBM control window shows `n` bytes at `b` (R235). -/
def windowShows (b n : Nat) (d : Dev) : Bool := d.memc.winEn && decide (b + n ≤ pcBytes)

/-- The device physical address of byte `b` of the window. -/
def windowKey (b : Nat) (d : Dev) : Nat := d.memc.winPc * 2 ^ 30 + b

/-- A read through the window: status and bytes. -/
def windowRead (mem : Mem) (b n : Nat) (d : Dev) : Nat × List Byte :=
  if !windowShows b n d then (3, le n 0)
  else if (wordsAt (windowKey b d) n).any fun w => wordBad w.1 w.2 d then (5, le n 0)
  else (0, Mem.readN mem (windowKey b d) n)

/-- A decode error (R21). -/
def decodeError (m : Nat) (w : Bool) (a : Nat) (d : Dev) : Dev :=
  report 0x030 true (accessCode m w) a (masterBump m xDECODE_ERR 1 d)

/-- Access denied (R413). -/
def accessDenied (m : Nat) (w : Bool) (a : Nat) (d : Dev) : Dev :=
  report 0x031 true (accessCode m w) a (masterBump m xDENIED 1 d)

/-- One beat of a master: its status, the word it reads, and the device after it. -/
def beat (m : Nat) (w : Bool) (a v : Nat) (mem : Mem) (d : Dev) : (Nat × Nat) × Dev :=
  match targetOf a with
  | none => ((3, 0), decodeError m w a d)
  | some t =>
    if !reaches m t d then ((4, 0), accessDenied m w a d)
    else
      let d := masterBump m xACCESSES 1 (granted t m d)
      if t = 21 then
        let b := a - 0xC0000000
        if !windowShows b 4 d then ((3, 0), decodeError m w a d)
        else if w then
          let key := windowKey b d
          ((0, 0), (wordsAt key 4).foldl (fun d x => writeWord key 4 x.1 x.2 d) d)
        else
          let r := windowRead mem b 4 d
          ((r.1, leNat r.2), (wordsAt (windowKey b d) 4).foldl (fun d x => passChecker x.1 x.2 d) d)
      else match regWord a d with
      | none => ((3, 0), decodeError m w a d)
      | some x => if w then ((0, 0), regStore a v d) else ((0, x), useFree d)

/-- What a beat writes to HBM. -/
def beatStore (m : Nat) (w : Bool) (a v : Nat) (d : Dev) : List (Nat × Byte) :=
  if w && decide (targetOf a = some 21) && reaches m 21 d && windowShows (a - 0xC0000000) 4 d then
    hbmStore (windowKey (a - 0xC0000000) d) (le 4 v) d
  else []

/-- Beats one after another: statuses and words read, in order. -/
def beats (m : Nat) (w : Bool) (mem : Mem) : List (Nat × Nat) → Dev → List (Nat × Nat) × Dev
  | [], d => ([], d)
  | (a, v) :: l, d =>
    let r := beat m w a v mem d
    let q := beats m w mem l r.2
    (r.1 :: q.1, q.2)

/-- What beats write to HBM. -/
def beatsStore (m : Nat) (w : Bool) (mem : Mem) : List (Nat × Nat) → Dev → List (Nat × Byte)
  | [], _ => []
  | (a, v) :: l, d => beatStore m w a v d ++ beatsStore m w mem l (beat m w a v mem d).2

/-- The beats of a burst: addresses and the words written. -/
def burstOf (q : XReq) : List (Nat × Nat) :=
  (List.range (max 1 (min 16 q.beats))).map fun i => (q.addr + 4 * i, ((q.values[i]?).getD 0).toNat)

/-- The burst that an arbiter grants (R414, R415): the lock holder's; else a privileged master that has waited through 4
grants, else the privileged master of lowest class; else the normal master whose turn it is, or the next in ascending
order. -/
def arbitrate (t : Nat) (reqs : List XReq) (d : Dev) : Option XReq :=
  let x := target t d
  let of (m : Nat) : Option XReq := reqs.find? fun q => decide (q.master = m)
  match x.lock with
  | some m => of m
  | none =>
    let starved := [8, 7].find? fun m => (of m).isSome && decide (4 ≤ tget x.waited m)
    match starved.orElse (fun _ => [6, 7, 8].find? fun m => (of m).isSome) with
    | some m => of m
    | none =>
      let stay := decide (x.grants < (tget d.host.masters x.turn).weight) && decide (0 < x.grants)
      let order := (List.range 6).map fun i => (x.turn + (if stay then i else i + 1)) % 6
      (order.find? fun m => (of m).isSome).bind of

/-- A privileged grant makes the requesting privileged masters of higher class number wait through it. -/
def waitThrough (t m : Nat) (reqs : List XReq) (d : Dev) : Dev :=
  if m < 6 then d
  else ([7, 8].filter fun q => decide (m < q) && reqs.any fun r => decide (r.master = q)).foldl
    (fun d q => updTarget t (fun x => { x with waited := tset x.waited q (tget x.waited q + 1) }) d) d

/-- A target's lock has lasted 64 CTL cycles from its first grant (R415). -/
def lockSpent (t : Nat) (d : Dev) : Bool := (target t d).lock.isSome && decide ((target t d).lockAt + 128 ≤ d.up)

/-- LOCK_BREAK (R415): a sequence that has lasted 64 CTL cycles is aborted, from the access at `a` on. -/
def lockBreak (t a : Nat) (w : Bool) (d : Dev) : Dev :=
  match (target t d).lock with
  | none => d
  | some m =>
    report 0x032 true (accessCode m w) a
      { masterBump m xLOCK_BREAK 1 (updTarget t (fun x => { x with lock := none }) d) with host.completion := 6 }

/-- The next access of a sequence whose lock is spent breaks it and is aborted (R415). -/
def breakSpent (t : Nat) (reqs : List XReq) (d : Dev) : Dev :=
  if lockSpent t d then
    match reqs.find? fun q => decide ((target t d).lock = some q.master) with
    | some q => { lockBreak t q.addr q.write d with host.bytes := if q.write then [] else le (4 * (burstOf q).length) 0 }
    | none => d
  else d

/-- The target's lock after a burst of a normal master: a sequence that goes on holds it (R415). -/
def lockAfter (q : XReq) (now : Time) (x : Target) : Target :=
  if q.locked ∧ q.master < 6 then
    if x.lock = some q.master then { x with locked := x.locked + (burstOf q).length }
    else { x with lock := some q.master, lockAt := now, locked := (burstOf q).length }
  else { x with lock := none }

/-- CROSSBAR_ACCESS (R413 to R415): of the bursts that wait at a target, those of masters that do not reach it are denied, and
one of the others is granted. What is shown is the granted burst's completion, or that of the first denied one. -/
def crossbarAccess (t : Nat) (reqs : List XReq) (mem : Mem) (d : Dev) : Dev × List (Nat × Byte) :=
  let l := reqs.filter fun q => reaches q.master t d
  let denied := reqs.filter fun q => !reaches q.master t d
  let d := denied.foldl (fun d q => accessDenied q.master q.write q.addr d) d
  match arbitrate t l d with
  | none => (match denied with
    | [] => (d, [])
    | q :: _ => ({ d with host.bytes := if q.write then [] else le (4 * (burstOf q).length) 0, host.completion := 4 }, []))
  | some q =>
    let d' := updTarget t (lockAfter q d.up) (waitThrough t q.master l d)
    let r := beats q.master q.write mem (burstOf q) d'
    ({ r.2 with
       host.bytes := if q.write then [] else r.1.flatMap fun x => le 4 x.2,
       host.completion := ((r.1.find? fun x => decide (x.1 ≠ 0)).map (·.1)).getD 0 },
     beatsStore q.master q.write mem (burstOf q) d')

/-- The bursts that can wait at a target: masters M0 to M8, addresses in its region; a locked sequence reads first and has up
to 8 accesses (R415). -/
def waitsAt (t : Nat) (d : Dev) (q : XReq) : Bool :=
  let x := target t d
  let within := decide (x.lock = some q.master)
  decide (q.master < 9 ∧ q.addr % 4 = 0) && decide (targetOf q.addr = some t)
    && (!(within || q.locked && decide (q.master < 6)) ||
      ((within || !q.write) && decide ((if within then x.locked else 0) + (burstOf q).length ≤ 8)))

/-- A burst to addresses of no target: the crossbar itself answers each beat with a decode error (R21). -/
def strayBurst (q : XReq) (d : Dev) : Dev :=
  let n := (burstOf q).length
  { (burstOf q).foldl (fun d b => decodeError q.master q.write b.1 d) d with
    host.bytes := if q.write then [] else le (4 * n) 0, host.completion := 3 }

/-- The state with a device and bytes written to HBM. -/
def withStore (d : Dev) (w : List (Nat × Byte)) (s : State) : State :=
  { s with dev := d, hbm := w.foldl (fun m b => Mem.write m b.1 b.2) s.hbm }

/-- The crossbar runs in every mode but HELD. -/
def execCrossbarAccess (t : Nat) (reqs : List XReq) (s : State) : Out :=
  let stray := reqs.filter fun q => decide (q.master < 9 ∧ q.addr % 4 = 0) && (targetOf q.addr).isNone
  let reqs := reqs.filter fun q => !stray.contains q
  if s.dev.mode ≠ HELD ∧ reqs.all (waitsAt t s.dev) = true then
    let d := stray.foldl (fun d q => strayBurst q d) s.dev
    if lockSpent t d then .next { s with dev := breakSpent t reqs d }
    else
      let r := if reqs = [] then (d, []) else crossbarAccess t reqs s.hbm d
      .next (withStore r.1 r.2 s)
  else .next s

def execLockBreak (t a : Nat) (w : Bool) (s : State) : Out :=
  onDevIf (fun d => decide (targetOf a = some t ∧ a % 4 = 0) && lockSpent t d) (lockBreak t a w) s

/-- CONTROL_WINDOW_ACCESS (R235). -/
def execControlWindowAccess (m : Nat) (w : Bool) (b len : Nat) (bytes : List Byte) (s : State) : Out :=
  let d := s.dev
  if d.mode = HELD ∨ 9 ≤ m then .next s
  else if !reaches m 21 d then
    .next { s with dev := { accessDenied m w (0xC0000000 + b) d with host.bytes := if w then [] else le len 0, host.completion := 4 } }
  else
    let n := if w then bytes.length else len
    let d := masterBump m xACCESSES 1 (granted 21 m d)
    if !windowShows b n d then
      .next { s with dev := { decodeError m w (0xC0000000 + b) d with host.bytes := if w then [] else le len 0, host.completion := 3 } }
    else if w then
      let key := windowKey b d
      let d' := (wordsAt key n).foldl (fun d x => writeWord key n x.1 x.2 d) d
      .next (withStore { d' with host.bytes := [], host.completion := 0 } (hbmStore key bytes d) s)
    else
      let r := windowRead s.hbm b n d
      let d' := (wordsAt (windowKey b d) n).foldl (fun d x => passChecker x.1 x.2 d) d
      .next { s with dev := { d' with host.bytes := r.2, host.completion := r.1 } }

/-- A direct access through the debug window's master M4. -/
def debugAccess (w : Bool) (a v : Nat) (s : State) : State :=
  let r := beat 4 w a v s.hbm s.dev
  withStore { r.2 with host.bytes := if w then [] else le 4 r.1.2, host.completion := r.1.1 } (beatStore 4 w a v s.dev) s

/-- DEBUG_WINDOW_ACCESS (R418): offset `x` of the window; while DEBUG is 0 it reads 0 and discards writes. -/
def execDebugWindowAccess (w : Bool) (x : Nat) (v : Word) (s : State) : Out :=
  if s.dev.host.linkUp = false ∨ 0x800000 ≤ x ∨ x % 4 ≠ 0 then .next s
  else if s.dev.host.debug = false then
    .next { s with dev := { s.dev with host.bytes := if w then [] else le 4 0, host.completion := 0 } }
  else .next (debugAccess w (s.dev.host.winBase * 2 ^ 23 + x) v.toNat s)

/-- MSIX_VECTOR_UNMASK (R412). -/
def unmask (v : Nat) (d : Dev) : Dev :=
  let x := d.host.msix
  let one : BitVec 64 := BitVec.ofNat 64 (2 ^ v)
  { d with host.msix := { x with masked := x.masked &&& ~~~ one, pending := x.pending &&& ~~~ one,
                                 sent := if x.pending.getLsbD v then tupd x.sent v (· + 1) else x.sent } }

/-- A host write to a word of the MSI-X table (R394, PCIe 4.0): an entry's address and data words, and its vector control, whose
bit 0 masks the vector. -/
def msixWrite (o : Nat) (v : Word) (d : Dev) : Dev :=
  if o % 16 < 12 then { d with host.msix.words := tset d.host.msix.words (o / 4) v }
  else if v.getLsbD 0 then { d with host.msix.masked := d.host.msix.masked ||| BitVec.ofNat 64 (2 ^ (o / 16)) }
  else unmask (o / 16) d

/-- REGISTER_WRITE: a direct host write to a CTL address is accepted in MAINTENANCE with debug unlocked alone (R22); an
address below BAR0's size is the BAR0 register at that offset, of which the MSI-X table and DBG_WIN_BASE (writable while DEBUG
is 1, R410) have no row of their own. -/
def execRegisterWrite (a : Nat) (v : Word) (s : State) : Out :=
  let d := s.dev
  if d.host.linkUp = false ∨ a % 4 ≠ 0 ∨ 2 ^ 32 ≤ a then .next s
  else if 0x8000 ≤ a ∧ a < 0x8400 then .next { s with dev := msixWrite (a - 0x8000) v d }
  else if d.host.debug = false then .next s
  else if a = 0x011020 then .next { s with dev := { d with host.winBase := v.toNat / 2 ^ 23 } }
  else if d.mode = MAINTENANCE ∧ 0x1000000 ≤ a then .next (debugAccess true a v.toNat s)
  else .next s

/-! ### BAR0 and BAR2 (R394 to R399) -/

/-- An event ring entry's 32 bytes (R409). -/
def entryBytes (e : EventEntry) : List Byte :=
  le 2 e.code ++ le 1 (e.code / 256) ++ le 1 (b2n e.phase + 2 * b2n e.loss) ++ le 4 e.tag.toNat ++ le 8 e.time ++ le 2 e.object
    ++ le 2 0 ++ (e.data ++ le 12 0).take 12

def mailbox (n : Nat) (d : Dev) : Mailbox := tget d.host.mbx n
def updMbx (n : Nat) (f : Mailbox → Mailbox) (d : Dev) : Dev := { d with host.mbx := tupd d.host.mbx n f }

/-- MBX_STATE (R400). -/
def mbxStateWord (n : Nat) (d : Dev) : Nat :=
  let x := mailbox n d
  fld x.state 30 2 + fld (b2n x.dbErr) 29 1 + fld (b2n x.wrErr) 28 1

/-- EVT_STATUS (R410). -/
def evtStatusWord (d : Dev) : Nat := d.host.evt.enabled.toNat * 65536 + d.host.evt.armed.toNat

/-- The register word at a 4-aligned BAR0 offset; what is not listed reads 0 (R394, R395, R410, R507, R537). -/
def bar0Word (o : Nat) (d : Dev) : Nat :=
  let w : Option Nat :=
    if o < 0x1000 then
      wordAt 0 [devIdWord d, devModeWord d, hostStatusWord d, d.host.version.toNat] o <|> halfAt 0x10 d.host.restarts.toNat o
    else if o < 0x2000 then (if o < 0x1050 then fltReg d (o - 0x1000) else none)
    else if o < 0x3000 then
      wordAt 0x2000 [bootStatusWord d, bootTimeWord d, d.boot.imageLen] o <|> wordAt 0x2010 [rstCauseWord d] o
        <|> halfAt 0x2018 d.rst.count.toNat o
    else if o < 0x4000 then updReg d (o - 0x3000)
    else if 0x8000 ≤ o ∧ o < 0x8400 then
      some (if o % 16 = 12 then b2n (d.host.msix.masked.getLsbD ((o - 0x8000) / 16)) else (tget d.host.msix.words ((o - 0x8000) / 4)).toNat)
    else if 0x9000 ≤ o ∧ o < 0x9008 then halfAt 0x9000 d.host.msix.pending.toNat o
    else if 0x10000 ≤ o ∧ o < 0x10100 then
      let n := (o - 0x10000) / 16
      wordAt 4 [mbxStateWord n d] (o % 16) <|> halfAt 8 (mailbox n d).resps.toNat (o % 16)
    else if 0x11000 ≤ o ∧ o < 0x11100 then
      let e := d.host.evt
      wordAt 0x11000 [e.prod, e.cons, evtStatusWord d] o <|> halfAt 0x11010 e.lost.toNat o <|> halfAt 0x11018 e.discard.toNat o
        <|> wordAt 0x11020 [d.host.winBase * 2 ^ 23] o
    else none
  w.getD 0

/-- The byte at a BAR0 offset within the mailbox windows or the event ring. -/
def windowByte (o : Nat) (d : Dev) : Byte :=
  if o < 0x200000 then
    let m := mailbox ((o - 0x100000) / 0x2000) d
    let i := (o - 0x100000) % 0x2000
    if i < 0x1000 then tget m.request i else m.response.getD (i - 0x1000) 0
  else (entryBytes (tget d.host.evt.ring ((o - 0x200000) / 32))).getD ((o - 0x200000) % 32) 0

/-- BAR0 offsets that hold no registers: the mailbox windows and the event ring. -/
def inWindows (o : Nat) : Bool := decide ((0x100000 ≤ o ∧ o < 0x120000) ∨ (0x200000 ≤ o ∧ o < 0x240000))

/-- BAR0_WIDE_ACCESS: a read of any length. A register access wider than 8 bytes completes with Unsupported Request; the
windows accept any size and alignment; a narrower access reads the registers (R395). -/
def bar0Wide (a len : Nat) (d : Dev) : Dev :=
  if inWindows a then { d with host.bytes := (List.range len).map fun i => windowByte (a + i) d, host.completion := 0 }
  else if 8 < len then { d with host.bytes := [], host.completion := 1 }
  else { d with
    host.bytes := (List.range len).map fun i => ((le 4 (bar0Word ((a + i) / 4 * 4) d)).getD ((a + i) % 4) 0), host.completion := 0 }

def execBar0WideAccess (a len : Nat) (s : State) : Out := onDevIf (fun d => d.host.linkUp) (bar0Wide a len) s

/-- The staging words that `n` bytes at `off` touch: pseudo-channel, word, and the offset of the first byte. -/
def stagingWords (off n : Nat) (d : Dev) : List (Nat × Nat × Nat) :=
  if n = 0 then [] else (List.range ((off + n - 1) / 32 - off / 32 + 1)).map fun i =>
    let a := sysAddr (32 * (off / 32 + i)) d
    (a / 2 ^ 30, a % 2 ^ 30 / 32, 32 * (off / 32 + i))

/-- A read of BAR2: a word that cannot be read sets EP, and its bytes are free values (R396). -/
def bar2Read (off n : Nat) (mem : Mem) (d : Dev) : Dev :=
  let ws := stagingWords off n d
  let bad := ws.filter fun w => wordBad w.1 w.2.1 d
  let bytes := (List.range n).map fun i =>
    if bad.any fun w => decide (w.2.2 ≤ off + i ∧ off + i < w.2.2 + 32) then (Config.freeValue (d.free + i)).setWidth 8
    else Mem.read mem (sysAddr (off + i) d)
  let d := ws.foldl (fun d w => passChecker w.1 w.2.1 d) d
  { d with host.bytes := bytes, host.completion := if bad = [] then 0 else 2, free := d.free + (if bad = [] then 0 else n) }

/-- A write to BAR2. -/
def bar2Write (off n : Nat) (d : Dev) : Dev :=
  let d' := (stagingWords off n d).foldl (fun d w =>
    -- The word's own bytes stand at its device physical address.
    let first := (wordKey w.1 w.2.1) * 32
    let lo := max off w.2.2 - w.2.2
    writeWord (first + lo) (min (off + n) (w.2.2 + 32) - max off w.2.2) w.1 w.2.1 d) d
  { d' with host.bytes := [], host.completion := 0 }

/-- BAR2_ACCESS (R396, R397). -/
def execBar2Access (w : Bool) (a len : Nat) (bytes : List Byte) (s : State) : Out :=
  let d := s.dev
  let n := if w then bytes.length else len
  if d.host.linkUp = false ∨ stagingBytes < a + n then .next s
  else if d.host.bar2Ready = false then
    .next { s with dev := { d with host.bytes := if w then [] else le n 0, host.completion := 0 } }
  else if w then
    let stores := ((List.range n).zip bytes).filterMap fun b =>
      let x := sysAddr (a + b.1) d
      if pcBad (pc (x / 2 ^ 30) d) then none else some (x, b.2)
    .next (withStore (bar2Write a n d) stores s)
  else .next { s with dev := bar2Read a n s.hbm d }

/-! ### Mailboxes (R400 to R405, R576) -/

/-- The loader serves commands under R519. -/
def loaderServes (d : Dev) : Bool := d.upd.loader && !d.host.perbyUp

/-- Firmware serves a mailbox, now or once a restart ends (R576, R392). -/
def mailboxServed (n : Nat) (d : Dev) : Bool := d.host.perbyUp || (loaderServes d && decide (n = 0))

/-- MBX_DB (R400, R401, R576). -/
def doorbell (n : Nat) (tag : Word) (d : Dev) : Dev :=
  if (mailbox n d).state = 1 ∨ mailboxServed n d = false then updMbx n (fun m => { m with dbErr := true }) d
  else updMbx n (fun m => { m with state := 1, tag := tag, accepted := false }) { d with host.rung := d.host.rung ++ [n] }

def execMbxDb (n : Nat) (tag : Word) (s : State) : Out :=
  onDevIf (fun d => decide (n < 16) && d.host.linkUp) (doorbell n tag) s

/-- MAILBOX_WINDOW_WRITE (R401): bytes from an offset of mailbox `n`'s windows. -/
def windowWrite (n off : Nat) (bytes : List Byte) (d : Dev) : Dev :=
  let l := ((List.range bytes.length).zip bytes).filter fun b => decide (off + b.1 < 0x1000)
  if l = [] then d
  else if (mailbox n d).state = 1 then updMbx n (fun m => { m with wrErr := true }) d
  else updMbx n (fun m => { m with request := l.foldl (fun r b => tset r (off + b.1) b.2) m.request }) d

def execMailboxWindowWrite (n off : Nat) (bytes : List Byte) (s : State) : Out :=
  onDevIf (fun d => decide (n < 16 ∧ off < 0x2000) && d.host.linkUp) (windowWrite n off bytes) s

/-- MBX_STATE_WRITE (R400): DB_ERR and WR_ERR are cleared by writing 1. -/
def execMbxStateWrite (n : Nat) (v : Word) (s : State) : Out :=
  onDevIf (fun d => decide (n < 16) && d.host.linkUp)
    (updMbx n fun m => { m with dbErr := m.dbErr && !v.getLsbD 29, wrErr := m.wrErr && !v.getLsbD 28 }) s

/-- The answer of a command (R405, R411): the response window, DONE, MBX_RESPS and the mailbox's vector; an answer 0x0001 is
owed a completion event (R408). -/
def answer (n op flags : Nat) (tag : Word) (r : Reply) (d : Dev) : Dev :=
  let head := le 2 op ++ le 2 flags ++ le 4 tag.toNat ++ le 4 r.payload.length ++ le 2 r.status ++ le 2 r.detail
  let d := updMbx n (fun m => { m with state := 2, accepted := false, resps := m.resps + 1, response := head ++ r.payload }) d
  let d := { d with host.rung := d.host.rung.erase n }
  signal n (if r.status = 1 then owe d else d)

/-! ### The event ring and the vectors (R409 to R412) -/

/-- Completion events among the `k` entries from EVT_CONS on. -/
def completionsIn (k : Nat) (e : Events) : Nat :=
  ((List.range k).filter fun i => decide ((tget e.ring ((e.cons + i) % 8192)).code = 0x0001)).length

/-- EVT_CONS_WRITE (R408 to R410, R412): an index outside the entries present is ignored. -/
def evtCons (v : Nat) (d : Dev) : Dev :=
  let e := d.host.evt
  let i := v % 16384
  let k := (i + 16384 - e.cons) % 16384
  if e.present < k then d
  else
    let d := { d with host.evt := { e with cons := i, armed := 0xFFFF, owed := e.owed - completionsIn k e } }
    if d.host.evt.present = 0 then d
    else
      let c := (tget e.ring (i % 8192)).code / 256 % 16
      signal (16 + c) { d with host.evt.armed := 0xFFFF &&& ~~~ (BitVec.ofNat 16 (2 ^ c)) }

def execEvtConsWrite (v : Word) (s : State) : Out := onDevIf (fun d => d.host.linkUp) (evtCons v.toNat) s

def execMsixVectorUnmask (v : Nat) (s : State) : Out := onDevIf (fun d => decide (v < 64) && d.host.linkUp) (unmask v) s

/-! ### How Perby runs a command (R33, R402 to R408, R431, R432, R466, R519) -/

/-- Perby executes a request of a mailbox. -/
def serves (n : Nat) (d : Dev) : Bool := decide (n < 16) && (perbyServes d || (loaderServes d && decide (n = 0)))

/-- The mirror carries the command in a pair, and a shadow refuses it (R441, R466). -/
def mirrored (c : CmdSpec) : Bool :=
  (c.config && !c.unitLocal) || (decide (c.opcode / 256 = 0x0B) && !([0x0B06, 0x0B0A, 0x0B0F].contains c.opcode))

/-- The unit leads a pair and sends the mirror: in LEAD, and on the lead of a pairing from step 4 on (R469). -/
def mirrorLead (d : Dev) : Bool :=
  decide (roleMode d = LEAD) || (decide (d.twn.pair = 1 ∧ 4 ≤ d.twn.step) && !d.twn.isShadow)

/-- The first refusal of a command: LENGTH, the loader, the mode, the role, the fields, the family's checks, a planned
handover, and the configuration rules. -/
def refusal (c : CmdSpec) (a : Args) (d : Dev) : Option (Nat × Nat) :=
  firstOf [
    refuseIf (!c.len a.payload) 0x0004 0xF008,
    refuseIf (loaderServes d && !(decide (c.opcode / 256 = 0x0E ∨ c.opcode = 0x0F01))) 0x0007,
    refuseIf (decide (d.mode = SAFE) && !c.safe) 0x0007,
    refuseIf (decide (roleMode d = SHADOW) && mirrored c) 0x0007,
    checkSpec c a d,
    refuseIf (mirrored c && decide (roleMode d = LEAD) && d.twn.plan.isSome) 0x0002,
    if c.config then (conflict c a d).map fun e => (0x0006, e) else none]

/-- A disable command's answer carries its outcome before its own payload, and status 0x0001 while it drains (R33). -/
def replyOf (c : CmdSpec) (oc : Nat) (r : Reply) : Reply :=
  if c.disables.isSome ∧ oc ≠ ocNone then
    { status := if oc = ocDraining then 1 else r.status, detail := r.detail, payload := le 4 oc ++ r.payload }
  else r

/-- An accepted command's place in the books: CFG_EPOCH, the configuration in force, and the mirror, which names its effective
instant. -/
def bookAccepted (c : CmdSpec) (a : Args) (t : Time) (d : Dev) : Dev :=
  let d := if c.config then bumpEpoch d else d
  let d := if c.stageable then recordChange true ⟨c.opcode, a.payload⟩ d else d
  if mirrored c && mirrorLead d then sendMirror (mirrorOf none c.opcode a t d) d else d

/-- A command that no rule refuses: its answer, and the device once it is accepted. -/
def accept (c : CmdSpec) (a : Args) (d : Dev) : Reply × Dev :=
  let p := c.point a.payload d
  let r := acceptAt p c a d
  let rep := replyOf c r.1 (c.reply a d r.2)
  (rep, if rep.status ≤ 1 then bookAccepted c a (pointInstant p d) r.2 else r.2)

/-- A command's reply, the device after it and the bytes of HBM that it writes. One that would be answered 0x0001 while 256
completion events are owed is refused (R408). -/
def runCommand (c : CmdSpec) (a : Args) (d : Dev) : Reply × Dev × List (Nat × Byte) :=
  match refusal c a d with
  | some (st, detail) => ({ status := st, detail := detail }, d, [])
  | none =>
    let r := accept c a d
    if r.1.status = 1 ∧ 256 ≤ d.host.evt.owed then ({ status := 0x0002 }, d, [])
    else (r.1, r.2, c.store a d)

/-- What a request gives a command. -/
def argsOf (r : Req) (s : State) : Args := { payload := r.payload, mbx := r.mbx, tag := r.tag, mem := s.hbm }

/-- A command as Perby executes it, from the acceptance of its request to its answer. -/
def hostCommand (c : CmdSpec) (flags : Nat) (r : Req) (s : State) : State :=
  if serves r.mbx s.dev then
    let x := runCommand c (argsOf r s) s.dev
    withStore (settle (answer r.mbx c.opcode flags r.tag x.1 x.2.1)) x.2.2 s
  else s

/-- A staged request (R402, R425): a command that is not stageable, a wrong LENGTH or a field out of range is refused; the
mode and role as for every change. -/
def stagedReply (b op : Nat) (p : List Byte) (d : Dev) : Reply × Dev :=
  match famSpec op with
  | none => ({ status := 0x0004, detail := 0xF002 }, d)
  | some c =>
    if !c.len p then ({ status := 0x0004, detail := 0xF008 }, d)
    else if !c.stageable then ({ status := 0x0004, detail := 0xF002 }, d)
    else if d.mode = SAFE ∨ roleMode d = SHADOW ∨ loaderServes d = true then ({ status := 0x0007 }, d)
    else match badField (c.fields p) p with
    | some o => ({ status := 0x0004, detail := o }, d)
    | none =>
      if roleMode d = LEAD ∧ d.twn.plan.isSome = true then ({ status := 0x0002 }, d)
      else
        let r := stage b op p d
        (r.1, if r.1.status = 0 ∧ mirrorLead d = true then sendMirror (mirrorOf (some b) op { payload := p } d.house d) r.2 else r.2)

/-- A staged request as Perby executes it. -/
def hostStaged (b op flags : Nat) (r : Req) (s : State) : State :=
  if serves r.mbx s.dev then
    let x := stagedReply b op r.payload s.dev
    { s with dev := answer r.mbx op flags r.tag x.1 x.2 }
  else s

/-! ### Family 0x0F (R419 to R421) -/

def cmdMbxNop : CmdSpec where
  opcode := 0x0F01
  len := len 0
  unitLocal := true
  safe := true
  reply _ d _ :=
    { payload := le 4 d.host.version.toNat ++ le 8 d.host.restarts.toNat ++ le 2 (256 - d.host.evt.owed) ++ le 2 0 }

/-- The addresses of `n` words from `a`. -/
def wordAddrs (a n : Nat) : List Nat := (List.range n).map fun i => a + 4 * i

/-- The place of the first word that was not read or written. -/
def firstBad (l : List (Nat × Nat)) : Option Nat := (findIdx? (fun x => decide (x.1 = 3 ∨ x.1 = 4)) l).map (·.1)

/-- The words that `REG_READ` reads. -/
def readRun (a : Args) (d : Dev) : List (Nat × Nat) × Dev :=
  beats 0 false a.mem ((wordAddrs (u32 a.payload 0) (u16 a.payload 4)).map fun x => (x, 0)) d

/-- An address range that a register command refuses: unaligned, empty, too long or beyond the address space. -/
def badRange (a n most : Nat) : Bool := decide (a % 4 ≠ 0 ∨ n = 0 ∨ most < n ∨ 2 ^ 32 < a + 4 * n)

def cmdRegRead : CmdSpec where
  opcode := 0x0F02
  len := len 8
  fields _ := [res 6 2]
  unitLocal := true
  safe := true
  check a _ := refuseIf (badRange (u32 a.payload 0) (u16 a.payload 4) 1020) 0x0011
  apply a d := (readRun a d).2
  reply a d _ :=
    let r := (readRun a d).1
    let words := r.flatMap fun x => le 4 x.2
    match firstBad r with
    | some i => { status := 0x0010, detail := i, payload := words }
    | none => { payload := words }

/-- Register writes need MAINTENANCE and debug (R420). -/
def noDebug (d : Dev) : Option (Nat × Nat) := refuseIf (decide (d.mode ≠ MAINTENANCE) || !d.host.debug) 0x0007

/-- The words that `REG_WRITE` writes: those before the first that meets R21 or R413, and that one. -/
def writeRun (a : Args) (d : Dev) : List (Nat × Nat) :=
  let l := (List.range (u16 a.payload 4)).map fun i => (u32 a.payload 0 + 4 * i, u32 a.payload (8 + 4 * i))
  match firstBad (beats 0 true a.mem l d).1 with
  | some i => l.take (i + 1)
  | none => l

def cmdRegWrite : CmdSpec where
  opcode := 0x0F03
  len p := decide (8 ≤ p.length ∧ p.length = 8 + 4 * u16 p 4)
  fields _ := [res 6 2]
  unitLocal := true
  check a d := firstOf [noDebug d, refuseIf (badRange (u32 a.payload 0) (u16 a.payload 4) 1018) 0x0011]
  apply a d := (beats 0 true a.mem (writeRun a d) d).2
  reply a d _ := match firstBad (beats 0 true a.mem (writeRun a d) d).1 with
    | some i => { status := 0x0010, detail := i }
    | none => {}
  store a d := beatsStore 0 true a.mem (writeRun a d) d

/-- The locked sequence of `REG_RMW` lasts 64 CTL cycles: only a word of HBM can be slow, and how slow is a free value. -/
def rmwBroken (a : Args) (d : Dev) : Bool := decide (targetOf (u32 a.payload 0) = some 21) && decide (freeNat d % 2 = 1)

/-- The word that `REG_RMW` writes. -/
def rmwWord (old mask v : Nat) : Nat := (v &&& mask) ||| (old &&& (2 ^ 32 - 1 - mask % 2 ^ 32))

def cmdRegRmw : CmdSpec where
  opcode := 0x0F04
  len := len 12
  unitLocal := true
  check a d := firstOf [noDebug d, refuseIf (badRange (u32 a.payload 0) 1 1) 0x0011]
  apply a d :=
    let x := u32 a.payload 0
    let broken := rmwBroken a d
    let r := beat 0 false x 0 a.mem d
    if r.1.1 = 3 then r.2
    else if broken then useFree (report 0x032 true (accessCode 0 true) x (masterBump 0 xLOCK_BREAK 1 r.2))
    else (beat 0 true x (rmwWord r.1.2 (u32 a.payload 4) (u32 a.payload 8)) a.mem r.2).2
  reply a d _ :=
    let r := beat 0 false (u32 a.payload 0) 0 a.mem d
    if r.1.1 = 3 then { status := 0x0010 }
    else if rmwBroken a d then { status := 0x0015 }
    else { payload := le 4 r.1.2 }
  store a d :=
    let x := u32 a.payload 0
    let r := beat 0 false x 0 a.mem d
    if r.1.1 = 3 ∨ rmwBroken a d = true then [] else beatStore 0 true x (rmwWord r.1.2 (u32 a.payload 4) (u32 a.payload 8)) r.2

/-- The addresses that `REG_SNAPSHOT` names. -/
def snapAddrs (p : List Byte) : List Nat := (List.range (u16 p 0)).map fun i => u32 p (4 + 4 * i)

/-- T of `REG_SNAPSHOT`: the first whole millisecond at least 500 us after acceptance (R420). -/
def snapTime (d : Dev) : Time := (((d.house + 500 * us) / ms).ceil : Rat) * ms

/-- `REG_SNAPSHOT` is answered when its registers have been latched: until then its mailbox stays BUSY. -/
def cmdRegSnapshot : CmdSpec where
  opcode := 0x0F05
  len p := decide (4 ≤ p.length ∧ p.length = 4 + 4 * u16 p 0)
  fields _ := [res 2 2]
  unitLocal := true
  safe := true
  check a _ := refuseIf (decide (u16 a.payload 0 = 0 ∨ 255 < u16 a.payload 0) || (snapAddrs a.payload).any fun x => decide (x % 8 ≠ 0)) 0x0011
  apply a d := { d with host.snaps := d.host.snaps ++ [⟨a.mbx, a.tag, snapTime d, snapAddrs a.payload, 0, none⟩] }

def cmdXbrStatusRead : CmdSpec where
  opcode := 0x0F06
  len := len 4
  fields _ := [rng 0 1 0 8, res 1 3]
  unitLocal := true
  reply a _ d :=
    let m := u8 a.payload 0
    { payload := le 4 (mqosWord m d) ++ le 4 0 ++ ctrBytes (tget d.host.masters m).ctrs 0 5 }

def cmdXbrQos : CmdSpec where
  opcode := 0x0F07
  len := len 4
  fields _ := [rng 0 1 0 5, rng 1 1 1 15, res 2 2]
  config := true
  unitLocal := true
  apply a d := { d with host.masters := tupd d.host.masters (u8 a.payload 0) fun x => { x with weight := u8 a.payload 1 } }

def cmdMbxEventConfig : CmdSpec where
  opcode := 0x0F08
  len := len 4
  fields _ := [res 2 2]
  config := true
  unitLocal := true
  check a _ := refuseIf (decide (u16 a.payload 0 % 2 = 0)) 0x0011
  apply a d := { d with host.evt.enabled := BitVec.ofNat 16 (u16 a.payload 0) }

/-- Debug cannot be unlocked: locked out, or not in MAINTENANCE (R417, R421). -/
def lockedOut (d : Dev) : Option (Nat × Nat) := refuseIf (d.host.lockout || decide (d.mode ≠ MAINTENANCE)) 0x0012

def cmdDbgChallenge : CmdSpec where
  opcode := 0x0F10
  len := len 0
  unitLocal := true
  check _ d := lockedOut d
  apply _ d := useFree { d with host.challenge := some (Config.entropy d.free, d.up) }
  reply _ d _ := { payload := le 32 (Config.entropy d.free).toNat ++ le 16 Config.uniqueNumber.toNat }

/-- The challenge that is outstanding and has not expired. -/
def openChallenge (d : Dev) : Option (BitVec 256) :=
  match d.host.challenge with
  | some (c, t) => if d.up < t + 60 * sec then some c else none
  | none => none

/-- The signature answers the challenge (R417). -/
def unlocks (a : Args) (d : Dev) : Bool :=
  match openChallenge d with
  | some c => Config.ecdsaVerifies 0 (le 32 c.toNat ++ le 4 (devIdWord d) ++ le 16 Config.uniqueNumber.toNat) a.payload
  | none => false

def cmdDbgUnlock : CmdSpec where
  opcode := 0x0F11
  len := len 64
  unitLocal := true
  check _ d := firstOf [lockedOut d, refuseIf (openChallenge d).isNone 0x0014]
  apply a d :=
    if unlocks a d then { d with host.challenge := none, host.debug := true, host.unlockedAt := d.up }
    else { d with host.challenge := none, host.rejected := d.host.rejected + 1,
                  host.lockout := d.host.lockout || decide (3 ≤ d.host.rejected + 1) }
  reply a d _ := if unlocks a d then {} else { status := 0x0013 }

def cmdDbgLock : CmdSpec where
  opcode := 0x0F12
  len := len 0
  unitLocal := true
  apply _ d := { d with host.debug := false }

def family0F : List CmdSpec :=
  [cmdMbxNop, cmdRegRead, cmdRegWrite, cmdRegRmw, cmdRegSnapshot, cmdXbrStatusRead, cmdXbrQos, cmdMbxEventConfig,
   cmdDbgChallenge, cmdDbgUnlock, cmdDbgLock]

/-- A command that is answered at an instant of its own, as Perby executes it: `REG_SNAPSHOT` (R420) and `FLT_AUDIT` (R503). Once
accepted, its mailbox stays BUSY until then. -/
def hostLater (c : CmdSpec) (flags : Nat) (r : Req) (s : State) : State :=
  if serves r.mbx s.dev then
    match refusal c (argsOf r s) s.dev with
    | some (st, detail) => { s with dev := answer r.mbx c.opcode flags r.tag { status := st, detail := detail } s.dev }
    | none =>
      let d := c.apply (argsOf r s) s.dev
      { s with
        dev := updMbx r.mbx (fun m => { m with state := 1, tag := r.tag, accepted := true })
          { d with
            host.snaps := d.host.snaps.map fun x => if x.mbx = r.mbx then { x with flags := flags } else x,
            host.asks := d.host.asks.map fun x => if x.mbx = r.mbx then { x with flags := flags } else x,
            host.rung := d.host.rung.erase r.mbx } }
  else s

/-- The 8-byte word latched at an address; none where no register stands. -/
def latched (mem : Mem) (a : Nat) (d : Dev) : Option Nat :=
  if 0xC0000000 ≤ a then
    let r := windowRead mem (a - 0xC0000000) 8 d
    if r.1 = 3 then none else some (leNat r.2)
  else match regWord a d, regWord (a + 4) d with
  | none, none => none
  | x, y => some (x.getD 0 + 2 ^ 32 * y.getD 0)

/-- The snapshots whose T has come have their registers latched, in the first cycle at or after it (R420). -/
def latchSnaps (mem : Mem) (d : Dev) : Dev :=
  { d with host.snaps := d.host.snaps.map fun x =>
      if x.words.isNone ∧ x.t ≤ d.house then { x with words := some (x.addrs.map fun a => latched mem a d) } else x }

/-- SNAPSHOT_LATCH (R420): the registers of the snapshot whose T has come are latched, and its response is written; a restart
that waited for it goes on (R392). -/
def snapshotLatch (mem : Mem) (d : Dev) : Dev :=
  match d.host.snaps.find? fun x => decide (x.t ≤ d.house) with
  | none => d
  | some x =>
    let words := x.words.getD (x.addrs.map fun a => latched mem a d)
    let d := { d with host.snaps := d.host.snaps.erase x }
    let d := ((x.addrs.zip words).filter fun w => w.2.isNone).foldl (fun d w => decodeError 0 false w.1 d) d
    let bad := (findIdx? (fun (w : Option Nat) => w.isNone) words).map (·.1)
    coresReload (answer x.mbx 0x0F05 x.flags x.tag
      { status := if bad.isSome then 0x0010 else 0, detail := bad.getD 0,
        payload := le 8 (ns48 x.t) ++ words.flatMap fun w => le 8 (w.getD 0) } (useFree d))

def execSnapshotLatch (s : State) : Out := onDev (snapshotLatch s.hbm) s

/-! ### Requests from a mailbox (R403) -/

/-- Every command of the manual. -/
def commandTable : List CmdSpec :=
  stageTable ++ [cmdMemcAdmitReport] ++ family0B ++ family0C ++ family0D ++ family01 ++ family0E ++ family0F

/-- A command by opcode. -/
def command (op : Nat) : Option CmdSpec := commandTable.find? fun c => decide (c.opcode = op)

/-- Bytes of a request window. -/
def requestBytes (n off len : Nat) (d : Dev) : List Byte := (List.range len).map fun i => tget (mailbox n d).request (off + i)

/-- MAILBOX_REQUEST_ACCEPT (R403): the header checks in their order, then the command. -/
def acceptRequest (n : Nat) (s : State) : State :=
  let d := s.dev
  let h := requestBytes n 0 16 d
  let op := u16 h 0
  let flags := u16 h 2
  let n' := u32 h 8
  let r : Req := { mbx := n, tag := BitVec.ofNat 32 (u32 h 4), payload := requestBytes n 16 n' d }
  let refuse (st detail : Nat) : State := { s with dev := answer n op flags r.tag { status := st, detail := detail } d }
  if u32 h 4 ≠ (mailbox n d).tag.toNat then refuse 0x0004 0xF004
  else if 4080 < n' then refuse 0x0004 0xF008
  else if flags % 2 ^ 13 ≠ 0 then refuse 0x0004 0xF002
  else if u32 h 12 ≠ 0 then refuse 0x0004 0xF00C
  else match command op with
  | none => refuse 0x0003 0
  | some c =>
    if !c.len r.payload then refuse 0x0004 0xF008
    else if bitOf flags 15 then (if c.stageable then hostStaged (bits flags 14 13) op flags r s else refuse 0x0004 0xF002)
    else if op = 0x0F05 ∨ op = 0x0D07 then hostLater c flags r s
    else hostCommand c flags r s

/-- A doorbell waits that Perby has not accepted. -/
def requestWaits (n : Nat) (d : Dev) : Bool := decide ((mailbox n d).state = 1) && !(mailbox n d).accepted

/-- Perby reads the request of the oldest doorbell: so commands that name a common object take effect in the order of their
doorbells (R407, log entry 237). -/
def acceptsNext (n : Nat) (d : Dev) : Bool :=
  serves n d && requestWaits n d && !((d.host.rung.takeWhile fun m => decide (m ≠ n)).any fun m => requestWaits m d)

def execMailboxRequestAccept (n : Nat) (s : State) : Out :=
  if acceptsNext n s.dev then .next (acceptRequest n s) else .next s

/-! ### Perby's restarts and the debug timers (R391 to R393, R417) -/

/-- WATCHDOG_MISS (R391): the source's built-in reaction is the restart. -/
def execWatchdogMiss (core : Nat) (s : State) : Out :=
  onDevIf (fun d => decide (core < 4) && d.host.perbyUp && !d.host.restarting) (major 0x033 core) s

/-- Doorbells that no one has accepted are answered 0x0008 (R406). -/
def answerUnavailable (d : Dev) : Dev :=
  (List.range 16).foldl (fun d n =>
    if requestWaits n d then
      let h := requestBytes n 0 16 d
      answer n (u16 h 0) (u16 h 2) (BitVec.ofNat 32 (u32 h 4)) { status := 0x0008 } d
    else d) d

/-- HITLESS_RESTART_END (R392 step 4, R393, R406). -/
def restartEnd (d : Dev) : Dev :=
  let late := d.host.late
  let d := { d with host.restarting := false, host.stopped := false, host.restarts := d.host.restarts + 1, host.late := [] }
  let d := postEvent 0x0602 0 (le 6 d.host.restarts.toNat) d
  answerUnavailable (late.foldl (fun d e => postEntry e d) d)

def execHitlessRestartEnd (s : State) : Out := onDevIf (fun d => d.host.restarting) restartEnd s

/-- RESTART_TIMEOUT (R392). -/
def execRestartTimeout (s : State) : Out :=
  onDevIf (fun d => d.host.restarting && decide (d.host.restartAt + 120 * ms ≤ d.up)) (major 0x034 0) s

/-- DEBUG_UNLOCK_EXPIRY (R417). -/
def execDebugUnlockExpiry (s : State) : Out :=
  onDevIf (fun d => d.host.debug && decide (d.host.unlockedAt + 3600 * sec ≤ d.up)) (fun d => { d with host.debug := false }) s

/-- DEBUG_CHALLENGE_EXPIRY (R417). -/
def execDebugChallengeExpiry (s : State) : Out :=
  onDevIf (fun d => match d.host.challenge with
      | some (_, t) => decide (t + 60 * sec ≤ d.up)
      | none => false) (fun d => { d with host.challenge := none }) s

end Sys2Proof.Machine
end

