-- ==== Sys2Proof/Machine/Rows.lean ====
section
/-! DEFINITION. One meaning for each host command of the table: Perby executes an accepted request of it (R403 to R408) by
the command's own description. -/

namespace Sys2Proof.Machine

/-- `TIM_TB_CONFIG` (R47): Configures a PTP time base: its role, profile, domain, intervals, priorities, clock classes, step threshold, servo bandwidth and ports. -/
def execTimTbConfig (r : Req) (s : State) : Out := .next (hostCommand cmdTimTbConfig 0 r s)

/-- `TIM_TB_ENABLE` (R48): Enables a time base as a follower or a source. -/
def execTimTbEnable (r : Req) (s : State) : Out := .next (hostCommand cmdTimTbEnable 0 r s)

/-- `TIM_TB_DISABLE` (R82): Disables a time base under the disable word. -/
def execTimTbDisable (r : Req) (s : State) : Out := .next (hostCommand cmdTimTbDisable 0 r s)

/-- `TIM_RESTEP` (R52): Returns a follower to ACQUIRING, leaving FAULT. -/
def execTimRestep (r : Req) (s : State) : Out := .next (hostCommand cmdTimRestep 0 r s)

/-- `TIM_READ` (R82): Returns house time, the time of TB0-TB3 and each time base's status, latched in one TIM cycle. -/
def execTimRead (r : Req) (s : State) : Out := .next (hostCommand cmdTimRead 0 r s)

/-- `TIM_PORT_ASYMMETRY` (R50): Sets the signed delay asymmetry that is subtracted from a port's measured path delay. -/
def execTimPortAsymmetry (r : Req) (s : State) : Out := .next (hostCommand cmdTimPortAsymmetry 0 r s)

/-- `REF_CAND_CONFIG` (R57): Writes a reference candidate entry, restarting its hold-off when its kind, source, period or window changes. -/
def execRefCandConfig (r : Req) (s : State) : Out := .next (hostCommand cmdRefCandConfig 0 r s)

/-- `REF_SELECT_MANUAL` (R65): Makes a qualified candidate active whatever its rank and sets MANUAL. -/
def execRefSelectManual (r : Req) (s : State) : Out := .next (hostCommand cmdRefSelectManual 0 r s)

/-- `REF_SELECT_AUTO` (R65): Returns the selector to automatic selection. -/
def execRefSelectAuto (r : Req) (s : State) : Out := .next (hostCommand cmdRefSelectAuto 0 r s)

/-- `REF_LIMITS` (R70): Sets the slope, slew, disagreement, nominal, revert, initial window and glitch limits of the selector. -/
def execRefLimits (r : Req) (s : State) : Out := .next (hostCommand cmdRefLimits 0 r s)

/-- `REF_REALIGN` (R575): Steps house time and the NCO to the named candidate and makes that candidate active. -/
def execRefRealign (r : Req) (s : State) : Out := .next (hostCommand cmdRefRealign 0 r s)

/-- `PULSE_CONFIG` (R72): Loads a PULSE_OUT program, which takes effect at the pin's next edge. -/
def execPulseConfig (r : Req) (s : State) : Out := .next (hostCommand cmdPulseConfig 0 r s)

/-- `PULSE_STOP` (R76): Stops a PULSE_OUT pin under the disable word. -/
def execPulseStop (r : Req) (s : State) : Out := .next (hostCommand cmdPulseStop 0 r s)

/-- `PLL_BAND_TABLE` (R77): Sets a synthesiser's band selection to automatic mode or to a table band. -/
def execPllBandTable (r : Req) (s : State) : Out := .next (hostCommand cmdPllBandTable 0 r s)

/-- `PLL_RESTORE` (R79): Returns a relocked synthesiser 2-10 from bypass. -/
def execPllRestore (r : Req) (s : State) : Out := .next (hostCommand cmdPllRestore 0 r s)

/-- `LANE_OCT_MODE` (R86): Changes the mode of an idle octet and resets its port configuration. -/
def execLaneOctMode (r : Req) (s : State) : Out := .next (hostCommand cmdLaneOctMode 0 r s)

/-- `LANE_ENABLE` (R113): Enables a lane direction at a rate, which starts receiver bring-up. -/
def execLaneEnable (r : Req) (s : State) : Out := .next (hostCommand cmdLaneEnable 0 r s)

/-- `LANE_DISABLE` (R109): Disables a lane direction under the disable word. -/
def execLaneDisable (r : Req) (s : State) : Out := .next (hostCommand cmdLaneDisable 0 r s)

/-- `LANE_TX_EQ` (R90): Sets a transmitter's FIR taps and swing from the next parallel-word boundary. -/
def execLaneTxEq (r : Req) (s : State) : Out := .next (hostCommand cmdLaneTxEq 0 r s)

/-- `LANE_RX_EQ` (R93): Sets a receiver's adaptation regime, CTLE, VGA, LOS threshold and precoding. -/
def execLaneRxEq (r : Req) (s : State) : Out := .next (hostCommand cmdLaneRxEq 0 r s)

/-- `LANE_ROVE` (R103): Enables or disables roving calibration of an octet and sets DWELL. -/
def execLaneRove (r : Req) (s : State) : Out := .next (hostCommand cmdLaneRove 0 r s)

/-- `LANE_STATUS_READ` (R112): Returns a lane's status, eye, octet status and counters. -/
def execLaneStatusRead (r : Req) (s : State) : Out := .next (hostCommand cmdLaneStatusRead 0 r s)

/-- `LANE_TEST` (R114): Starts or stops a PRBS test pattern and checker on a lane. -/
def execLaneTest (r : Req) (s : State) : Out := .next (hostCommand cmdLaneTest 0 r s)

/-- `LANE_RESTART` (R102): Returns a receiver to step 1 of bring-up. -/
def execLaneRestart (r : Req) (s : State) : Out := .next (hostCommand cmdLaneRestart 0 r s)

/-- `SDI_RX_CONFIG` (R154): Configures an SDI receiver's format, mapping, sampling and CRC limit. -/
def execSdiRxConfig (r : Req) (s : State) : Out := .next (hostCommand cmdSdiRxConfig 0 r s)

/-- `SDI_RX_DISABLE` (R151): Disables an SDI receiver under the disable word. -/
def execSdiRxDisable (r : Req) (s : State) : Out := .next (hostCommand cmdSdiRxDisable 0 r s)

/-- `SDI_MULTILINK` (R130): Creates, changes or dissolves a multi-link group of four receivers or transmitters. -/
def execSdiMultilink (r : Req) (s : State) : Out := .next (hostCommand cmdSdiMultilink 0 r s)

/-- `SDI_ANC_FILTER` (R135): Writes an entry of a receiver's ancillary filter. -/
def execSdiAncFilter (r : Req) (s : State) : Out := .next (hostCommand cmdSdiAncFilter 0 r s)

/-- `SDI_AUDIO_DEEMBED` (R140): Maps or unmaps de-embedded channels to source channels. -/
def execSdiAudioDeembed (r : Req) (s : State) : Out := .next (hostCommand cmdSdiAudioDeembed 0 r s)

/-- `SDI_TX_CONFIG` (R142): Configures an SDI transmitter's mapping, sampling and insertion flags. -/
def execSdiTxConfig (r : Req) (s : State) : Out := .next (hostCommand cmdSdiTxConfig 0 r s)

/-- `SDI_TX_DISABLE` (R151): Disables an SDI transmitter under the disable word. -/
def execSdiTxDisable (r : Req) (s : State) : Out := .next (hostCommand cmdSdiTxDisable 0 r s)

/-- `SDI_AUDIO_EMBED` (R147): Maps destination channels to embedded channels. -/
def execSdiAudioEmbed (r : Req) (s : State) : Out := .next (hostCommand cmdSdiAudioEmbed 0 r s)

/-- `SDI_CS_SET` (R148): Chooses a generated or host-supplied channel-status block for an embedded AES pair. -/
def execSdiCsSet (r : Req) (s : State) : Out := .next (hostCommand cmdSdiCsSet 0 r s)

/-- `SDI_STATUS_READ` (R153): Returns the status and counters of an SDI receiver or transmitter. -/
def execSdiStatusRead (r : Req) (s : State) : Out := .next (hostCommand cmdSdiStatusRead 0 r s)

/-- `MAC_PORT_CONFIG` (R181): Configures a port's FEC, flow control, address filtering, MTUs, pause time and priority map. -/
def execMacPortConfig (r : Req) (s : State) : Out := .next (hostCommand cmdMacPortConfig 0 r s)

/-- `MAC_PORT_ENABLE` (R158): Enables a port, which starts link bring-up. -/
def execMacPortEnable (r : Req) (s : State) : Out := .next (hostCommand cmdMacPortEnable 0 r s)

/-- `MAC_PORT_DISABLE` (R177): Disables a port and all its queues under the disable word. -/
def execMacPortDisable (r : Req) (s : State) : Out := .next (hostCommand cmdMacPortDisable 0 r s)

/-- `MAC_QUEUE_CONFIG` (R169): Sets a queue's reservation, ceiling, flow-control thresholds and tag. -/
def execMacQueueConfig (r : Req) (s : State) : Out := .next (hostCommand cmdMacQueueConfig 0 r s)

/-- `MAC_QUEUE_DISABLE` (R177): Disables one queue under the disable word. -/
def execMacQueueDisable (r : Req) (s : State) : Out := .next (hostCommand cmdMacQueueDisable 0 r s)

/-- `MAC_FILTER` (R164): Writes a steering filter entry of a MAC. -/
def execMacFilter (r : Req) (s : State) : Out := .next (hostCommand cmdMacFilter 0 r s)

/-- `MAC_TX_FRAME` (R180): Offers a host frame to transmit queue TQ0-TQ4 of a port. -/
def execMacTxFrame (r : Req) (s : State) : Out := .next (hostCommand cmdMacTxFrame 0 r s)

/-- `MAC_RX_FRAME` (R176): Returns the oldest frame of a MAC's host list and removes it from the list. -/
def execMacRxFrame (r : Req) (s : State) : Out := .next (hostCommand cmdMacRxFrame 0 r s)

/-- `MAC_STATUS_READ` (R180): Returns a port's status, the buffer status and the port's counters. -/
def execMacStatusRead (r : Req) (s : State) : Out := .next (hostCommand cmdMacStatusRead 0 r s)

/-- `FLOW_PORT_IP` (R214): Sets a port's IPv4 address, prefix, IGMP version and pacing limit. -/
def execFlowPortIp (r : Req) (s : State) : Out := .next (hostCommand cmdFlowPortIp 0 r s)

/-- `FLOW_RX_CONFIG` (R227): Configures a receive flow. -/
def execFlowRxConfig (r : Req) (s : State) : Out := .next (hostCommand cmdFlowRxConfig 0 r s)

/-- `FLOW_RX_PATH` (R197): Adds, changes or removes a receive path entry in the flow table. -/
def execFlowRxPath (r : Req) (s : State) : Out := .next (hostCommand cmdFlowRxPath 0 r s)

/-- `FLOW_RX_ENABLE` (R221): Enables a receive flow and joins its multicast groups. -/
def execFlowRxEnable (r : Req) (s : State) : Out := .next (hostCommand cmdFlowRxEnable 0 r s)

/-- `FLOW_RX_DISABLE` (R222): Disables a receive flow under the disable word. -/
def execFlowRxDisable (r : Req) (s : State) : Out := .next (hostCommand cmdFlowRxDisable 0 r s)

/-- `FLOW_RX_DELETE` (R222): Removes a disabled flow's entries and frees its window blocks. -/
def execFlowRxDelete (r : Req) (s : State) : Out := .next (hostCommand cmdFlowRxDelete 0 r s)

/-- `FLOW_TX_CONFIG` (R209): Configures a send flow. -/
def execFlowTxConfig (r : Req) (s : State) : Out := .next (hostCommand cmdFlowTxConfig 0 r s)

/-- `FLOW_TX_PATH` (R210): Sets a send path's port and headers. -/
def execFlowTxPath (r : Req) (s : State) : Out := .next (hostCommand cmdFlowTxPath 0 r s)

/-- `FLOW_TX_ENABLE` (R209): Enables a send flow, starting its sequence numbers at SEQ_INIT. -/
def execFlowTxEnable (r : Req) (s : State) : Out := .next (hostCommand cmdFlowTxEnable 0 r s)

/-- `FLOW_TX_DISABLE` (R222): Disables a send flow under the disable word. -/
def execFlowTxDisable (r : Req) (s : State) : Out := .next (hostCommand cmdFlowTxDisable 0 r s)

/-- `FLOW_REKEY` (R199): Starts a re-key of the flow table and may set STASH_TH. -/
def execFlowRekey (r : Req) (s : State) : Out := .next (hostCommand cmdFlowRekey 0 r s)

/-- `FLOW_STATUS_READ` (R226): Returns the registers and counters of a receive flow, a send flow or the table. -/
def execFlowStatusRead (r : Req) (s : State) : Out := .next (hostCommand cmdFlowStatusRead 0 r s)

/-- `MEMC_RING_CONFIG` (R274): Sets a ring's depth, key flag and ancillary size, which migrates an existing ring. -/
def execMemcRingConfig (r : Req) (s : State) : Out := .next (hostCommand cmdMemcRingConfig 0 r s)

/-- `MEMC_RING_READ` (R273): Returns a ring's layout, epoch and ANC_OVERFLOW counter. -/
def execMemcRingRead (r : Req) (s : State) : Out := .next (hostCommand cmdMemcRingRead 0 r s)

/-- `MEMC_ADMIT_REPORT` (R274): Reports the per-pseudo-channel load, bound and free extents of the configuration in force or of a sealed bank. -/
def execMemcAdmitReport (r : Req) (s : State) : Out := .next (hostCommand cmdMemcAdmitReport 0 r s)

/-- `MEMC_PC_RETIRE` (R268): Starts the retirement of a pseudo-channel. -/
def execMemcPcRetire (r : Req) (s : State) : Out := .next (hostCommand cmdMemcPcRetire 0 r s)

/-- `MEMC_ERROR_CONFIG` (R260): Sets AUTO_RETIRE, UE_TH, CE_EXP and MIG_PAR. -/
def execMemcErrorConfig (r : Req) (s : State) : Out := .next (hostCommand cmdMemcErrorConfig 0 r s)

/-- `MEMC_SCRUB_CONFIG` (R257): Sets the patrol scrubber's enable and period. -/
def execMemcScrubConfig (r : Req) (s : State) : Out := .next (hostCommand cmdMemcScrubConfig 0 r s)

/-- `MEMC_HOLIDAY_CONFIG` (R254): Sets the retrain interval and temperature step of Holidays. -/
def execMemcHolidayConfig (r : Req) (s : State) : Out := .next (hostCommand cmdMemcHolidayConfig 0 r s)

/-- `MEMC_STATUS_READ` (R273): Returns MEMC and pseudo-channel status, load and counters. -/
def execMemcStatusRead (r : Req) (s : State) : Out := .next (hostCommand cmdMemcStatusRead 0 r s)

/-- `MEMC_WINDOW` (R235): Opens or closes the HBM control window onto a pseudo-channel. -/
def execMemcWindow (r : Req) (s : State) : Out := .next (hostCommand cmdMemcWindow 0 r s)

/-- `ROUTE_INGRESS_BIND` (R276): Binds a producer to ingress slots and creates its ring. -/
def execRouteIngressBind (r : Req) (s : State) : Out := .next (hostCommand cmdRouteIngressBind 0 r s)

/-- `ROUTE_INGRESS_UNBIND` (R305): Removes an ingress binding under the disable word. -/
def execRouteIngressUnbind (r : Req) (s : State) : Out := .next (hostCommand cmdRouteIngressUnbind 0 r s)

/-- `ROUTE_TG_CONFIG` (R280): Sets or deletes a timing group's format, phase and hysteresis. -/
def execRouteTgConfig (r : Req) (s : State) : Out := .next (hostCommand cmdRouteTgConfig 0 r s)

/-- `ROUTE_EGRESS_BIND` (R278): Creates an output raster on egress slots in a timing group, feeding a consumer. -/
def execRouteEgressBind (r : Req) (s : State) : Out := .next (hostCommand cmdRouteEgressBind 0 r s)

/-- `ROUTE_EGRESS_UNBIND` (R305): Removes an output raster under the disable word. -/
def execRouteEgressUnbind (r : Req) (s : State) : Out := .next (hostCommand cmdRouteEgressUnbind 0 r s)

/-- `ROUTE_ALIGN_GROUP` (R291): Defines or deletes a host alignment group. -/
def execRouteAlignGroup (r : Req) (s : State) : Out := .next (hostCommand cmdRouteAlignGroup 0 r s)

/-- `ROUTE_TAKE` (R301): Changes the source of a raster from a planned frame onward. -/
def execRouteTake (r : Req) (s : State) : Out := .next (hostCommand cmdRouteTake 0 r s)

/-- `ROUTE_STATUS_READ` (R309): Returns the registers and counters of a stream, raster, timing group or alignment group. -/
def execRouteStatusRead (r : Req) (s : State) : Out := .next (hostCommand cmdRouteStatusRead 0 r s)

/-- `CNV_CONFIG` (R352): Configures a conversion on an engine or gang. -/
def execCnvConfig (r : Req) (s : State) : Out := .next (hostCommand cmdCnvConfig 0 r s)

/-- `CNV_ENABLE` (R312): Enables a conversion, subject to admission. -/
def execCnvEnable (r : Req) (s : State) : Out := .next (hostCommand cmdCnvEnable 0 r s)

/-- `CNV_DISABLE` (R335): Disables a conversion under the disable word. -/
def execCnvDisable (r : Req) (s : State) : Out := .next (hostCommand cmdCnvDisable 0 r s)

/-- `CNV_SUBSTITUTE` (R338): Moves a conversion to an idle engine or gang at a named output frame. -/
def execCnvSubstitute (r : Req) (s : State) : Out := .next (hostCommand cmdCnvSubstitute 0 r s)

/-- `CNV_SPARE_AUTO` (R339): Enables or disables automatic substitution after a contained reset. -/
def execCnvSpareAuto (r : Req) (s : State) : Out := .next (hostCommand cmdCnvSpareAuto 0 r s)

/-- `CNV_COEF_LOAD` (R332): Loads a coefficient bank from the staging region. -/
def execCnvCoefLoad (r : Req) (s : State) : Out := .next (hostCommand cmdCnvCoefLoad 0 r s)

/-- `CNV_LUT_LOAD` (R332): Loads a colour table set from the staging region. -/
def execCnvLutLoad (r : Req) (s : State) : Out := .next (hostCommand cmdCnvLutLoad 0 r s)

/-- `CNV_STATUS_READ` (R351): Returns an engine's status, selection, tokens and counters. -/
def execCnvStatusRead (r : Req) (s : State) : Out := .next (hostCommand cmdCnvStatusRead 0 r s)

/-- `OUT_RASTER_CONFIG` (R344): Sets a raster's KEYOUT flag and background. -/
def execOutRasterConfig (r : Req) (s : State) : Out := .next (hostCommand cmdOutRasterConfig 0 r s)

/-- `OUT_GLYPH_LOAD` (R347): Writes a hidden copy of a glyph, to which every raster changes at its next frame boundary. -/
def execOutGlyphLoad (r : Req) (s : State) : Out := .next (hostCommand cmdOutGlyphLoad 0 r s)

/-- `OUT_MARKER` (R348): Configures one of a raster's four markers. -/
def execOutMarker (r : Req) (s : State) : Out := .next (hostCommand cmdOutMarker 0 r s)

/-- `OUT_PALETTE` (R347): Writes entries of a raster's palette. -/
def execOutPalette (r : Req) (s : State) : Out := .next (hostCommand cmdOutPalette 0 r s)

/-- `OUT_STATUS_READ` (R351): Returns a raster's registers and counters. -/
def execOutStatusRead (r : Req) (s : State) : Out := .next (hostCommand cmdOutStatusRead 0 r s)

/-- `AUD_CONFIG` (R354): Sets the device audio rate, which resets cells, maps and rings, and sets RAMP_BLOCKS. -/
def execAudConfig (r : Req) (s : State) : Out := .next (hostCommand cmdAudConfig 0 r s)

/-- `AUD_DEPTH` (R388): Sets HOLD for a range of source channels, which resizes their rings. -/
def execAudDepth (r : Req) (s : State) : Out := .next (hostCommand cmdAudDepth 0 r s)

/-- `AUD_CELLS` (R378): Writes mixing-matrix cells, which apply from a chosen block. -/
def execAudCells (r : Req) (s : State) : Out := .next (hostCommand cmdAudCells 0 r s)

/-- `AUD_CELLS_READ` (R387): Returns a destination's 64 cells as in force. -/
def execAudCellsRead (r : Req) (s : State) : Out := .next (hostCommand cmdAudCellsRead 0 r s)

/-- `AUD_DEST_ENABLE` (R388): Enables a range of destinations. -/
def execAudDestEnable (r : Req) (s : State) : Out := .next (hostCommand cmdAudDestEnable 0 r s)

/-- `AUD_DEST_DISABLE` (R384): Disables a range of destinations under the disable word. -/
def execAudDestDisable (r : Req) (s : State) : Out := .next (hostCommand cmdAudDestDisable 0 r s)

/-- `APRT_AES_IN` (R365): Configures an AES3 input's mode, nominal rate, base channel, lock window and hold-off. -/
def execAprtAesIn (r : Req) (s : State) : Out := .next (hostCommand cmdAprtAesIn 0 r s)

/-- `APRT_AES_OUT` (R374): Maps an AES3 output to destination channels. -/
def execAprtAesOut (r : Req) (s : State) : Out := .next (hostCommand cmdAprtAesOut 0 r s)

/-- `APRT_TDM` (R371): Configures a TDM port. -/
def execAprtTdm (r : Req) (s : State) : Out := .next (hostCommand cmdAprtTdm 0 r s)

/-- `APRT_WCLK` (R373): Enables or disables WCLK_OUT. -/
def execAprtWclk (r : Req) (s : State) : Out := .next (hostCommand cmdAprtWclk 0 r s)

/-- `APRT_DISABLE` (R384): Disables one audio port direction under the disable word. -/
def execAprtDisable (r : Req) (s : State) : Out := .next (hostCommand cmdAprtDisable 0 r s)

/-- `AUD_CS_READ` (R387): Returns the last complete channel-status block of a source channel. -/
def execAudCsRead (r : Req) (s : State) : Out := .next (hostCommand cmdAudCsRead 0 r s)

/-- `APRT_CS_SET` (R374): Chooses a generated or host-supplied channel-status block for an AES3 output. -/
def execAprtCsSet (r : Req) (s : State) : Out := .next (hostCommand cmdAprtCsSet 0 r s)

/-- `AUD_STATUS_READ` (R387): Returns the registers and counters of an audio object. -/
def execAudStatusRead (r : Req) (s : State) : Out := .next (hostCommand cmdAudStatusRead 0 r s)

/-- `MBX_NOP` (R419): Returns the Perby version, the restart count and the completions that can still be owed. -/
def execMbxNop (r : Req) (s : State) : Out := .next (hostCommand cmdMbxNop 0 r s)

/-- `REG_READ` (R420): Reads CTL register words through M0. -/
def execRegRead (r : Req) (s : State) : Out := .next (hostCommand cmdRegRead 0 r s)

/-- `REG_WRITE` (R420): Writes CTL register words in MAINTENANCE with debug unlocked. -/
def execRegWrite (r : Req) (s : State) : Out := .next (hostCommand cmdRegWrite 0 r s)

/-- `REG_RMW` (R420): Performs a locked read-modify-write of a CTL word. -/
def execRegRmw (r : Req) (s : State) : Out := .next (hostCommand cmdRegRmw 0 r s)

/-- `REG_SNAPSHOT` (R420): Arranges for named registers to be latched at a whole millisecond of house time. -/
def execRegSnapshot (r : Req) (s : State) : Out := .next (hostLater cmdRegSnapshot 0 r s)

/-- `XBR_STATUS_READ` (R419): Returns a crossbar master's QoS register and counters. -/
def execXbrStatusRead (r : Req) (s : State) : Out := .next (hostCommand cmdXbrStatusRead 0 r s)

/-- `XBR_QOS` (R414): Sets the round-robin weight of a normal crossbar master. -/
def execXbrQos (r : Req) (s : State) : Out := .next (hostCommand cmdXbrQos 0 r s)

/-- `MBX_EVENT_CONFIG` (R410): Enables or disables event classes. -/
def execMbxEventConfig (r : Req) (s : State) : Out := .next (hostCommand cmdMbxEventConfig 0 r s)

/-- `DBG_CHALLENGE` (R417): Issues a debug unlock challenge and the unique number. -/
def execDbgChallenge (r : Req) (s : State) : Out := .next (hostCommand cmdDbgChallenge 0 r s)

/-- `DBG_UNLOCK` (R417): Verifies a signature over the challenge and unlocks debug. -/
def execDbgUnlock (r : Req) (s : State) : Out := .next (hostCommand cmdDbgUnlock 0 r s)

/-- `DBG_LOCK` (R417): Relocks debug. -/
def execDbgLock (r : Req) (s : State) : Out := .next (hostCommand cmdDbgLock 0 r s)

/-- `STAGED_REQUEST` (R425): A request with STAGE set is written as a change into an OPEN Eve bank instead of being executed. -/
def execStagedRequest (bank opcode : Nat) (r : Req) (s : State) : Out :=
  if bank < 4 then .next (hostStaged bank opcode (0x8000 + bank * 2 ^ 13) r s) else .next s

/-- `CFG_BANK_OPEN` (R424): Opens an empty Eve bank. -/
def execCfgBankOpen (r : Req) (s : State) : Out := .next (hostCommand cmdCfgBankOpen 0 r s)

/-- `CFG_BANK_SEAL` (R427): Starts the check of an OPEN bank, which seals the bank if the check passes. -/
def execCfgBankSeal (r : Req) (s : State) : Out := .next (hostCommand cmdCfgBankSeal 0 r s)

/-- `CFG_BANK_CHECK` (R427): Starts the check of an OPEN bank without sealing it. -/
def execCfgBankCheck (r : Req) (s : State) : Out := .next (hostCommand cmdCfgBankCheck 0 r s)

/-- `CFG_BANK_TRUNCATE` (R426): Discards the changes of an OPEN bank from COUNT onward. -/
def execCfgBankTruncate (r : Req) (s : State) : Out := .next (hostCommand cmdCfgBankTruncate 0 r s)

/-- `CFG_BANK_ABANDON` (R426): Empties a bank that is not in ADVENT and undoes its pending flow entries. -/
def execCfgBankAbandon (r : Req) (s : State) : Out := .next (hostCommand cmdCfgBankAbandon 0 r s)

/-- `CFG_BANK_READ` (R450): Returns a bank's change records. -/
def execCfgBankRead (r : Req) (s : State) : Out := .next (hostCommand cmdCfgBankRead 0 r s)

/-- `CFG_SCHEDULE` (R434): Places a commit, salvo or season action in the Almanac at an instant. -/
def execCfgSchedule (r : Req) (s : State) : Out := .next (hostCommand cmdCfgSchedule 0 r s)

/-- `CFG_CANCEL` (R436): Frees a WAITING Almanac entry and returns its bank to SEALED. -/
def execCfgCancel (r : Req) (s : State) : Out := .next (hostCommand cmdCfgCancel 0 r s)

/-- `CFG_IMAGE_LOAD` (R444): Verifies an image, loads its tables and stores, and fills a bank with the changes toward its state. -/
def execCfgImageLoad (r : Req) (s : State) : Out := .next (hostCommand cmdCfgImageLoad 0 r s)

/-- `CFG_IMAGE_SAVE` (R445): Writes an image of the base configuration to the staging region. -/
def execCfgImageSave (r : Req) (s : State) : Out := .next (hostCommand cmdCfgImageSave 0 r s)

/-- `CFG_SEASON_STORE` (R446): Stores the records of a season. -/
def execCfgSeasonStore (r : Req) (s : State) : Out := .next (hostCommand cmdCfgSeasonStore 0 r s)

/-- `CFG_SEASON_SWITCH` (R447): Builds a switch to another season into an empty bank. -/
def execCfgSeasonSwitch (r : Req) (s : State) : Out := .next (hostCommand cmdCfgSeasonSwitch 0 r s)

/-- `CFG_SALVO_STORE` (R448): Stores a salvo of takes. -/
def execCfgSalvoStore (r : Req) (s : State) : Out := .next (hostCommand cmdCfgSalvoStore 0 r s)

/-- `CFG_SALVO_FIRE` (R448): Appends a salvo's takes to a bank, or applies all of them as non-staged takes. -/
def execCfgSalvoFire (r : Req) (s : State) : Out := .next (hostCommand cmdCfgSalvoFire 0 r s)

/-- `CFG_STATUS_READ` (R450): Returns the configuration status, banks, commit record and counters. -/
def execCfgStatusRead (r : Req) (s : State) : Out := .next (hostCommand cmdCfgStatusRead 0 r s)

/-- `TWN_CONFIG` (R481): Sets the unit number, acknowledge pins, heartbeat timeout, tolerances and asymmetry of the twin block. -/
def execTwnConfig (r : Req) (s : State) : Out := .next (hostCommand cmdTwnConfig 0 r s)

/-- `TWN_PAIR` (R469): Requests pairing with the partner. -/
def execTwnPair (r : Req) (s : State) : Out := .next (hostCommand cmdTwnPair 0 r s)

/-- `TWN_UNPAIR` (R472): Takes the shadow out of the pair and returns it to READY. -/
def execTwnUnpair (r : Req) (s : State) : Out := .next (hostCommand cmdTwnUnpair 0 r s)

/-- `TWN_HANDOVER` (R471): Schedules a planned handover of roles at an instant. -/
def execTwnHandover (r : Req) (s : State) : Out := .next (hostCommand cmdTwnHandover 0 r s)

/-- `TWN_STATUS_READ` (R480): Returns the twin registers and counters. -/
def execTwnStatusRead (r : Req) (s : State) : Out := .next (hostCommand cmdTwnStatusRead 0 r s)

/-- `TWN_HEALTH_READ` (R480): Returns Vigil results, fitness and the mismatching rasters. -/
def execTwnHealthRead (r : Req) (s : State) : Out := .next (hostCommand cmdTwnHealthRead 0 r s)

/-- `TWN_EPOCH_SET` (R459): Sets the epoch and the highest epoch seen. -/
def execTwnEpochSet (r : Req) (s : State) : Out := .next (hostCommand cmdTwnEpochSet 0 r s)

/-- `FLT_STATUS_READ` (R508): Returns the fault status, overflow count and first-error and prior records. -/
def execFltStatusRead (r : Req) (s : State) : Out := .next (hostCommand cmdFltStatusRead 0 r s)

/-- `FLT_CLEAR` (R488): Clears VALID, FLT_OVERFLOW and CONTAINED when no consequence window is open. -/
def execFltClear (r : Req) (s : State) : Out := .next (hostCommand cmdFltClear 0 r s)

/-- `FLT_SEVERITY` (R485): Sets the minor and major severities of a range of fault sources. -/
def execFltSeverity (r : Req) (s : State) : Out := .next (hostCommand cmdFltSeverity 0 r s)

/-- `FLT_SOURCE_READ` (R508): Returns a fault source's severity register and counters. -/
def execFltSourceRead (r : Req) (s : State) : Out := .next (hostCommand cmdFltSourceRead 0 r s)

/-- `FLT_INJECT` (R495): Arms a check-bit inversion or forced reports at a fault source. -/
def execFltInject (r : Req) (s : State) : Out := .next (hostCommand cmdFltInject 0 r s)

/-- `FLT_WINDOW` (R499): Sets the consequence window length of a reset domain. -/
def execFltWindow (r : Req) (s : State) : Out := .next (hostCommand cmdFltWindow 0 r s)

/-- `FLT_AUDIT` (R503): Freezes one conservation law at its next audit point and returns its terms. -/
def execFltAudit (r : Req) (s : State) : Out := .next (hostLater cmdFltAudit 0 r s)

/-- `RST_BLOCK` (R502): Resets one idle instance of a reset domain. -/
def execRstBlock (r : Req) (s : State) : Out := .next (hostCommand cmdRstBlock 0 r s)

/-- `RST_RELEASE` (R500): Releases a quarantined instance. -/
def execRstRelease (r : Req) (s : State) : Out := .next (hostCommand cmdRstRelease 0 r s)

/-- `RST_DEVICE` (R501): Resets the device after a confirmation word. -/
def execRstDevice (r : Req) (s : State) : Out := .next (hostCommand cmdRstDevice 0 r s)

/-- `RST_STATUS_READ` (R508): Returns the reset cause, the reset count and the quarantined instances. -/
def execRstStatusRead (r : Req) (s : State) : Out := .next (hostCommand cmdRstStatusRead 0 r s)

/-- `MON_CONFIG` (R505): Sets a monitor's WARN and CRIT thresholds. -/
def execMonConfig (r : Req) (s : State) : Out := .next (hostCommand cmdMonConfig 0 r s)

/-- `MON_READ` (R508): Returns the readings of all monitors. -/
def execMonRead (r : Req) (s : State) : Out := .next (hostCommand cmdMonRead 0 r s)

/-- `DEV_MODE_REQUEST` (R511): Requests a change of operating mode to READY, SOLO or MAINTENANCE. -/
def execDevModeRequest (r : Req) (s : State) : Out := .next (hostCommand cmdDevModeRequest 0 r s)

/-- `DEV_REMOVE` (R527): Sends LEAVE, stops every output and returns the unit to READY for removal. -/
def execDevRemove (r : Req) (s : State) : Out := .next (hostCommand cmdDevRemove 0 r s)

/-- `DEV_STATUS_READ` (R538): Returns the identity, mode, host, boot and reset status. -/
def execDevStatusRead (r : Req) (s : State) : Out := .next (hostCommand cmdDevStatusRead 0 r s)

/-- `UPD_BEGIN` (R531): Opens an update session of TOTAL bytes. -/
def execUpdBegin (r : Req) (s : State) : Out := .next (hostCommand cmdUpdBegin 0 r s)

/-- `UPD_BLOCK` (R531): Copies a CRC-checked block of the transfer from staging. -/
def execUpdBlock (r : Req) (s : State) : Out := .next (hostCommand cmdUpdBlock 0 r s)

/-- `UPD_VERIFY` (R532): Starts verification of the transfer against the manifest checks. -/
def execUpdVerify (r : Req) (s : State) : Out := .next (hostCommand cmdUpdVerify 0 r s)

/-- `UPD_PLACE` (R533): Starts writing the verified transfer into the store that is not active. -/
def execUpdPlace (r : Req) (s : State) : Out := .next (hostCommand cmdUpdPlace 0 r s)

/-- `UPD_ACTIVATE` (R535): Schedules activation of the placed store at an instant. -/
def execUpdActivate (r : Req) (s : State) : Out := .next (hostCommand cmdUpdActivate 0 r s)

/-- `UPD_CANCEL` (R538): Returns the update session to IDLE or to PLACED. -/
def execUpdCancel (r : Req) (s : State) : Out := .next (hostCommand cmdUpdCancel 0 r s)

/-- `UPD_STATUS_READ` (R538): Returns the update registers, counters and the running manifest header. -/
def execUpdStatusRead (r : Req) (s : State) : Out := .next (hostCommand cmdUpdStatusRead 0 r s)

end Sys2Proof.Machine
end

