-- ==== Sys2Proof/Machine/Late.lean ====
section
/-! DEFINITION. The events at which waiting changes take effect (R154, R181, R227, R352, R388, R438): frame boundaries, output
pictures, audio blocks, received frames and flow frames. -/

namespace Sys2Proof.Machine

/-- The rasters of a group begin to send their pictures (R341). -/
def sendPictures (tg : Nat) (m : Mem) (d : Dev) : Dev :=
  ((rasters d).filter fun e => decide ((raster e d).tg = tg)).foldl (fun d e => sendPicture e m d) d

/-- FRAME_BOUNDARY (R279, R438): the changes that wait for this boundary of the group apply, then its rasters pass it. -/
def frameBoundary (tg k : Nat) (m : Mem) (d : Dev) : Dev :=
  settle (frameDigests tg (k - 1) (sendPictures tg m (frameBoundaryCore tg k (applyFrame tg (tgTime (timGroup tg d) k) d))))

/-- The rasters' line buffers (R23): the words of the pictures that they now send, by raster and number in HBM, in error. -/
def checkRasters (buf : List (Nat × WordErr)) (d : Dev) : Dev :=
  buf.foldl (fun (d : Dev) (b : Nat × WordErr) =>
    let c := sramCheck 0x3C8 b.1 b.2.1 b.2.2 d
    if c.1 then poisonRaster b.1 b.2.1 c.2 else c.2) d

def execFrameBoundary (tg k : Nat) (s : State) (buf : List (Nat × WordErr) := []) : Out :=
  onDevIf (boundaryDue tg k) (fun d => checkRasters buf (frameBoundary tg k s.hbm d)) s

/-- CONVERTER_PICTURE_START (R315, R352, R438): the changes that wait for this output frame apply, then the picture begins. -/
def pictureAt (e j q : Nat) (buf : List WordErr) (s : State) : State :=
  let s := recompose e s
  let t := pictureStart (timGroup (cvTg (engine e s.dev).conf) s.dev) j 0
  let (f, d) := converterPictureStart e j q (if q = 0 then applyPicture e t s.dev else s.dev)
  let s := match f with
    | some f =>
      let s := composePicture f j q { s with dev := d }
      recompose f { s with dev := buf.foldl (fun (d : Dev) (b : WordErr) =>
        let c := sramCheck (0x390 + f) f b.1 b.2 d
        if c.1 then eBump f 0x68 1 (updEngine f (fun x => { x with bad := x.bad ++ [b.1] }) c.2) else c.2) s.dev }
    | none => { s with dev := d }
  { s with dev := settle s.dev }

/-- `buf` lists the words of the engine's line buffers in error, by number in HBM (R23). -/
def execConverterPictureStart (e j q : Nat) (s : State) (buf : List WordErr := []) : Out :=
  if decide (e < 48) && pictureDue e j q s.dev then .next (pictureAt e j q buf s) else .next s

/-- PRODUCER_FRAME_READY (R283, R285): a producer's frame has been written; an engine's has black where its source was
poisoned. -/
def execProducerFrameReady (r : Nat) (fabric : List WordErr) (s : State) : Out :=
  let s := recomposeAll s
  match writingFrame r false s.dev with
  | none => .next s
  | some n =>
    if writeEnds r s.dev then
      let m := writeFrame r s.dev s.hbm
      let x := stream r s.dev
      let d := resendLocked r n m (frameReady r (fabricWords r fabric (poisonWords r s.dev)))
      .next { s with hbm := m, dev := if x.kind = 3 then forgetClosed x.id d else d }
    else .next s

/-- BURST_COMPLETE (R247): after which the engines whose words came poisoned have composed their pictures without them. -/
def execBurstComplete (k : Nat) (errs : SymErr) (s : State) (fabric : SymErr := []) : Out :=
  let d := s.dev
  if decide (k < 64 ∧ ((pc k d).state = 2 ∨ (pc k d).state = 3)) && decide ((pc k d).issued ≠ []) then
    .next (recomposeAll { s with dev := burstComplete k errs fabric d })
  else .next s

/-- AUDIO_BLOCK (R356, R378, R388, R438): the cells that change with the block that ends apply before it is mixed, the other
changes that wait for the block that begins after that. -/
def blockBoundary (cells : List WordErr) (samples : List (Nat × Nat × WordErr)) (d : Dev) : Dev :=
  let n := d.aud.block
  settle (takeStage (applyBlock false (n + 1) (blockDigests (mixStage cells samples (applyBlock true n { d with aud.due := d.aud.due + spb d })))))

def execAudioBlock (s : State) (cells : List WordErr := []) (samples : List (Nat × Nat × WordErr) := []) : Out :=
  onDevIf blockDue (blockBoundary cells samples) s

/-- SDI_FRAME_BOUNDARY (R121, R154): the frame ends as it was configured, the changes that wait for it apply, and the next
one begins. A framer's comes where its word stream has reached line 1 (R190). -/
def execSdiFrameBoundary (n : Nat) (m : SdiMeasure) (s : State) : Out :=
  onDevIf (fun d => decide (n < 256) && blocksRun d && (rx n d).en && decide (2 ≤ (rx n d).state)
      && (decide (n < 192) || decide ((rx n d).wire.edge = 1)))
    (fun d =>
      let d := settle (sdiBoundary n m (applyPoint (.laneFrame n)) d)
      if n < 192 then d else wireLines n (updWire n (fun w => { w with edge := 2 }) d)) s

/-- IP_FRAME_CLOSE (R207, R227): the flow's oldest due frame closes after the changes that wait for its frame boundary. -/
def execIpFrameClose (n : Nat) (s : State) : Out :=
  onDevIf (fun d => decide (n < 8192) && blocksRun d && (rxFlow n d).frames.any fun f => frameDue (rxFlow n d) f d.up)
    (fun d => settle (applyPoint (.flowFrame n) (frameClose n d))) s

/-- The audits that wait for an auditor's point are answered (R503); a restart that waited for them goes on (R392). -/
def answerAudits (a : Auditor) (d : Dev) : Dev :=
  let mine := d.host.asks.filter fun x => decide (auditorOf x.law x.inst = a)
  coresReload (mine.foldl (fun d x => answer x.mbx 0x0D07 x.flags x.tag { payload := auditReply x.law x.inst d } d)
    { d with host.asks := d.host.asks.filter fun x => decide (auditorOf x.law x.inst ≠ a) })

/-- AUDIT_POINT (R39, R503): the auditors of the blocks that run evaluate their laws, and the audits on request are answered in
every mode. -/
def execAuditPoint (a : Auditor) (s : State) : Out :=
  onDevIf (fun d => decide (d.mode ≠ HELD) && auditorExists a && auditDue a d)
    (fun d =>
      let d := { d with flt.audited := (d.flt.audited.filter fun x => decide (x.1 ≠ a)) ++ [(a, houseMs d)] }
      answerAudits a (if blocksRun d then auditPoint a d else d)) s

/-- Perby's cores, masters M0 to M3, make CTL accesses of their own as they run; how many complete is a free value (R9). -/
def perbyAccesses (d : Dev) : Dev :=
  if perbyServes d then useFree ((List.range 4).foldl (fun d m => masterBump m xACCESSES (freeNat d / 2 ^ (16 * m) % 2 ^ 16) d) d) else d

/-- What the block does of itself while no command waits: one TIM cycle (log entry 1), in which changes whose point cannot
come any more take effect; a reset that `RST_DEVICE` asked for asserts when its time has come (R501). -/
def idle (d : Dev) : Dev :=
  let d := insetDue (flowsDue (fillRasters (drainReturns (perbyAccesses (endCutRasters (dropAbsent (settle (tick d))))))))
  match d.rst.due with
  | some t => if t ≤ d.up then deviceReset 3 d else d
  | none => d

/-- The step while no command waits. -/
def execIdle (s : State) : Out := onDev (fun d => latchSnaps s.hbm (idle d)) s

/-- The state with a command put at the front of its queue. -/
def enqueueFront (i : Instr) (s : State) : State := { s with pending := i :: s.pending }

end Sys2Proof.Machine
end

