-- ==== Sys2Proof/Machine/Dispatch.lean ====
section
/-! DEFINITION. The meaning of every command. -/

namespace Sys2Proof.Machine

def exec (i : Instr) (s : State) : Host.Outcome State Fault Refusal :=
  match i with
  | .timTbConfig r => Sys2Proof.Machine.execTimTbConfig r s
  | .timTbEnable r => Sys2Proof.Machine.execTimTbEnable r s
  | .timTbDisable r => Sys2Proof.Machine.execTimTbDisable r s
  | .timRestep r => Sys2Proof.Machine.execTimRestep r s
  | .timRead r => Sys2Proof.Machine.execTimRead r s
  | .timPortAsymmetry r => Sys2Proof.Machine.execTimPortAsymmetry r s
  | .refCandConfig r => Sys2Proof.Machine.execRefCandConfig r s
  | .refSelectManual r => Sys2Proof.Machine.execRefSelectManual r s
  | .refSelectAuto r => Sys2Proof.Machine.execRefSelectAuto r s
  | .refLimits r => Sys2Proof.Machine.execRefLimits r s
  | .refRealign r => Sys2Proof.Machine.execRefRealign r s
  | .pulseConfig r => Sys2Proof.Machine.execPulseConfig r s
  | .pulseStop r => Sys2Proof.Machine.execPulseStop r s
  | .pllBandTable r => Sys2Proof.Machine.execPllBandTable r s
  | .pllRestore r => Sys2Proof.Machine.execPllRestore r s
  | .laneOctMode r => Sys2Proof.Machine.execLaneOctMode r s
  | .laneEnable r => Sys2Proof.Machine.execLaneEnable r s
  | .laneDisable r => Sys2Proof.Machine.execLaneDisable r s
  | .laneTxEq r => Sys2Proof.Machine.execLaneTxEq r s
  | .laneRxEq r => Sys2Proof.Machine.execLaneRxEq r s
  | .laneRove r => Sys2Proof.Machine.execLaneRove r s
  | .laneStatusRead r => Sys2Proof.Machine.execLaneStatusRead r s
  | .laneTest r => Sys2Proof.Machine.execLaneTest r s
  | .laneRestart r => Sys2Proof.Machine.execLaneRestart r s
  | .sdiRxConfig r => Sys2Proof.Machine.execSdiRxConfig r s
  | .sdiRxDisable r => Sys2Proof.Machine.execSdiRxDisable r s
  | .sdiMultilink r => Sys2Proof.Machine.execSdiMultilink r s
  | .sdiAncFilter r => Sys2Proof.Machine.execSdiAncFilter r s
  | .sdiAudioDeembed r => Sys2Proof.Machine.execSdiAudioDeembed r s
  | .sdiTxConfig r => Sys2Proof.Machine.execSdiTxConfig r s
  | .sdiTxDisable r => Sys2Proof.Machine.execSdiTxDisable r s
  | .sdiAudioEmbed r => Sys2Proof.Machine.execSdiAudioEmbed r s
  | .sdiCsSet r => Sys2Proof.Machine.execSdiCsSet r s
  | .sdiStatusRead r => Sys2Proof.Machine.execSdiStatusRead r s
  | .macPortConfig r => Sys2Proof.Machine.execMacPortConfig r s
  | .macPortEnable r => Sys2Proof.Machine.execMacPortEnable r s
  | .macPortDisable r => Sys2Proof.Machine.execMacPortDisable r s
  | .macQueueConfig r => Sys2Proof.Machine.execMacQueueConfig r s
  | .macQueueDisable r => Sys2Proof.Machine.execMacQueueDisable r s
  | .macFilter r => Sys2Proof.Machine.execMacFilter r s
  | .macTxFrame r => Sys2Proof.Machine.execMacTxFrame r s
  | .macRxFrame r => Sys2Proof.Machine.execMacRxFrame r s
  | .macStatusRead r => Sys2Proof.Machine.execMacStatusRead r s
  | .flowPortIp r => Sys2Proof.Machine.execFlowPortIp r s
  | .flowRxConfig r => Sys2Proof.Machine.execFlowRxConfig r s
  | .flowRxPath r => Sys2Proof.Machine.execFlowRxPath r s
  | .flowRxEnable r => Sys2Proof.Machine.execFlowRxEnable r s
  | .flowRxDisable r => Sys2Proof.Machine.execFlowRxDisable r s
  | .flowRxDelete r => Sys2Proof.Machine.execFlowRxDelete r s
  | .flowTxConfig r => Sys2Proof.Machine.execFlowTxConfig r s
  | .flowTxPath r => Sys2Proof.Machine.execFlowTxPath r s
  | .flowTxEnable r => Sys2Proof.Machine.execFlowTxEnable r s
  | .flowTxDisable r => Sys2Proof.Machine.execFlowTxDisable r s
  | .flowRekey r => Sys2Proof.Machine.execFlowRekey r s
  | .flowStatusRead r => Sys2Proof.Machine.execFlowStatusRead r s
  | .memcRingConfig r => Sys2Proof.Machine.execMemcRingConfig r s
  | .memcRingRead r => Sys2Proof.Machine.execMemcRingRead r s
  | .memcAdmitReport r => Sys2Proof.Machine.execMemcAdmitReport r s
  | .memcPcRetire r => Sys2Proof.Machine.execMemcPcRetire r s
  | .memcErrorConfig r => Sys2Proof.Machine.execMemcErrorConfig r s
  | .memcScrubConfig r => Sys2Proof.Machine.execMemcScrubConfig r s
  | .memcHolidayConfig r => Sys2Proof.Machine.execMemcHolidayConfig r s
  | .memcStatusRead r => Sys2Proof.Machine.execMemcStatusRead r s
  | .memcWindow r => Sys2Proof.Machine.execMemcWindow r s
  | .routeIngressBind r => Sys2Proof.Machine.execRouteIngressBind r s
  | .routeIngressUnbind r => Sys2Proof.Machine.execRouteIngressUnbind r s
  | .routeTgConfig r => Sys2Proof.Machine.execRouteTgConfig r s
  | .routeEgressBind r => Sys2Proof.Machine.execRouteEgressBind r s
  | .routeEgressUnbind r => Sys2Proof.Machine.execRouteEgressUnbind r s
  | .routeAlignGroup r => Sys2Proof.Machine.execRouteAlignGroup r s
  | .routeTake r => Sys2Proof.Machine.execRouteTake r s
  | .routeStatusRead r => Sys2Proof.Machine.execRouteStatusRead r s
  | .cnvConfig r => Sys2Proof.Machine.execCnvConfig r s
  | .cnvEnable r => Sys2Proof.Machine.execCnvEnable r s
  | .cnvDisable r => Sys2Proof.Machine.execCnvDisable r s
  | .cnvSubstitute r => Sys2Proof.Machine.execCnvSubstitute r s
  | .cnvSpareAuto r => Sys2Proof.Machine.execCnvSpareAuto r s
  | .cnvCoefLoad r => Sys2Proof.Machine.execCnvCoefLoad r s
  | .cnvLutLoad r => Sys2Proof.Machine.execCnvLutLoad r s
  | .cnvStatusRead r => Sys2Proof.Machine.execCnvStatusRead r s
  | .outRasterConfig r => Sys2Proof.Machine.execOutRasterConfig r s
  | .outGlyphLoad r => Sys2Proof.Machine.execOutGlyphLoad r s
  | .outMarker r => Sys2Proof.Machine.execOutMarker r s
  | .outPalette r => Sys2Proof.Machine.execOutPalette r s
  | .outStatusRead r => Sys2Proof.Machine.execOutStatusRead r s
  | .audConfig r => Sys2Proof.Machine.execAudConfig r s
  | .audDepth r => Sys2Proof.Machine.execAudDepth r s
  | .audCells r => Sys2Proof.Machine.execAudCells r s
  | .audCellsRead r => Sys2Proof.Machine.execAudCellsRead r s
  | .audDestEnable r => Sys2Proof.Machine.execAudDestEnable r s
  | .audDestDisable r => Sys2Proof.Machine.execAudDestDisable r s
  | .aprtAesIn r => Sys2Proof.Machine.execAprtAesIn r s
  | .aprtAesOut r => Sys2Proof.Machine.execAprtAesOut r s
  | .aprtTdm r => Sys2Proof.Machine.execAprtTdm r s
  | .aprtWclk r => Sys2Proof.Machine.execAprtWclk r s
  | .aprtDisable r => Sys2Proof.Machine.execAprtDisable r s
  | .audCsRead r => Sys2Proof.Machine.execAudCsRead r s
  | .aprtCsSet r => Sys2Proof.Machine.execAprtCsSet r s
  | .audStatusRead r => Sys2Proof.Machine.execAudStatusRead r s
  | .mbxNop r => Sys2Proof.Machine.execMbxNop r s
  | .regRead r => Sys2Proof.Machine.execRegRead r s
  | .regWrite r => Sys2Proof.Machine.execRegWrite r s
  | .regRmw r => Sys2Proof.Machine.execRegRmw r s
  | .regSnapshot r => Sys2Proof.Machine.execRegSnapshot r s
  | .xbrStatusRead r => Sys2Proof.Machine.execXbrStatusRead r s
  | .xbrQos r => Sys2Proof.Machine.execXbrQos r s
  | .mbxEventConfig r => Sys2Proof.Machine.execMbxEventConfig r s
  | .dbgChallenge r => Sys2Proof.Machine.execDbgChallenge r s
  | .dbgUnlock r => Sys2Proof.Machine.execDbgUnlock r s
  | .dbgLock r => Sys2Proof.Machine.execDbgLock r s
  | .stagedRequest bank opcode r => Sys2Proof.Machine.execStagedRequest bank opcode r s
  | .cfgBankOpen r => Sys2Proof.Machine.execCfgBankOpen r s
  | .cfgBankSeal r => Sys2Proof.Machine.execCfgBankSeal r s
  | .cfgBankCheck r => Sys2Proof.Machine.execCfgBankCheck r s
  | .cfgBankTruncate r => Sys2Proof.Machine.execCfgBankTruncate r s
  | .cfgBankAbandon r => Sys2Proof.Machine.execCfgBankAbandon r s
  | .cfgBankRead r => Sys2Proof.Machine.execCfgBankRead r s
  | .cfgSchedule r => Sys2Proof.Machine.execCfgSchedule r s
  | .cfgCancel r => Sys2Proof.Machine.execCfgCancel r s
  | .cfgImageLoad r => Sys2Proof.Machine.execCfgImageLoad r s
  | .cfgImageSave r => Sys2Proof.Machine.execCfgImageSave r s
  | .cfgSeasonStore r => Sys2Proof.Machine.execCfgSeasonStore r s
  | .cfgSeasonSwitch r => Sys2Proof.Machine.execCfgSeasonSwitch r s
  | .cfgSalvoStore r => Sys2Proof.Machine.execCfgSalvoStore r s
  | .cfgSalvoFire r => Sys2Proof.Machine.execCfgSalvoFire r s
  | .cfgStatusRead r => Sys2Proof.Machine.execCfgStatusRead r s
  | .twnConfig r => Sys2Proof.Machine.execTwnConfig r s
  | .twnPair r => Sys2Proof.Machine.execTwnPair r s
  | .twnUnpair r => Sys2Proof.Machine.execTwnUnpair r s
  | .twnHandover r => Sys2Proof.Machine.execTwnHandover r s
  | .twnStatusRead r => Sys2Proof.Machine.execTwnStatusRead r s
  | .twnHealthRead r => Sys2Proof.Machine.execTwnHealthRead r s
  | .twnEpochSet r => Sys2Proof.Machine.execTwnEpochSet r s
  | .fltStatusRead r => Sys2Proof.Machine.execFltStatusRead r s
  | .fltClear r => Sys2Proof.Machine.execFltClear r s
  | .fltSeverity r => Sys2Proof.Machine.execFltSeverity r s
  | .fltSourceRead r => Sys2Proof.Machine.execFltSourceRead r s
  | .fltInject r => Sys2Proof.Machine.execFltInject r s
  | .fltWindow r => Sys2Proof.Machine.execFltWindow r s
  | .fltAudit r => Sys2Proof.Machine.execFltAudit r s
  | .rstBlock r => Sys2Proof.Machine.execRstBlock r s
  | .rstRelease r => Sys2Proof.Machine.execRstRelease r s
  | .rstDevice r => Sys2Proof.Machine.execRstDevice r s
  | .rstStatusRead r => Sys2Proof.Machine.execRstStatusRead r s
  | .monConfig r => Sys2Proof.Machine.execMonConfig r s
  | .monRead r => Sys2Proof.Machine.execMonRead r s
  | .devModeRequest r => Sys2Proof.Machine.execDevModeRequest r s
  | .devRemove r => Sys2Proof.Machine.execDevRemove r s
  | .devStatusRead r => Sys2Proof.Machine.execDevStatusRead r s
  | .updBegin r => Sys2Proof.Machine.execUpdBegin r s
  | .updBlock r => Sys2Proof.Machine.execUpdBlock r s
  | .updVerify r => Sys2Proof.Machine.execUpdVerify r s
  | .updPlace r => Sys2Proof.Machine.execUpdPlace r s
  | .updActivate r => Sys2Proof.Machine.execUpdActivate r s
  | .updCancel r => Sys2Proof.Machine.execUpdCancel r s
  | .updStatusRead r => Sys2Proof.Machine.execUpdStatusRead r s
  | .mbxDb n tag => Sys2Proof.Machine.execMbxDb n tag s
  | .mailboxRequestAccept n => Sys2Proof.Machine.execMailboxRequestAccept n s
  | .mailboxWindowWrite n offset bytes => Sys2Proof.Machine.execMailboxWindowWrite n offset bytes s
  | .mbxStateWrite n value => Sys2Proof.Machine.execMbxStateWrite n value s
  | .evtConsWrite value => Sys2Proof.Machine.execEvtConsWrite value s
  | .msixVectorUnmask v => Sys2Proof.Machine.execMsixVectorUnmask v s
  | .bar2Access write addr len bytes => Sys2Proof.Machine.execBar2Access write addr len bytes s
  | .debugWindowAccess write x value => Sys2Proof.Machine.execDebugWindowAccess write x value s
  | .bar0WideAccess addr len => Sys2Proof.Machine.execBar0WideAccess addr len s
  | .controlWindowAccess master write b len bytes => Sys2Proof.Machine.execControlWindowAccess master write b len bytes s
  | .crossbarAccess target reqs => Sys2Proof.Machine.execCrossbarAccess target reqs s
  | .lockBreak target addr write => Sys2Proof.Machine.execLockBreak target addr write s
  | .registerWrite addr value => Sys2Proof.Machine.execRegisterWrite addr value s
  | .smbusBlockRead code => Sys2Proof.Machine.execSmbusBlockRead code s
  | .jtagInstruction ti => Sys2Proof.Machine.execJtagInstruction ti s
  | .jtagTrstN => Sys2Proof.Machine.execJtagTrstN s
  | .gracefulStopComplete f => Sys2Proof.Machine.execGracefulStopComplete f s
  | .gracefulDeadline f => Sys2Proof.Machine.execGracefulDeadline f s
  | .auditPoint a => Sys2Proof.Machine.execAuditPoint a s
  | .sramCorrectedRewrite sram word => Sys2Proof.Machine.execSramCorrectedRewrite sram word s
  | .ncoUpdate => Sys2Proof.Machine.execNcoUpdate s
  | .selectorLocked => Sys2Proof.Machine.execSelectorLocked s
  | .houseSynthRatioLoad => Sys2Proof.Machine.execHouseSynthRatioLoad s
  | .ptpMessageReceive port m => Sys2Proof.Machine.execPtpMessageReceive port m s
  | .ptpMessageTransmit port kind => Sys2Proof.Machine.execPtpMessageTransmit port kind s
  | .announceReceiptTimeout tb => Sys2Proof.Machine.execAnnounceReceiptTimeout tb s
  | .syncAbsenceTimeout tb => Sys2Proof.Machine.execSyncAbsenceTimeout tb s
  | .referenceEdge kind source phase edge => Sys2Proof.Machine.execReferenceEdge kind source phase s edge
  | .frequencyGate cand ppb => Sys2Proof.Machine.execFrequencyGate cand ppb s
  | .candidateQualify cand => Sys2Proof.Machine.execCandidateQualify cand s
  | .candidateLost cand => Sys2Proof.Machine.execCandidateLost cand s
  | .conflictClear => Sys2Proof.Machine.execConflictClear s
  | .initialSelectionWindow => Sys2Proof.Machine.execInitialSelectionWindow s
  | .pulseEdge pin => Sys2Proof.Machine.execPulseEdge pin s
  | .pllLock n => Sys2Proof.Machine.execPllLock n s
  | .pllTableMiss n => Sys2Proof.Machine.execPllTableMiss n s
  | .pllLossOfLock n => Sys2Proof.Machine.execPllLossOfLock n s
  | .pllBypassSearch n => Sys2Proof.Machine.execPllBypassSearch n s
  | .pllRelock n => Sys2Proof.Machine.execPllRelock n s
  | .xtalLoss => Sys2Proof.Machine.execXtalLoss s
  | .octetSynthLossOfLock octet osb => Sys2Proof.Machine.execOctetSynthLossOfLock octet osb s
  | .octetSynthSearch octet osb => Sys2Proof.Machine.execOctetSynthSearch octet osb s
  | .octetSynthRelock octet osb => Sys2Proof.Machine.execOctetSynthRelock octet osb s
  | .losAssert lane peak => Sys2Proof.Machine.execLosAssert lane s peak
  | .losDeassert lane least => Sys2Proof.Machine.execLosDeassert lane s least
  | .laneFrequencyGate lane tenthPpm testErrors testStart => Sys2Proof.Machine.execLaneFrequencyGate lane tenthPpm testErrors s testStart
  | .rateSearchStep lane => Sys2Proof.Machine.execRateSearchStep lane s
  | .laneFrequencyAcquired lane => Sys2Proof.Machine.execLaneFrequencyAcquired lane s
  | .laneAdaptEnd lane => Sys2Proof.Machine.execLaneAdaptEnd lane s
  | .alignmentMarker lane complemented identity => Sys2Proof.Machine.execAlignmentMarker lane complemented identity s
  | .alignTimeout lane => Sys2Proof.Machine.execAlignTimeout lane s
  | .roveVisit octet lane => Sys2Proof.Machine.execRoveVisit octet lane s
  | .roveSubstitution octet mismatches => Sys2Proof.Machine.execRoveSubstitution octet s mismatches
  | .twinTrainingMarker lane laneNumber allUp => Sys2Proof.Machine.execTwinTrainingMarker lane laneNumber allUp s
  | .sdiTrs lane stream position xyz => Sys2Proof.Machine.execSdiTrs lane stream position xyz s
  | .sdiTrsAbsent lane stream => Sys2Proof.Machine.execSdiTrsAbsent lane stream s
  | .sdiLine lane stream y c eav buf => Sys2Proof.Machine.execSdiLine lane stream y c eav buf s
  | .sdiFrameBoundary lane m => Sys2Proof.Machine.execSdiFrameBoundary lane m s
  | .sdiAncPacket lane p => Sys2Proof.Machine.execSdiAncPacket lane p s
  | .sdiAudioPacket lane p => Sys2Proof.Machine.execSdiAudioPacket lane p s
  | .sdiTxFrameStart lane k buf => Sys2Proof.Machine.execSdiTxFrameStart lane k s buf
  | .macPcsAligned port => Sys2Proof.Machine.execMacPcsAligned port s
  | .macLinkUp port => Sys2Proof.Machine.execMacLinkUp port s
  | .macLinkDown port lockLost symErrs badHeaders => Sys2Proof.Machine.execMacLinkDown port lockLost s symErrs badHeaders
  | .remoteFaultReceived port => Sys2Proof.Machine.execRemoteFaultReceived port s
  | .remoteFaultCleared port => Sys2Proof.Machine.execRemoteFaultCleared port s
  | .ethFrameReceive port f => Sys2Proof.Machine.execEthFrameReceive port f s
  | .pauseTimerExpiry port queue => Sys2Proof.Machine.execPauseTimerExpiry port queue s
  | .pauseRefresh port queue => Sys2Proof.Machine.execPauseRefresh port queue s
  | .ethFrameTransmit port => Sys2Proof.Machine.execEthFrameTransmit port s
  | .ringCopy mac ptp => Sys2Proof.Machine.execRingCopy mac ptp s
  | .flowClassify port table window => Sys2Proof.Machine.execFlowClassify port s table window
  | .flowPathDown flow path => Sys2Proof.Machine.execFlowPathDown flow path s
  | .ipFrameClose flow => Sys2Proof.Machine.execIpFrameClose flow s
  | .rekeyPlacementDone => Sys2Proof.Machine.execRekeyPlacementDone s
  | .rekeySwitch => Sys2Proof.Machine.execRekeySwitch s
  | .rekeyComplete => Sys2Proof.Machine.execRekeyComplete s
  | .entropyDrawRetry memc healthy => Sys2Proof.Machine.execEntropyDrawRetry memc healthy s
  | .packetScheduled flow seq k => Sys2Proof.Machine.execPacketScheduled flow seq k s
  | .igmpQuery port group => Sys2Proof.Machine.execIgmpQuery port group s
  | .arpRequest port ip => Sys2Proof.Machine.execArpRequest port ip s
  | .memoryRequest pc q => Sys2Proof.Machine.execMemoryRequest pc q s
  | .burstIssue pc => Sys2Proof.Machine.execBurstIssue pc s
  | .burstComplete pc errs fabric => Sys2Proof.Machine.execBurstComplete pc errs s fabric
  | .holidayDue pc retrain => Sys2Proof.Machine.execHolidayDue pc retrain s
  | .holidayStart pc => Sys2Proof.Machine.execHolidayStart pc s
  | .holidayDeadline pc => Sys2Proof.Machine.execHolidayDeadline pc s
  | .holidayEnd pc => Sys2Proof.Machine.execHolidayEnd pc s
  | .scrubRead pc errs => Sys2Proof.Machine.execScrubRead pc errs s
  | .pcErrorWindow pc => Sys2Proof.Machine.execPcErrorWindow pc s
  | .readResponseTimeout pc => Sys2Proof.Machine.execReadResponseTimeout pc s
  | .pcResetRelease pc => Sys2Proof.Machine.execPcResetRelease pc s
  | .ringMigrationStart ring => Sys2Proof.Machine.execRingMigrationStart ring s
  | .ringMigrationEnd ring => Sys2Proof.Machine.execRingMigrationEnd ring s
  | .retirementSystemCopyDone => Sys2Proof.Machine.execRetirementSystemCopyDone s
  | .retirementComplete => Sys2Proof.Machine.execRetirementComplete s
  | .producerFrameStart slot start => Sys2Proof.Machine.execProducerFrameStart slot start s
  | .producerFrameReady slot fabric => Sys2Proof.Machine.execProducerFrameReady slot fabric s
  | .planPoint tg k => Sys2Proof.Machine.execPlanPoint tg k s
  | .confirmationPoint tg k => Sys2Proof.Machine.execConfirmationPoint tg k s
  | .frameBoundary tg k buf => Sys2Proof.Machine.execFrameBoundary tg k s buf
  | .spliceStart dest => Sys2Proof.Machine.execSpliceStart dest s
  | .spliceEnd dest => Sys2Proof.Machine.execSpliceEnd dest s
  | .converterPictureStart engine j q buf => Sys2Proof.Machine.execConverterPictureStart engine j q s buf
  | .ledgerConverterSend engine j q => Sys2Proof.Machine.execLedgerConverterSend engine j q s
  | .rasterUnderrun slot line sample lateWords => Sys2Proof.Machine.execRasterUnderrun slot line sample lateWords s
  | .audioBlock cells samples => Sys2Proof.Machine.execAudioBlock s cells samples
  | .matrixWordRewrite w => Sys2Proof.Machine.execMatrixWordRewrite w s
  | .aes3Subframe port sub => Sys2Proof.Machine.execAes3Subframe port sub s
  | .inputRateGate kind port tenthPpm => Sys2Proof.Machine.execInputRateGate kind port tenthPpm s
  | .inputQualify kind port => Sys2Proof.Machine.execInputQualify kind port s
  | .inputLost kind port cause => Sys2Proof.Machine.execInputLost kind port cause s
  | .syncSampleInstant kind port => Sys2Proof.Machine.execSyncSampleInstant kind port s
  | .tdmFrame port slots => Sys2Proof.Machine.execTdmFrame port slots s
  | .watchdogMiss core => Sys2Proof.Machine.execWatchdogMiss core s
  | .hitlessRestartEnd => Sys2Proof.Machine.execHitlessRestartEnd s
  | .restartTimeout => Sys2Proof.Machine.execRestartTimeout s
  | .debugUnlockExpiry => Sys2Proof.Machine.execDebugUnlockExpiry s
  | .debugChallengeExpiry => Sys2Proof.Machine.execDebugChallengeExpiry s
  | .snapshotLatch => Sys2Proof.Machine.execSnapshotLatch s
  | .bankCheckComplete bank => Sys2Proof.Machine.execBankCheckComplete bank s
  | .adventStart entry => Sys2Proof.Machine.execAdventStart entry s
  | .adventHandover entry => Sys2Proof.Machine.execAdventHandover entry s
  | .adventHandoverDeadline entry => Sys2Proof.Machine.execAdventHandoverDeadline entry s
  | .commitStrobe => Sys2Proof.Machine.execCommitStrobe s
  | .commitRecord => Sys2Proof.Machine.execCommitRecord s
  | .blockRearm block => Sys2Proof.Machine.execBlockRearm block s
  | .hello h m => Sys2Proof.Machine.execHello h m s
  | .heartbeat h m => Sys2Proof.Machine.execHeartbeat h m s
  | .heartbeatSend => Sys2Proof.Machine.execHeartbeatSend s
  | .time h leftS leftNs cameS cameNs => Sys2Proof.Machine.execTime h leftS leftNs cameS cameNs s
  | .timeSend => Sys2Proof.Machine.execTimeSend s
  | .keys h flowKey placementKey switchAt => Sys2Proof.Machine.execKeys h flowKey placementKey switchAt s
  | .ledger h words => Sys2Proof.Machine.execLedger h words s
  | .digest h d => Sys2Proof.Machine.execDigest h d s
  | .mirror h m => Sys2Proof.Machine.execMirror h m s
  | .handover h instant epoch => Sys2Proof.Machine.execHandover h instant epoch s
  | .leave h reason => Sys2Proof.Machine.execLeave h reason s
  | .inset h lo hi pass => Sys2Proof.Machine.execInset h lo hi pass s
  | .seq h numbers => Sys2Proof.Machine.execSeq h numbers s
  | .replayTimeout => Sys2Proof.Machine.execReplayTimeout s
  | .twinLinkDown => Sys2Proof.Machine.execTwinLinkDown s
  | .twinLinkUp => Sys2Proof.Machine.execTwinLinkUp s
  | .claimAckDecode pins => Sys2Proof.Machine.execClaimAckDecode pins s
  | .claimAckWindow => Sys2Proof.Machine.execClaimAckWindow s
  | .heartbeatTimeout => Sys2Proof.Machine.execHeartbeatTimeout s
  | .witnessJudgement => Sys2Proof.Machine.execWitnessJudgement s
  | .pairingCommit => Sys2Proof.Machine.execPairingCommit s
  | .pairingService => Sys2Proof.Machine.execPairingService s
  | .handoverBoundary tg => Sys2Proof.Machine.execHandoverBoundary tg s
  | .vigilSettle => Sys2Proof.Machine.execVigilSettle s
  | .faultReport r => Sys2Proof.Machine.execFaultReport r s
  | .injectedReport src => Sys2Proof.Machine.execInjectedReport src s
  | .wireCheck => Sys2Proof.Machine.execWireCheck s
  | .wireCheckTimeout src => Sys2Proof.Machine.execWireCheckTimeout src s
  | .faultWireBroken src => Sys2Proof.Machine.execFaultWireBroken src s
  | .domainResetRelease domain inst => Sys2Proof.Machine.execDomainResetRelease domain inst s
  | .consequenceWindowClose domain inst => Sys2Proof.Machine.execConsequenceWindowClose domain inst s
  | .monitorSample index value => Sys2Proof.Machine.execMonitorSample index value s
  | .thermalTrip => Sys2Proof.Machine.execThermalTrip s
  | .powerOnReset levels => Sys2Proof.Machine.execPowerOnReset s levels
  | .supplyLoss levels => Sys2Proof.Machine.execSupplyLoss s levels
  | .sysResetN => Sys2Proof.Machine.execSysResetN s
  | .resetRelease => Sys2Proof.Machine.execResetRelease s
  | .trimLoadComplete copy0Ok copy1Ok => Sys2Proof.Machine.execTrimLoadComplete copy0Ok copy1Ok s
  | .loaderBootRecords => Sys2Proof.Machine.execLoaderBootRecords s
  | .loaderStoreCheck answers => Sys2Proof.Machine.execLoaderStoreCheck answers s
  | .hbmTrainingComplete failed => Sys2Proof.Machine.execHbmTrainingComplete failed s
  | .perbyStart => Sys2Proof.Machine.execPerbyStart s
  | .hostInterfaceReset => Sys2Proof.Machine.execHostInterfaceReset s
  | .pcieLinkUp => Sys2Proof.Machine.execPcieLinkUp s
  | .updVerifyComplete => Sys2Proof.Machine.execUpdVerifyComplete s
  | .updPlaceComplete ok => Sys2Proof.Machine.execUpdPlaceComplete ok s
  | .activationPrepare => Sys2Proof.Machine.execActivationPrepare s
  | .activationStart => Sys2Proof.Machine.execActivationStart s
  | .activationComplete => Sys2Proof.Machine.execActivationComplete s
  | .roveReleasedSliceCalibrated octet withinLimit => Sys2Proof.Machine.execRoveReleasedSliceCalibrated octet withinLimit s
  | .laneControllerRestartEnd => Sys2Proof.Machine.execLaneControllerRestartEnd s
  | .controlPlaneRingFrame mac => Sys2Proof.Machine.execControlPlaneRingFrame mac s
  | .twinReceiverInvertToggle lane => Sys2Proof.Machine.execTwinReceiverInvertToggle lane s

end Sys2Proof.Machine
end

