-- ==== Sys2Proof/Machine/Step.lean ====
section
/-! DEFINITION. One step of the block: the command at the front of the queue, or a cycle of its own. -/

namespace Sys2Proof.Machine

/-- The front command runs on the state with the queue's rest; on an empty queue the block idles for one TIM cycle. -/
def step (s : State) : Host.Outcome State Fault Refusal :=
  match s.pending with
  | [] => execIdle s
  | i :: rest => exec i { s with pending := rest }

/-- The state with the command that a word spells at the front of its queue; a word spells none (log entry 11). -/
def State.withFetchWord (s : State) (nbits w : Nat) : State :=
  match Sys2Proof.decodeTableWord nbits w with
  | some i => enqueueFront i s
  | none => s

end Sys2Proof.Machine
end

