-- ==== Sys2Proof/WellFormed.lean ====
section
/-! DEFINITION. What the outside world can say to the block: a command whose operands name nothing the Feruk lacks (a mailbox,
a lane, a port, a pseudo-channel) and whose byte strings have the lengths their interface gives them. A payload field out of
range is no fault of form: the command answers it (R403). -/

namespace Sys2Proof

/-- The request window of a mailbox holds a header of 16 bytes and a payload of at most 4,080 (R403); there are 16
mailboxes. -/
def Req.wf (r : Req) : Bool := decide (r.mbx < 16 ∧ r.payload.length ≤ 4080)

/-- An access carries its bytes when it writes, and none when it reads. -/
def carried (write : Bool) (len : Nat) (bytes : List Byte) : Bool :=
  decide (1 ≤ len) && decide (bytes.length = if write then len else 0)

/-- Nine masters (R413); a burst has at least one beat, and a write one word for each. -/
def XReq.wf (q : XReq) : Bool :=
  decide (q.master < 9 ∧ q.addr < 2 ^ 32 ∧ 1 ≤ q.beats) && decide (q.values.length = if q.write then q.beats else 0)

/-- 128 Ethernet ports, eight for each of 16 MACs (R156). -/
def portNo (p : Nat) : Bool := decide (p < 128)

/-- An SDI receiver or transmitter: a lane 0 to 191, or framer 192 on (R190). -/
def framerNo (n : Nat) : Bool := decide (n < 256)

/-- The errors of a word lie in its 36 symbols (R24, R232), none named twice, and change them. -/
def SymErr.wf (e : SymErr) : Bool := e.all (fun x => decide (x.1 < 36 ∧ x.2 ≠ 0)) && decide (e.map (·.1)).Nodup

/-- A word of an SRAM with its errors. -/
def WordErr.wf (w : WordErr) : Bool := SymErr.wf w.2

/-- 66 requesters (R247). -/
def MemReq.wf (q : MemReq) : Bool := decide (q.requester < 66)

/-- Sequence number and acknowledgement of a link frame are 32-bit (R455). -/
def LinkHdr.wf (h : LinkHdr) : Bool := decide (h.seq < 2 ^ 32 ∧ h.ack < 2 ^ 32) && h.errs.all SymErr.wf

/-- A part of a mirrored record fills at most the 63 words after the frame's first; the record is a request, with a bank number
where it is staged (R455, R466). -/
def MirrorMsg.wf (m : MirrorMsg) : Bool :=
  decide (m.opcode < 2 ^ 16 ∧ m.len ≤ 4080 ∧ m.body.length ≤ 2016)
    && match m.stage with
      | some b => decide (b < 4)
      | none => true

/-- Format and mapping codes are bytes and the link number is 0 to 4 (R121, R125). -/
def SdiMeasure.wf (m : SdiMeasure) : Bool := decide (m.format < 256 ∧ m.mapping < 16 ∧ m.sampling < 8 ∧ m.link ≤ 4)

/-- An ST 291 packet carries at most 255 user data words of 10 bits (R134, R136). -/
def AncPacket.wf (p : AncPacket) : Bool :=
  decide (p.udw.length ≤ 255 ∧ p.did < 1024 ∧ p.sdid < 1024 ∧ p.dc < 1024 ∧ p.checksum < 1024 ∧ p.line < 2048 ∧ p.hoff < 4096)
    && p.udw.all fun w => decide (w < 1024)

/-- A group has four channels and two AES pairs (R139). -/
def AudioPacket.wf (p : AudioPacket) : Bool :=
  decide (p.pairs.length ≤ 2) && p.samples.all fun e => decide (1 ≤ e.channel ∧ e.channel ≤ 4)

/-- The words of a line are of 10 bits (R119). -/
def lineWf (y c : List Nat) : Bool := (y ++ c).all fun w => decide (w < 1024)

/-- The fields of an RTP header fit their widths (R202). -/
def Rtp.wf (r : Rtp) : Bool :=
  decide (r.version < 4 ∧ r.pt < 128 ∧ r.seq < 2 ^ 16 ∧ r.ts < 2 ^ 32)
    && match r.ext with
      | some (p, _) => decide (p < 2 ^ 16)
      | none => true

/-- A frame's destination is six bytes and its VLAN tag has a priority of 3 bits and an identifier of 12 (R163). -/
def EthFrame.wf (f : EthFrame) : Bool :=
  decide (f.dst.length = 6 ∧ f.etherType < 2 ^ 16)
    && (match f.tag with
      | some (vid, pcp) => decide (vid < 4096 ∧ pcp < 8)
      | none => true)
    && SymErr.wf f.cellErrs
    && (match f.ip.bind (·.rtp) with
      | some r => r.wf
      | none => true)
    && match f.pause with
      | some (op, times) => decide (op < 2 ^ 16 ∧ times.length ≤ 8)
      | none => true

/-- The auditor exists (R39). -/
def Auditor.wf : Auditor → Bool
  | .mac n => decide (n < 16)
  | .memc k => decide (k < 64)
  | .cnv e => decide (e < 48)
  | .flow | .fab | .aud => true

/-- The function exists (R32). -/
def Func.wf : Func → Bool
  | .laneRx n | .laneTx n => decide (n < 196)
  | .sdiRx n | .sdiTx n => framerNo n
  | .port p => portNo p
  | .queue p dir q => portNo p && decide (dir < 2 ∧ q < 8)
  | .rxFlow f | .txFlow f => decide (f < 8192)
  | .engine e => decide (e < 48)
  | .ingress r | .raster r => decide (r < 1152)
  | .dests first count => decide (1 ≤ count ∧ first + count ≤ 32768)
  | .audioPort kind _ => decide (kind < 4)
  | .pulse pin => decide (pin < 16)
  | .timeBase tb => decide (tb < 4)
  | .service => true

/-- A command that the block can be given. -/
def Instr.wellFormed : Instr → Bool
  | .timTbConfig r | .timTbEnable r | .timTbDisable r | .timRestep r | .timRead r | .timPortAsymmetry r |
    .refCandConfig r | .refSelectManual r | .refSelectAuto r | .refLimits r | .refRealign r | .pulseConfig r |
    .pulseStop r | .pllBandTable r | .pllRestore r | .laneOctMode r | .laneEnable r | .laneDisable r | .laneTxEq r |
    .laneRxEq r | .laneRove r | .laneStatusRead r | .laneTest r | .laneRestart r | .sdiRxConfig r | .sdiRxDisable r |
    .sdiMultilink r | .sdiAncFilter r | .sdiAudioDeembed r | .sdiTxConfig r | .sdiTxDisable r | .sdiAudioEmbed r |
    .sdiCsSet r | .sdiStatusRead r | .macPortConfig r | .macPortEnable r | .macPortDisable r | .macQueueConfig r |
    .macQueueDisable r | .macFilter r | .macTxFrame r | .macRxFrame r | .macStatusRead r | .flowPortIp r |
    .flowRxConfig r | .flowRxPath r | .flowRxEnable r | .flowRxDisable r | .flowRxDelete r | .flowTxConfig r |
    .flowTxPath r | .flowTxEnable r | .flowTxDisable r | .flowRekey r | .flowStatusRead r | .memcRingConfig r |
    .memcRingRead r | .memcAdmitReport r | .memcPcRetire r | .memcErrorConfig r | .memcScrubConfig r |
    .memcHolidayConfig r | .memcStatusRead r | .memcWindow r | .routeIngressBind r | .routeIngressUnbind r |
    .routeTgConfig r | .routeEgressBind r | .routeEgressUnbind r | .routeAlignGroup r | .routeTake r |
    .routeStatusRead r | .cnvConfig r | .cnvEnable r | .cnvDisable r | .cnvSubstitute r | .cnvSpareAuto r |
    .cnvCoefLoad r | .cnvLutLoad r | .cnvStatusRead r | .outRasterConfig r | .outGlyphLoad r | .outMarker r |
    .outPalette r | .outStatusRead r | .audConfig r | .audDepth r | .audCells r | .audCellsRead r | .audDestEnable r |
    .audDestDisable r | .aprtAesIn r | .aprtAesOut r | .aprtTdm r | .aprtWclk r | .aprtDisable r | .audCsRead r |
    .aprtCsSet r | .audStatusRead r | .mbxNop r | .regRead r | .regWrite r | .regRmw r | .regSnapshot r |
    .xbrStatusRead r | .xbrQos r | .mbxEventConfig r | .dbgChallenge r | .dbgUnlock r | .dbgLock r | .cfgBankOpen r |
    .cfgBankSeal r | .cfgBankCheck r | .cfgBankTruncate r | .cfgBankAbandon r | .cfgBankRead r | .cfgSchedule r |
    .cfgCancel r | .cfgImageLoad r | .cfgImageSave r | .cfgSeasonStore r | .cfgSeasonSwitch r | .cfgSalvoStore r |
    .cfgSalvoFire r | .cfgStatusRead r | .twnConfig r | .twnPair r | .twnUnpair r | .twnHandover r |
    .twnStatusRead r | .twnHealthRead r | .twnEpochSet r | .fltStatusRead r | .fltClear r | .fltSeverity r |
    .fltSourceRead r | .fltInject r | .fltWindow r | .fltAudit r | .rstBlock r | .rstRelease r | .rstDevice r |
    .rstStatusRead r | .monConfig r | .monRead r | .devModeRequest r | .devRemove r | .devStatusRead r | .updBegin r |
    .updBlock r | .updVerify r | .updPlace r | .updActivate r | .updCancel r | .updStatusRead r => r.wf
  | .stagedRequest bank opcode r => decide (bank < 4 ∧ opcode < 2 ^ 16) && r.wf
  | .mbxDb n _ | .mbxStateWrite n _ => decide (n < 16)
  | .mailboxRequestAccept n => decide (n < 16)
  | .mailboxWindowWrite n offset bytes => decide (n < 16 ∧ offset + bytes.length ≤ 0x2000)
  | .evtConsWrite _ | .jtagInstruction _ | .loaderStoreCheck _ | .updPlaceComplete _ => true
  | .msixVectorUnmask v => decide (v < 64)
  | .bar2Access write _ len bytes => carried write len bytes
  | .debugWindowAccess _ x _ => decide (x < 2 ^ 23 ∧ x % 4 = 0)
  | .bar0WideAccess _ len => decide (8 < len)
  | .controlWindowAccess m write b len bytes => decide (m < 9 ∧ b + len ≤ 2 ^ 29) && carried write len bytes
  | .crossbarAccess t reqs => decide (t < 22) && reqs.all XReq.wf
  | .lockBreak t addr _ => decide (t < 22 ∧ addr < 2 ^ 32)
  | .registerWrite addr _ => decide (addr < 2 ^ 32)
  | .smbusBlockRead code => decide (code < 256)
  | .jtagTrstN | .ncoUpdate | .selectorLocked | .houseSynthRatioLoad | .conflictClear | .initialSelectionWindow |
    .xtalLoss | .rekeyPlacementDone | .rekeySwitch | .rekeyComplete | .retirementSystemCopyDone |
    .retirementComplete | .hitlessRestartEnd | .restartTimeout | .debugUnlockExpiry |
    .debugChallengeExpiry | .snapshotLatch | .commitStrobe | .commitRecord | .heartbeatSend | .timeSend |
    .replayTimeout | .twinLinkDown | .twinLinkUp | .claimAckWindow | .heartbeatTimeout | .witnessJudgement |
    .pairingCommit | .pairingService | .vigilSettle | .wireCheck | .thermalTrip |
    .sysResetN | .resetRelease | .loaderBootRecords | .perbyStart | .hostInterfaceReset | .pcieLinkUp |
    .updVerifyComplete | .activationPrepare | .activationStart | .activationComplete | .laneControllerRestartEnd =>
    true
  | .powerOnReset mv | .supplyLoss mv => decide (mv.length = 9)
  | .gracefulStopComplete f | .gracefulDeadline f => f.wf
  | .auditPoint a => a.wf
  | .sramCorrectedRewrite _ _ | .entropyDrawRetry _ _ | .trimLoadComplete _ _ => true
  | .ptpMessageReceive p _ | .ptpMessageTransmit p _ | .macLinkDown p _ _ _ => portNo p
  | .announceReceiptTimeout tb | .syncAbsenceTimeout tb => decide (tb < 4)
  | .referenceEdge kind _ _ edge => decide ((kind = 2 ∨ kind = 4 ∨ kind = 5) ∧ edge < 3)
  | .frequencyGate c _ => decide (c < 16)
  | .candidateQualify c | .candidateLost c => decide (c < 16)
  | .pulseEdge pin => decide (pin < 16)
  | .pllLock n | .pllTableMiss n | .pllLossOfLock n | .pllBypassSearch n | .pllRelock n => decide (n < 12)
  | .octetSynthLossOfLock o _ | .octetSynthSearch o _ | .octetSynthRelock o _ | .roveVisit o _ |
    .roveReleasedSliceCalibrated o _ => decide (o < 25)
  | .losAssert n _ | .losDeassert n _ | .rateSearchStep n | .laneFrequencyAcquired n | .laneAdaptEnd n | .alignTimeout n =>
    decide (n < 196)
  | .laneFrequencyGate n _ _ _ => decide (n < 196)
  | .alignmentMarker n _ _ => decide (n < 192)
  | .roveSubstitution o _ => decide (o < 25)
  | .twinTrainingMarker n no _ => decide (192 ≤ n ∧ n < 196 ∧ no < 4)
  | .sdiTrs n _ _ _ => framerNo n
  | .sdiTrsAbsent n _ => framerNo n
  | .sdiTxFrameStart n _ buf => framerNo n && buf.all WordErr.wf
  | .sdiLine n _ y c eav buf => framerNo n && lineWf y c && lineWf (eav.map (·.1)) (eav.map (·.2)) && buf.all WordErr.wf
  | .sdiFrameBoundary n m => framerNo n && m.wf
  | .sdiAncPacket n p | .sdiAudioPacket n p => framerNo n && p.wf
  | .macPcsAligned p | .macLinkUp p | .remoteFaultReceived p | .remoteFaultCleared p | .ethFrameTransmit p => portNo p
  | .flowClassify p table window => portNo p && table.all WordErr.wf && SymErr.wf window
  | .ethFrameReceive p f => portNo p && f.wf
  | .pauseTimerExpiry p q | .pauseRefresh p q => portNo p && decide (q < 8)
  | .ringCopy m _ => decide (m < 16)
  | .flowPathDown f path => decide (f < 8192 ∧ path < 2)
  | .ipFrameClose f => decide (f < 8192)
  | .packetScheduled f q _ => decide (f < 8192 ∧ q < 2 ^ 32)
  | .igmpQuery p group => portNo p && decide (group < 2 ^ 32)
  | .arpRequest p ip => portNo p && decide (ip < 2 ^ 32)
  | .memoryRequest k q => decide (k < 64) && q.wf
  | .burstIssue k | .holidayStart k | .holidayDeadline k | .holidayEnd k | .pcErrorWindow k | .readResponseTimeout k |
    .pcResetRelease k => decide (k < 64)
  | .audioBlock cells samples => cells.all WordErr.wf && samples.all fun x => WordErr.wf x.2.2
  | .burstComplete k errs fabric => decide (k < 64) && SymErr.wf errs && SymErr.wf fabric
  | .scrubRead k errs => decide (k < 64) && SymErr.wf errs
  | .holidayDue k _ => decide (k < 64)
  | .ringMigrationStart r | .ringMigrationEnd r => decide (r < 1152)
  | .producerFrameReady r fabric => decide (r < 1152) && fabric.all WordErr.wf
  | .producerFrameStart r start => decide (r < 1152 ∧ 0 ≤ start)
  | .planPoint tg _ | .confirmationPoint tg _ => decide (tg < 64)
  | .frameBoundary tg _ buf => decide (tg < 64) && buf.all fun x => decide (x.1 < 1152) && WordErr.wf x.2
  | .spliceStart dst | .spliceEnd dst => decide (dst < 32768)
  | .converterPictureStart e _ q buf => decide (e < 48 ∧ q < 2) && buf.all WordErr.wf
  | .ledgerConverterSend e _ q => decide (e < 48 ∧ q < 2)
  | .rasterUnderrun e _ _ _ => decide (e < 1152)
  | .matrixWordRewrite w => decide (w < 32768 * 8)
  | .aes3Subframe p s => decide (p < 32 ∧ s.preamble < 3)
  | .inputRateGate kind _ _ => decide (kind < 4)
  | .inputQualify kind _ | .syncSampleInstant kind _ => decide (kind < 4)
  | .inputLost kind _ cause => decide (kind < 4 ∧ 1 ≤ cause ∧ cause ≤ 3)
  | .tdmFrame p slots => decide (p < 8 ∧ slots.length ≤ 32)
  | .watchdogMiss core => decide (core < 4)
  | .bankCheckComplete b => decide (b < 4)
  | .adventStart e | .adventHandover e | .adventHandoverDeadline e => decide (e < 256)
  | .blockRearm b => decide (b < 256)
  | .hello h _ | .heartbeat h _ => h.wf
  | .ledger h words => h.wf && decide (words.length ≤ 64)
  | .digest h m => h.wf && decide (m.lines.length ≤ 512 ∧ m.lanes.length ≤ 512)
  | .time h _ l _ c => h.wf && decide (0 ≤ l ∧ l < 1000000000 ∧ 0 ≤ c ∧ c < 1000000000)
  | .keys h _ _ _ | .inset h _ _ _ => h.wf
  | .mirror h m => h.wf && m.wf
  | .handover h _ _ => h.wf
  | .leave h reason => h.wf && decide (reason < 256)
  | .seq h numbers => h.wf && numbers.all fun x => decide (x.1 < 8192 ∧ x.2 < 2 ^ 16)
  | .claimAckDecode pins => decide (pins.length ≤ 16)
  | .handoverBoundary tg => decide (tg < 64)
  | .faultReport r => decide (r.src < 1024)
  | .injectedReport s | .wireCheckTimeout s | .faultWireBroken s => decide (s < 1024)
  | .domainResetRelease domain inst | .consequenceWindowClose domain inst => decide (domain < 256 ∧ inst < 65536)
  | .monitorSample i _ => decide (i < 98)
  | .hbmTrainingComplete failed => failed.all fun k => decide (k < 64)
  | .controlPlaneRingFrame m => decide (m < 16)
  | .twinReceiverInvertToggle n => decide (192 ≤ n ∧ n < 196)

end Sys2Proof
end

