-- ==== Sys2Proof/Safety.lean ====
section
/-! DEFINITION. What a safe run keeps, and the words in which claims speak of commands. -/

namespace Sys2Proof.Safety

open Sys2Proof.Machine

/-- The state with another device; HBM and the queue stand. -/
def withDev (s : State) (d : Dev) : State := { s with dev := d }

/-- HBM is in its one canonical form: addresses strictly rising, and no entry that an unlisted address would read as. -/
def Canonical (s : State) : Prop := s.hbm.wf = true

/-- A run never stops: every command answers a next state. -/
def Goes (o : Out) (t : State) : Prop := o = .next t

/-- A host command that Perby takes: firmware serves its mailbox, no rule refuses it (R403, R404, R432, R466), and fewer than
256 completion events are owed (R408). -/
def Taken (c : CmdSpec) (r : Req) (s : State) : Prop :=
  serves r.mbx s.dev = true ∧ refusal c (argsOf r s) s.dev = none ∧ s.dev.host.evt.owed < 256

/-- The state after a taken command whose effect leaves the device `d`: answered 0x0000 or 0x0001, it stands in the books
(R431, R446, R466); the response window holds its answer and the mailbox is DONE (R405); `w` is written to HBM; and changes
whose point is gone have applied. -/
def answered (c : CmdSpec) (r : Req) (s : State) (reply : Reply) (d : Dev) (w : List (Nat × Byte) := []) : State :=
  withStore (settle (answer r.mbx c.opcode 0 r.tag reply
    (if reply.status ≤ 1 then bookAccepted c (argsOf r s) (pointInstant (c.point r.payload s.dev) s.dev) d else d))) w s

/-- What a command does when its point is the present instant; with a later point the change waits for that point
(R438 and the family chapters). -/
def atPoint (c : CmdSpec) (r : Req) (s : State) (effect : Dev → Dev) : Dev :=
  match c.point r.payload s.dev with
  | .now => effect s.dev
  | q => { s.dev with cfg.waiting := s.dev.cfg.waiting ++ [⟨q, ⟨c.opcode, r.payload⟩, none, false⟩] }

/-- The state after a taken command that answers 0x0000 with no payload. -/
def doneAfter (c : CmdSpec) (r : Req) (s : State) (effect : Dev → Dev) : State :=
  answered c r s {} (atPoint c r s effect)

/-- The state after a taken command that only reads. -/
def doneWith (c : CmdSpec) (r : Req) (s : State) (payload : List Byte) : State := answered c r s { payload := payload } s.dev

/-- Words as a response carries them (R10). -/
def words (l : List Nat) : List Byte := l.flatMap (le 4)

/-- Functions stop or begin to drain on a disable command (R29 to R36), from the device `d`: the outcome and the device. -/
def stopped (c : CmdSpec) (r : Req) (d : Dev) (fs : List Func) : Nat × Dev :=
  match fs with
  | [] => (ocNone, d)
  | l => disableAll (disableNow c.opcode r.payload) (r.mbx, r.tag, c.opcode) l d

/-- The state after a disable command, once its functions have stopped or begun to drain, and `effect` has followed. Draining
answers 0x0001 and the outcome code stands first in the response (R33); a command that disables nothing answers none. -/
def disabled (c : CmdSpec) (r : Req) (s : State) (x : Nat × Dev) (effect : Dev → Dev) : State :=
  answered c r s { status := if x.1 = ocDraining then 1 else 0, payload := if x.1 = ocNone then [] else le 4 x.1 } (effect x.2)

/-- A link frame that the receiver acts on (R455): the link is up, no word of the frame is in error and no injection is armed
at its checker, and its sequence number is the one expected. -/
def FrameTaken (h : LinkHdr) (d : Dev) : Prop :=
  twinUp d = true ∧ h.errs = [] ∧ (tget d.flt.sources 0x0D0).inj = none ∧ h.seq = d.twn.rxSeq

/-- The device as a taken link frame's message finds it (R455): one frame more is received, the frames that the partner
acknowledges are let go, and held frames that now fit are sent. -/
def frameTaken (h : LinkHdr) (d : Dev) : Dev :=
  let d := ackFrames h.ack { d with twn.heardAt := d.up, twn.rxSeq := (d.twn.rxSeq + 1) % 2 ^ 32 }
  releaseHeld d.twn.holding.length d

/-- A ledger entry whose fields the widths of R467 hold. -/
def ledgerFits : LedgerEntry → Prop
  | .route slot k start _ _ dly => slot < 2 ^ 11 ∧ k < 2 ^ 48 ∧ start < 2 ^ 48 ∧ -2 ^ 31 ≤ dly ∧ dly < 2 ^ 31
  | .converter e j q sa sb w _ _ => e < 2 ^ 6 ∧ j < 2 ^ 48 ∧ q < 2 ∧ sa < 2 ^ 48 ∧ sb < 2 ^ 48 ∧ w < 2 ^ 7
  | .alignment kind id index => kind < 2 ^ 3 ∧ id < 2 ^ 13 ∧ index < 2 ^ 48
  | .rateConverter c n ratio phase => c < 2 ^ 15 ∧ n < 2 ^ 48 ∧ ratio < 2 ^ 40 ∧ phase < 2 ^ 40

/-- The commands that can write HBM: BAR2 and CTL writes by way of the staging region and the HBM control window, the command
that saves an image to the staging region, a mailbox request that may be one of these, training, Perby's start, the copy of a
retiring pseudo-channel's system granules, a producer's frame, and the picture that an engine composes, or composes again after a poisoned word. -/
def writesHbm : Instr → Bool
  | .cfgImageSave _ | .regWrite _ | .regRmw _ | .mailboxRequestAccept _ | .crossbarAccess _ _ | .controlWindowAccess .. => true
  | .debugWindowAccess .. | .registerWrite .. | .bar2Access .. | .hbmTrainingComplete _ | .perbyStart => true
  | .retirementSystemCopyDone | .producerFrameReady .. | .converterPictureStart .. | .burstComplete .. => true
  | _ => false

/-- An address lies in a slot of a ring: in one of its planes' words or of its ancillary area (R237). -/
def inSlot (r : Nat) (x : Stream) (s : Slot) (a : Nat) : Prop :=
  let l := slotLayout x s
  ∃ w, w < planeWord x (slotPlanes x).length + 64 * l.anc * x.n
    ∧ slotAddr l (layoutPi r l) s.index w ≤ a ∧ a < slotAddr l (layoutPi r l) s.index w + 32

end Sys2Proof.Safety
end

