-- ==== Sys2Proof/Certificates/Slice0/Obligations.lean ====
section
/-! DEFINITION. The statements for the provers. A host command's statement is about a request that is taken (`Safety.Taken`:
firmware serves the mailbox, no rule refuses it, a completion event can be owed); an event's, about a state in which the event
comes about. -/

open Sys2Proof Sys2Proof.Machine Sys2Proof.Safety

/-- Each command of family 0x0A (chapter 2), taken, answers a next state that is given whole: configuration fields take the payload's values, an enable of a time base begins its state machine, a disable stops or drains, and TIM_READ returns the five times and status words. What the statement does not name stands. When a graceful stop ends is log entry 16. -/
def Obligations.TimeCommands : Prop := ∀ (q : Req) (s : State),
    (Taken cmdTimTbConfig q s → exec (.timTbConfig q) s = .next (doneAfter cmdTimTbConfig q s fun d =>
        let p := q.payload
        let n := u8 p 0
        let turns := decide ((tget d.tim.tbs n).state ≠ 0 ∧ (tget d.tim.tbs n).role ≠ u8 p 1)
        (fun d => if turns then tbStart n d else d) <| updTb n (fun b => { b with
          role := u8 p 1, profile := u8 p 2, domain := u8 p 3, logSync := signed 8 (u8 p 4), logAnn := signed 8 (u8 p 5),
          logDelay := signed 8 (u8 p 6), timeout := u8 p 7, mech := u8 p 8, prio1 := u8 p 9, prio2 := u8 p 10,
          classL := u8 p 12, classS := u8 p 13, classF := u8 p 14, stepNs := u32 p 16, bw := u16 p 20,
          ports := portBits p 24 }) (if turns then tbStop n d else d)))
    ∧ (Taken cmdTimTbEnable q s → exec (.timTbEnable q) s = .next (doneAfter cmdTimTbEnable q s fun d =>
        tbStart (u8 q.payload 0) d))
    ∧ (Taken cmdTimTbDisable q s → exec (.timTbDisable q) s = .next (disabled cmdTimTbDisable q s (stopped cmdTimTbDisable q s.dev [.timeBase (u8 q.payload 4)])
      (fun d => d)))
    ∧ (Taken cmdTimRestep q s → exec (.timRestep q) s = .next (doneAfter cmdTimRestep q s fun d =>
        let n := u8 q.payload 0
        loseSource 1 n (updTb n (fun b => { b with state := 2, offsets := [], lockRun := 0, faultRun := 0 }) d)))
    ∧ (Taken cmdTimRead q s → exec (.timRead q) s = .next (answered cmdTimRead q s (let d := s.dev;
        let times := (List.range 4).foldl (fun l n => l ++ le 12 (t96 (tbTime n d)) ++ le 4 0) []
        let words := (List.range 4).foldl (fun l n => l ++ le 4 (tbStatus n d)) []
        { payload := le 12 (t96 d.house) ++ le 4 0 ++ times ++ words }) s.dev))
    ∧ (Taken cmdTimPortAsymmetry q s → exec (.timPortAsymmetry q) s = .next (doneAfter cmdTimPortAsymmetry q s fun d =>
        { d with tim.asym := tset d.tim.asym (u8 q.payload 0) (i32 q.payload 4) }))
    ∧ (Taken cmdRefCandConfig q s → exec (.refCandConfig q) s = .next (doneAfter cmdRefCandConfig q s fun d =>
        let p := q.payload
        let n := u8 p 0
        let c := cand n d
        if u8 p 3 = 0 then select (updCand n (fun _ => default) d)
        else
          let keep := decide (c.rank ≠ 0 ∧ c.kind = u8 p 1 ∧ c.source = u8 p 2 ∧ c.frameN = u32 p 4 ∧ c.frameD = u16 p 8
            ∧ c.window = u16 p 18)
          let old : Cand := if keep then c else {}
          select (updCand n (fun _ => { old with
            kind := u8 p 1, source := u8 p 2, rank := u8 p 3, frameN := u32 p 4, frameD := u16 p 8, offNs := i32 p 12,
            offFrac := u16 p 16, window := u16 p 18, holdoff := u16 p 20 }) d)))
    ∧ (Taken cmdRefSelectManual q s → exec (.refSelectManual q) s = .next (doneAfter cmdRefSelectManual q s fun d =>
        let n := u8 q.payload 0
        let d := updRef (fun r => { r with manual := true }) d
        if d.tim.ref.active = n then d else activate n d))
    ∧ (Taken cmdRefSelectAuto q s → exec (.refSelectAuto q) s = .next (doneAfter cmdRefSelectAuto q s fun d =>
        select (updRef (fun r => { r with manual := false }) d)))
    ∧ (Taken cmdRefLimits q s → exec (.refLimits q) s = .next (doneAfter cmdRefLimits q s fun d =>
        let p := q.payload
        select (updRef (fun r => { r with slope := u32 p 0, slew := u32 p 4, disagree := u32 p 8, nominal := i32 p 12,
                                          revert := decide (u8 p 16 = 1), initMs := u16 p 18, glitch := u32 p 20 }) d)))
    ∧ (Taken cmdRefRealign q s → exec (.refRealign q) s = .next (doneAfter cmdRefRealign q s fun d =>
        select (updRef (fun r => { r with initDone := true }) (alignTo (u8 q.payload 0) d))))
    ∧ (Taken cmdPulseConfig q s → exec (.pulseConfig q) s = .next (doneAfter cmdPulseConfig q s fun d =>
        let g := progOf q.payload (refTime (u8 q.payload 1) d)
        updPulse (u8 q.payload 0) (fun p => match p.prog with
          | some _ => { p with next := some g, set := true }
          | none => { p with prog := some g, k := g.first, high := false, ending := none, set := true }) d))
    ∧ (Taken cmdPulseStop q s → exec (.pulseStop q) s = .next (disabled cmdPulseStop q s (stopped cmdPulseStop q s.dev [.pulse (u8 q.payload 4)])
      (fun d => d)))
    ∧ (Taken cmdPllBandTable q s → exec (.pllBandTable q) s = .next (doneAfter cmdPllBandTable q s fun d =>
        updSynth (u8 q.payload 0) (fun s => { s with table := decide (u8 q.payload 1 = 1), band := u8 q.payload 2 }) d))
    ∧ (Taken cmdPllRestore q s → exec (.pllRestore q) s = .next (doneAfter cmdPllRestore q s fun d =>
        updSynth (u8 q.payload 0) (fun s => { s with bypass := false }) d))

/-- Each command of family 0x02 (chapter 3), taken, answers a next state that is given whole: octet modes, enables, equaliser settings, roving, test patterns and restarts take the payload's values and start the receiver's steps; LANE_STATUS_READ returns the status words and counters. What the statement does not name stands. -/
def Obligations.LaneCommands : Prop := ∀ (q : Req) (s : State),
    (Taken cmdLaneOctMode q s → exec (.laneOctMode q) s = .next (doneAfter cmdLaneOctMode q s fun d =>
        octetMode (u8 q.payload 0) (u8 q.payload 1) d))
    ∧ (Taken cmdLaneEnable q s → exec (.laneEnable q) s = .next (doneAfter cmdLaneEnable q s fun d =>
        let p := q.payload
        let n := u16 p 0
        let d := if bitOf (u8 p 2) 0 then enableRx n (u8 p 3) d else d
        if bitOf (u8 p 2) 1 then updLane n (fun l => { l with txEn := true, txRate := u8 p 4 }) d else d))
    ∧ (Taken cmdLaneDisable q s → exec (.laneDisable q) s = .next (disabled cmdLaneDisable q s (stopped cmdLaneDisable q s.dev ((if bitOf (u8 q.payload 6) 0 then [Func.laneRx (u16 q.payload 4)] else []) ++ (if bitOf (u8 q.payload 6) 1 then [Func.laneTx (u16 q.payload 4)] else [])))
      (fun d => d)))
    ∧ (Taken cmdLaneTxEq q s → exec (.laneTxEq q) s = .next (doneAfter cmdLaneTxEq q s fun d =>
        let p := q.payload
        updLane (u16 p 0) (fun l => { l with swing := u8 p 2, pre2 := u8 p 3, pre1 := u8 p 4, post1 := u8 p 5,
                                             txPre := decide (u8 p 6 = 1) }) d))
    ∧ (Taken cmdLaneRxEq q s → exec (.laneRxEq q) s = .next (doneAfter cmdLaneRxEq q s fun d =>
        let p := q.payload
        updLane (u16 p 0) (fun l => { l with
          adapt := u8 p 2, ctle := u8 p 3, vga := u8 p 4, losTh := u8 p 5, rxPre := decide (u8 p 6 = 1),
          ctleNow := if u8 p 2 = 2 ∧ 2 ≤ l.rxState then u8 p 3 else l.ctleNow,
          vgaNow := if u8 p 2 = 2 ∧ 2 ≤ l.rxState then u8 p 4 else l.vgaNow }) d))
    ∧ (Taken cmdLaneRove q s → exec (.laneRove q) s = .next (doneAfter cmdLaneRove q s fun d =>
        let o := u8 q.payload 0
        let on := decide (u8 q.payload 1 = 1)
        let d := if on then d else abortVisit o (tget d.octets o).roveLane d
        updOct o (fun x => { x with roveEn := on, dwell := u8 q.payload 2,
                                    lastVisit := if x.roveEn then x.lastVisit else d.up }) d))
    ∧ (Taken cmdLaneStatusRead q s → exec (.laneStatusRead q) s = .next (answered cmdLaneStatusRead q s (let d := s.dev;
        let n := u16 q.payload 0
        let words := le 4 (laneStatus n d) ++ le 4 (laneEye n d) ++ le 4 (octStatus (octetOf n) d) ++ le 4 0
        { payload := words ++ ctrBytes (lane n d).ctrs 0x40 8 }) s.dev))
    ∧ (Taken cmdLaneTest q s → exec (.laneTest q) s = .next (doneAfter cmdLaneTest q s fun d =>
        let p := q.payload
        let n := u16 p 0
        let pat := u8 p 3
        let d := if pat = 0 then d else abortVisit (octetOf n) n d
        let d := if bitOf (u8 p 2) 1 then updLane n (fun l => { l with testTx := pat }) d else d
        if bitOf (u8 p 2) 0 then
          let l := lane n d
          let d := updLane n (fun l => { l with testRx := pat, testLock := false }) d
          if pat = 0 then (if l.rxState = 5 then laneStep1 n d else d)
          else if l.rxState = 3 then updLane n (fun l => { l with rxState := 5 }) d
          else if l.rxState = 4 then reporting n (clientLost n) (updLane n (fun l => { l with rxState := 5 }) d)
          else d
        else d))
    ∧ (Taken cmdLaneRestart q s → exec (.laneRestart q) s = .next (doneAfter cmdLaneRestart q s fun d =>
        let n := u16 q.payload 0
        let l := lane n d
        if !l.rxEn then d
        else
          let d := if l.rxState = 4 then reporting n (clientLost n) d else d
          laneStep1 n (updLane n (fun l => { l with restarts := 0 }) d)))

/-- Each command of family 0x03 (chapter 4), taken, answers a next state that is given whole: receivers, transmitters, multi-link groups, ancillary filters, the audio maps and channel status take the payload's values; a disable stops or drains; SDI_STATUS_READ returns the words and counters. What the statement does not name stands. Multi-link groups are an inference of log entry 28. -/
def Obligations.SdiCommands : Prop := ∀ (q : Req) (s : State),
    (Taken cmdSdiRxConfig q s → exec (.sdiRxConfig q) s = .next (doneAfter cmdSdiRxConfig q s fun d =>
        let p := q.payload
        let n := u16 p 0
        let old := rx n d
        let same := decide (old.state ≠ 0 ∧ old.cfgFormat = u8 p 2 ∧ old.cfgMapping = u8 p 3 ∧ old.cfgSampling = u8 p 4)
        let put (d : Dev) : Dev := updRx n (fun r => { r with
          en := true, cfgFormat := u8 p 2, cfgMapping := u8 p 3, cfgSampling := u8 p 4, crcLimit := u16 p 6 }) d
        if same then put d else reconfigured n old.state (put (sdiAbandon n d))))
    ∧ (Taken cmdSdiRxDisable q s → exec (.sdiRxDisable q) s = .next (disabled cmdSdiRxDisable q s (stopped cmdSdiRxDisable q s.dev [.sdiRx (u16 q.payload 4)])
      (fun d => d)))
    ∧ (Taken cmdSdiMultilink q s → exec (.sdiMultilink q) s = .next (disabled cmdSdiMultilink q s (stopped cmdSdiMultilink q s.dev (if u8 q.payload 2 = 0xFF then
    let g := mlink (u8 q.payload 0 + (if u8 q.payload 1 = 2 then 64 else 0)) s.dev
    (if g.used then g.lanes else [256]).map fun n => if u8 q.payload 1 = 2 then Func.sdiTx n else Func.sdiRx n
  else []))
      (cmdSdiMultilink.apply (argsOf q s))))
    ∧ (Taken cmdSdiAncFilter q s → exec (.sdiAncFilter q) s = .next (doneAfter cmdSdiAncFilter q s fun d =>
        let p := q.payload
        updRx (u16 p 0) (fun r => { r with filter := tset r.filter (u8 p 2) ⟨u8 p 3, u8 p 4, u8 p 5⟩ }) d))
    ∧ (Taken cmdSdiAudioDeembed q s → exec (.sdiAudioDeembed q) s = .next (doneAfter cmdSdiAudioDeembed q s fun d =>
        let p := q.payload
        let n := u16 p 0
        let pid := sdiProducer n (u8 p 2)
        let old := (List.range (u8 p 4)).map fun i => tget (rx n d).audio (u8 p 2 * 32 + u8 p 3 - 1 + i)
        let d := old.foldl (fun d c => if c = 0 then d else dropSource 1 pid (c - 1) d) d
        let d := if u16 p 6 = 0xFFFF then d else (List.range (u8 p 4)).foldl (fun d i => takeSource 1 pid (u16 p 6 + i) d) d
        updRx n (fun r => { r with audio := mapAudio r.audio (u8 p 2) (u8 p 3) (u8 p 4) (u16 p 6) }) d))
    ∧ (Taken cmdSdiTxConfig q s → exec (.sdiTxConfig q) s = .next (doneAfter cmdSdiTxConfig q s fun d =>
        let p := q.payload
        updTx (u16 p 0) (fun t => { t with
          en := true, cfgMapping := u8 p 2, cfgSampling := u8 p 3, claimIns := bitOf (u8 p 4) 0, st352 := bitOf (u8 p 4) 1,
          ancIns := bitOf (u8 p 4) 2, state := if t.state = 0 then 1 else t.state }) d))
    ∧ (Taken cmdSdiTxDisable q s → exec (.sdiTxDisable q) s = .next (disabled cmdSdiTxDisable q s (stopped cmdSdiTxDisable q s.dev [.sdiTx (u16 q.payload 4)])
      (fun d => d)))
    ∧ (Taken cmdSdiAudioEmbed q s → exec (.sdiAudioEmbed q) s = .next (doneAfter cmdSdiAudioEmbed q s fun d =>
        let p := q.payload
        updTx (u16 p 0) (fun t => { t with audio := mapAudio t.audio (u8 p 2) (u8 p 3) (u8 p 4) (u16 p 6) }) d))
    ∧ (Taken cmdSdiCsSet q s → exec (.sdiCsSet q) s = .next (doneAfter cmdSdiCsSet q s fun d =>
        let p := q.payload
        updTx (u16 p 0) (fun t => { t with
          cs := tupd t.cs (u8 p 2 * 16 + u8 p 3 - 1) fun b =>
            { b with next := some (decide (u8 p 4 = 1), (p.drop 8).take 23) } }) d))
    ∧ (Taken cmdSdiStatusRead q s → exec (.sdiStatusRead q) s = .next (answered cmdSdiStatusRead q s (let d := s.dev;
        let n := u16 q.payload 0
        let r := rx n d
        { payload := if u8 q.payload 2 = 1 then
              le 4 (sdiRxStatus n d) ++ le 4 r.pid.toNat ++ le 4 r.claim.toNat ++ le 4 r.claimFc.toNat ++ ctrBytes r.ctrs 0x40 16
            else le 4 (sdiTxStatus n d) ++ ctrBytes (tx n d).ctrs 0x40 5 }) s.dev))

/-- Each command of family 0x04 (chapter 5), taken, answers a next state that is given whole: ports, queues and filters take the payload's values, an enable begins alignment, a disable stops or drains, frames are queued and taken, and MAC_STATUS_READ returns words and counters. What the statement does not name stands. That MAC_QUEUE_CONFIG starts a stopped queue is log entry 37. -/
def Obligations.MacCommands : Prop := ∀ (q : Req) (s : State),
    (Taken cmdMacPortConfig q s → exec (.macPortConfig q) s = .next (doneAfter cmdMacPortConfig q s fun d =>
        let p := q.payload
        let n := u8 p 0
        let x := port n d
        let again := decide (x.fec ≠ u8 p 1 ∨ x.prioQ ≠ u32 p 20) && x.en
        let d := if again then portDown n false d else d
        updPort n (fun x => { x with
          fec := u8 p 1, fc := u8 p 2, allmulti := bitOf (u8 p 3) 0, promisc := bitOf (u8 p 3) 1, addr := (p.drop 4).take 6,
          pvid := u16 p 10, rxMtu := u16 p 12, ctrlMtu := u16 p 14, pauseTime := u16 p 16, prioQ := u32 p 20 }) d))
    ∧ (Taken cmdMacPortEnable q s → exec (.macPortEnable q) s = .next (doneAfter cmdMacPortEnable q s fun d =>
        enablePort (u8 q.payload 0) d))
    ∧ (Taken cmdMacPortDisable q s → exec (.macPortDisable q) s = .next (disabled cmdMacPortDisable q s (stopped cmdMacPortDisable q s.dev [.port (u8 q.payload 4)])
      (fun d => d)))
    ∧ (Taken cmdMacQueueConfig q s → exec (.macQueueConfig q) s = .next (doneAfter cmdMacQueueConfig q s fun d =>
        let p := q.payload
        let c : QueueCfg := ⟨u16 p 4, u16 p 6, bitOf (u8 p 3) 0, bitOf (u8 p 3) 1, u16 p 8, u16 p 10, u16 p 12, u8 p 14⟩
        flowControl (u8 p 0) (u8 p 2)
          (updQueue (u8 p 0) (u8 p 1) (u8 p 2) (fun x => { x with cfg := some c, stopped := false,
                                                                   above := x.above && c.fc }) d)))
    ∧ (Taken cmdMacQueueDisable q s → exec (.macQueueDisable q) s = .next (disabled cmdMacQueueDisable q s (stopped cmdMacQueueDisable q s.dev [.queue (u8 q.payload 4) (u8 q.payload 5) (u8 q.payload 6)])
      (fun d => d)))
    ∧ (Taken cmdMacFilter q s → exec (.macFilter q) s = .next (doneAfter cmdMacFilter q s fun d =>
        let p := q.payload
        updMac (u8 p 0) (fun m => { m with
          filter := tset m.filter (u8 p 1)
            { action := u8 p 2, queue := u8 p 3, ports := u8 p 4, pcp := u8 p 5, vid := u16 p 6, etherType := u16 p 8,
              ipProto := u8 p 10, daClass := u8 p 11, dport := u16 p 12 } }) d))
    ∧ (Taken cmdMacTxFrame q s → exec (.macTxFrame q) s = .next (doneAfter cmdMacTxFrame q s fun d =>
        let p := q.payload
        let n := u8 p 0
        let body := p.drop 8 ++ List.replicate (60 - u16 p 2) 0
        offer n (u8 p 1) { len := body.length + 4, bytes := body } d))
    ∧ (Taken cmdMacRxFrame q s → exec (.macRxFrame q) s = .next (answered cmdMacRxFrame q s (let d := s.dev;
        match (tget d.macs (u8 q.payload 0)).host with
        | f :: _ =>
          { payload := le 1 f.port ++ le 1 f.queue ++ le 2 f.vid ++ le 1 f.pcp ++ le 1 0 ++ le 2 f.frame.bytes.length ++ le 8 0
                         ++ f.frame.bytes }
        | [] => {})
      (let d := s.dev;
        updMac (u8 q.payload 0) (fun m => { m with host := m.host.drop 1 }) d)))
    ∧ (Taken cmdMacStatusRead q s → exec (.macStatusRead q) s = .next (answered cmdMacStatusRead q s (let d := s.dev;
        let n := u8 q.payload 0
        { payload := le 4 (portStatus n d) ++ le 4 (bufStatus (n / 8) d) ++ le 8 0 ++ ctrBytes (port n d).ctrs 0x100 22 }) s.dev))

/-- Each command of family 0x05 (chapter 6), taken, answers a next state that is given whole: flows and paths take the payload's values, enables and disables start and stop them, deletes free the flow, FLOW_REKEY begins a re-key, and FLOW_STATUS_READ returns words and counters. What the statement does not name stands. -/
def Obligations.FlowCommands : Prop := ∀ (q : Req) (s : State),
    (Taken cmdFlowPortIp q s → exec (.flowPortIp q) s = .next (doneAfter cmdFlowPortIp q s fun d =>
        let p := q.payload
        updPort (u8 p 0) (fun x => { x with ip := ipv4 p 4, plen := u8 p 2, igmp := u8 p 1, pace := u8 p 8 }) d))
    ∧ (Taken cmdFlowRxConfig q s → exec (.flowRxConfig q) s = .next (doneAfter cmdFlowRxConfig q s fun d =>
        let p := q.payload
        let n := u16 p 0
        let x := rxFlow n d
        let y := rxConfigured p x
        let d := updRxFlow n (rewindow x) (setBlocks n (blocksNeeded y) (flowSources n x y (updRxFlow n (rxConfigured p) d)))
        if y.type = 5 then
          let m := 192 + y.dest
          let r := rx m d
          let put (d : Dev) : Dev := updRx m (fun r => { r with cfgFormat := y.format, cfgMapping := y.sampling, cfgSampling := 0xFF }) d
          if y.en = false ∨ r.state = 0 ∨ (r.cfgFormat = y.format ∧ r.cfgMapping = y.sampling) then put d
          else reconfigured m r.state (put (sdiAbandon m d))
        else d))
    ∧ (Taken cmdFlowRxPath q s → exec (.flowRxPath q) s = .next (doneAfter cmdFlowRxPath q s fun d =>
        let p := q.payload
        let n := u16 p 0
        let leg := u8 p 2
        let o := if u8 p 3 = 0xFF then none else some (rxPathOf p)
        let own (e : TblEntry) : Bool := decide (e.flow = n ∧ e.leg = leg) && e.pending.isNone
        let stands := d.flows.tbl.active.any fun x => match x.2 with
          | some e => own e && decide (o = some e.path)
          | none => false
        if stands then setRxPath n leg o d
        else
          let d := changeTable (fun key t => removeEntries key t own) d
          let d := match o with
            | some q => rekeyIfFull (changeTable (fun key t => (placeEntry key t { path := q, flow := n, leg := leg }).getD t) d)
            | none => d
          setRxPath n leg o d))
    ∧ (Taken cmdFlowRxEnable q s → exec (.flowRxEnable q) s = .next (doneAfter cmdFlowRxEnable q s fun d =>
        let n := u16 q.payload 0
        let x := rxFlow n d
        if x.en then d
        else
          let d := updRxFlow n (fun x => { restartMerge x with
            en := true, frames := [], lastTs := none, lastMark := none, claims := [], closed := [], csBits := [], grams := [], nextGram := none }) d
          if x.type = 5 then
            updRx (192 + x.dest) (fun r => { r with en := true, wire := {}, cfgFormat := x.format, cfgMapping := x.sampling,
                                                    cfgSampling := 0xFF, state := if r.state = 0 then 1 else r.state }) d
          else d))
    ∧ (Taken cmdFlowRxDisable q s → exec (.flowRxDisable q) s = .next (disabled cmdFlowRxDisable q s (stopped cmdFlowRxDisable q s.dev [.rxFlow (u16 q.payload 4)])
      (fun d => d)))
    ∧ (Taken cmdFlowRxDelete q s → exec (.flowRxDelete q) s = .next (doneAfter cmdFlowRxDelete q s fun d =>
        let n := u16 q.payload 0
        let x := rxFlow n d
        let d := changeTable (fun key t => removeEntries key t fun e => decide (e.flow = n)) d
        let d := (flowChannels x).foldl (fun d c => dropSource 2 n c d) (setBlocks n 0 d)
        updRxFlow n (fun x => { ctrs := (restartMerge x).ctrs }) d))
    ∧ (Taken cmdFlowTxConfig q s → exec (.flowTxConfig q) s = .next (doneAfter cmdFlowTxConfig q s fun d =>
        let p := q.payload
        let n := u16 p 0
        let d := updTxFlow n (txConfigured p) d
        if u8 p 2 = 5 then updTx (192 + u16 p 12) (fun t => { t with cfgMapping := u8 p 5, claimIns := bitOf (u8 p 3) 1 }) d else d))
    ∧ (Taken cmdFlowTxPath q s → exec (.flowTxPath q) s = .next (doneAfter cmdFlowTxPath q s fun d =>
        let p := q.payload
        let q : TxPath := ⟨u8 p 3, ipv4 p 4, u16 p 8, u16 p 10, u8 p 12, (p.drop 14).take 6⟩
        updTxFlow (u16 p 0) (fun x => if u8 p 2 = 0 then { x with pathA := some q } else { x with pathB := some q }) d))
    ∧ (Taken cmdFlowTxEnable q s → exec (.flowTxEnable q) s = .next (doneAfter cmdFlowTxEnable q s fun d =>
        let n := u16 q.payload 0
        let x := txFlow n d
        if x.en then d
        else
          let base := if x.type = 2 ∨ x.type = 3 then (blockOf d.house : Rat) * (125 * us) else fieldReference n d
          let d := updTxFlow n (fun x => { x with en := true, seq := x.seqInit, late := 0, k := 0, base := base, load := [], taken := [], claimSent := false }) d
          if x.type = 5 then updTx (192 + x.source) (fun t => { t with en := true, cfgMapping := x.sampling,
                                                                        state := if t.state = 0 then 1 else t.state }) d
          else d))
    ∧ (Taken cmdFlowTxDisable q s → exec (.flowTxDisable q) s = .next (disabled cmdFlowTxDisable q s (stopped cmdFlowTxDisable q s.dev [.txFlow (u16 q.payload 4)])
      (fun d => d)))
    ∧ (Taken cmdFlowRekey q s → exec (.flowRekey q) s = .next (answered cmdFlowRekey q s (let d := s.dev;
        { payload := le 4 d.flows.tbl.epoch.toNat })
      (let d := s.dev;
        let v := u8 q.payload 0
        startRekey (if v = 0 then d else { d with flows.tbl.stashTh := v }))))
    ∧ (Taken cmdFlowStatusRead q s → exec (.flowStatusRead q) s = .next (answered cmdFlowStatusRead q s (let d := s.dev;
        let n := u16 q.payload 2
        let words := match u8 q.payload 0 with
          | 1 =>
            let x := rxFlow n d
            le 4 (flowRxStatus n d) ++ le 4 x.claimA.toNat ++ le 4 x.claimB.toNat ++ le 4 0 ++ le 8 x.seenA ++ le 8 x.seenB
              ++ ctrBytes x.ctrs 0x40 22
          | 2 =>
            let x := txFlow n d
            le 4 (flowTxStatus n d) ++ le 4 (min x.late (2 ^ 32 - 1)) ++ ctrBytes x.ctrs 0x40 6
          | _ =>
            let b := d.flows.tbl
            le 4 (flowTblStatus d) ++ le 4 (entryCount b.active) ++ le 4 b.epoch.toNat ++ le 4 d.flows.free ++ ctrBytes b.ctrs 0 6
        { payload := words }) s.dev))

/-- Each command of family 0x06 (chapter 7), taken, answers a next state that is given whole: rings, error limits, scrub, holidays and the window take the payload's values, a retirement begins, and the reads return layouts, loads, words and counters. What the statement does not name stands. -/
def Obligations.MemcCommands : Prop := ∀ (q : Req) (s : State),
    (Taken cmdMemcRingConfig q s → exec (.memcRingConfig q) s = .next (doneAfter cmdMemcRingConfig q s fun d =>
        setRing q.payload d))
    ∧ (Taken cmdMemcRingRead q s → exec (.memcRingRead q) s = .next (answered cmdMemcRingRead q s (let d := s.dev;
        let r := u16 q.payload 0
        let x := stream r d
        { payload := le 2 r ++ le 1 x.n ++ le 1 x.format ++ le 1 x.sampling ++ le 1 x.lay.depth
            ++ le 1 (2 * b2n (x.old.isSome || needsMove r x d) + 4 * b2n (isPart x)) ++ le 1 x.lay.anc ++ le 4 x.lay.g
            ++ le 2 (layoutQ x.lay) ++ le 2 (heldExtents x).length ++ le 4 x.lay.epoch ++ le 4 0 ++ le 8 x.overflow.toNat }) s.dev))
    ∧ (Taken cmdMemcAdmitReport q s → exec (.memcAdmitReport q) s = .next (answered cmdMemcAdmitReport q s (let d := s.dev;
        { payload := admitReport (u8 q.payload 0) (reportedConfig q.payload d) }) s.dev))
    ∧ (Taken cmdMemcPcRetire q s → exec (.memcPcRetire q) s = .next (answered cmdMemcPcRetire q s ({ status := 1 })
      (let d := s.dev;
        startRetire [u8 q.payload 0] false q.mbx q.tag d)))
    ∧ (Taken cmdMemcErrorConfig q s → exec (.memcErrorConfig q) s = .next (doneAfter cmdMemcErrorConfig q s fun d =>
        let p := q.payload
        { d with
          memc.autoRetire := decide (u8 p 0 = 1), memc.ueTh := u8 p 1, memc.ceExp := u8 p 2, memc.migPar := u8 p 3 }))
    ∧ (Taken cmdMemcScrubConfig q s → exec (.memcScrubConfig q) s = .next (doneAfter cmdMemcScrubConfig q s fun d =>
        { d with memc.scrubEn := decide (u8 q.payload 0 = 1), memc.periodH := u8 q.payload 1 }))
    ∧ (Taken cmdMemcHolidayConfig q s → exec (.memcHolidayConfig q) s = .next (doneAfter cmdMemcHolidayConfig q s fun d =>
        { d with memc.retrainMs := u16 q.payload 0, memc.tempStep := u8 q.payload 2 }))
    ∧ (Taken cmdMemcStatusRead q s → exec (.memcStatusRead q) s = .next (answered cmdMemcStatusRead q s (let d := s.dev;
        let k := u8 q.payload 0
        { payload := le 4 (memcStatusWord d) ++ le 4 (pcStatusWord k d) ++ le 4 (pcLoadWord k d) ++ le 4 0
            ++ ctrBytes (pc k d).ctrs 0x40 12 }) s.dev))
    ∧ (Taken cmdMemcWindow q s → exec (.memcWindow q) s = .next (doneAfter cmdMemcWindow q s fun d =>
        { d with memc.winEn := decide (u8 q.payload 0 = 1), memc.winPc := u8 q.payload 1 }))

/-- Each command of family 0x07 (chapter 8), taken, answers a next state that is given whole: ingress and egress bindings, timing groups, alignment groups and takes take the payload's values at their points, and ROUTE_STATUS_READ returns the slot's words. What the statement does not name stands. -/
def Obligations.RouteCommands : Prop := ∀ (q : Req) (s : State),
    (Taken cmdRouteIngressBind q s → exec (.routeIngressBind q) s = .next (doneAfter cmdRouteIngressBind q s fun d =>
        bindIngress q.payload d))
    ∧ (Taken cmdRouteIngressUnbind q s → exec (.routeIngressUnbind q) s = .next (disabled cmdRouteIngressUnbind q s (stopped cmdRouteIngressUnbind q s.dev [.ingress (u16 q.payload 4)])
      (fun d => d)))
    ∧ (Taken cmdRouteTgConfig q s → exec (.routeTgConfig q) s = .next (doneAfter cmdRouteTgConfig q s fun d =>
        let p := q.payload
        { d with
          fab.tgs := tset d.fab.tgs (u8 p 0)
            (let g := timGroup (u8 p 0) d
             let y := tgFromPayload p g
             if tgChanges p d then { y with plannedK := 0, confK := 0, bK := if definedFormat y.format then tgIndex y d.house else 0 } else y) }))
    ∧ (Taken cmdRouteEgressBind q s → exec (.routeEgressBind q) s = .next (doneAfter cmdRouteEgressBind q s fun d =>
        let p := q.payload
        let g := timGroup (u8 p 2) d
        match consumerUnits (u8 p 4) (u16 p 6) g.format (u8 p 3) d with
        | some n => updRaster (u16 p 0) (fun x => { x with
            n := n, tg := u8 p 2, sampling := u8 p 3, kind := u8 p 4, id := u16 p 6, bg := if x.bgSet then x.bg else blackOf (u8 p 3), frame := g.bK,
            startAt := tgTime g (tgNext g (d.house + 200 * us)), halted := false }) d
        | none => d))
    ∧ (Taken cmdRouteEgressUnbind q s → exec (.routeEgressUnbind q) s = .next (disabled cmdRouteEgressUnbind q s (stopped cmdRouteEgressUnbind q s.dev [.raster (u16 q.payload 4)])
      (fun d => d)))
    ∧ (Taken cmdRouteAlignGroup q s → exec (.routeAlignGroup q) s = .next (doneAfter cmdRouteAlignGroup q s fun d =>
        let p := q.payload
        { d with
          fab.ags := tupd d.fab.ags (u16 p 0) fun g =>
            if u8 p 2 = 0 then { g with state := 0, members := [] } else { g with state := 1, members := alignMembers p } }))
    ∧ (Taken cmdRouteTake q s → exec (.routeTake q) s = .next (answered cmdRouteTake q s (let d := s.dev;
        let e := u16 q.payload 0; { payload := le 12 (t96 (tgTime (timGroup (raster e d).tg d) (takeFrame e d))) ++ le 6 0 })
      (let d := s.dev;
        let e := u16 q.payload 0
        let t := routeOf q.payload
        addTake e ⟨t, takeFrame e d, false⟩ d)))
    ∧ (Taken cmdRouteStatusRead q s → exec (.routeStatusRead q) s = .next (answered cmdRouteStatusRead q s (let d := s.dev;
        { payload := routeStatus (u8 q.payload 0) (u16 q.payload 2) d }) s.dev))

/-- Each command of the conversion half of family 0x08 (chapter 9), taken, answers a next state that is given whole: engines, substitution, spares and tables take the payload's values at the next picture, a disable stops or drains, and CNV_STATUS_READ returns words and counters. What the statement does not name stands. -/
def Obligations.ConverterCommands : Prop := ∀ (q : Req) (s : State),
    (Taken cmdCnvConfig q s → exec (.cnvConfig q) s = .next (doneAfter cmdCnvConfig q s fun d =>
        setConversion q.payload d))
    ∧ (Taken cmdCnvEnable q s → exec (.cnvEnable q) s = .next (doneAfter cmdCnvEnable q s fun d =>
        updEngine (u8 q.payload 0) (fun x =>
          if x.en then x else { x with
            en := true, lastJ := none, lastQ := 0, selA := none, selB := none, startA := none, resume := none,
            cur := {}, lastOut := [] }) d))
    ∧ (Taken cmdCnvDisable q s → exec (.cnvDisable q) s = .next (disabled cmdCnvDisable q s (stopped cmdCnvDisable q s.dev [.engine (u8 q.payload 4)])
      (fun d => d)))
    ∧ (Taken cmdCnvSubstitute q s → exec (.cnvSubstitute q) s = .next (answered cmdCnvSubstitute q s (let d := s.dev;
        let e := u8 q.payload 0; { payload := le 12 (t96 (tgTime (timGroup (cvTg (engine e d).conf) d) (substFrame e d))) })
      (let d := s.dev;
        startSubstitution (u8 q.payload 0) (u8 q.payload 1) d)))
    ∧ (Taken cmdCnvSpareAuto q s → exec (.cnvSpareAuto q) s = .next (doneAfter cmdCnvSpareAuto q s fun d =>
        { d with cnv.spareAuto := decide (u8 q.payload 0 = 1) }))
    ∧ (Taken cmdCnvCoefLoad q s → exec (.cnvCoefLoad q) s = .next (doneAfter cmdCnvCoefLoad q s fun d =>
        { d with cnv.banks := tset d.cnv.banks (u8 q.payload 0) (stagingRead s.hbm d (u32 q.payload 4) 4096) }))
    ∧ (Taken cmdCnvLutLoad q s → exec (.cnvLutLoad q) s = .next (doneAfter cmdCnvLutLoad q s fun d =>
        { d with cnv.luts := tset d.cnv.luts (u8 q.payload 0) (stagingRead s.hbm d (u32 q.payload 4) 23048) }))
    ∧ (Taken cmdCnvStatusRead q s → exec (.cnvStatusRead q) s = .next (answered cmdCnvStatusRead q s (let d := s.dev;
        let e := u8 q.payload 0
        let x := engine e d
        { payload := le 4 (cnvStatusWord e d) ++ le 4 (cnvSelWord e d) ++ le 4 x.tdelay ++ le 4 (cnvTokensWord e d)
            ++ le 8 (selNum x.selA) ++ le 8 (selNum x.selB) ++ ctrBytes x.ctrs 0x40 8 }) s.dev))

/-- Each command of the output half of family 0x08 (chapter 9), taken, answers a next state that is given whole: rasters, glyphs, markers and palettes take the payload's values at the next frame, and OUT_STATUS_READ returns words and counters. What the statement does not name stands. -/
def Obligations.OutputCommands : Prop := ∀ (q : Req) (s : State),
    (Taken cmdOutRasterConfig q s → exec (.outRasterConfig q) s = .next (doneAfter cmdOutRasterConfig q s fun d =>
        let p := q.payload
        updRaster (u16 p 0) (fun x => { x with keyout := decide (u8 p 2 = 1), bg := BitVec.ofNat 48 (un 6 p 4), bgSet := true }) d))
    ∧ (Taken cmdOutGlyphLoad q s → exec (.outGlyphLoad q) s = .next (doneAfter cmdOutGlyphLoad q s fun d =>
        loadGlyph (u16 q.payload 0) (q.payload.drop 4) d))
    ∧ (Taken cmdOutMarker q s → exec (.outMarker q) s = .next (doneAfter cmdOutMarker q s fun d =>
        let p := q.payload
        let m : Marker := { en := decide (u8 p 3 = 1), x := u16 p 4, y := u16 p 6, glyph := u16 p 8,
                            scale := if u8 p 10 = 4 then 2 else if u8 p 10 = 2 then 1 else 0, on := u8 p 11, off := u8 p 12 }
        updRaster (u16 p 0) (fun x => { x with markers := tset x.markers (u8 p 2) m }) d))
    ∧ (Taken cmdOutPalette q s → exec (.outPalette q) s = .next (doneAfter cmdOutPalette q s fun d =>
        let p := q.payload
        updRaster (u16 p 0) (fun x => { x with
          palette := (List.range (u8 p 3)).foldl (fun t i => tset t (u8 p 2 + i) (u64 p (4 + 8 * i))) x.palette }) d))
    ∧ (Taken cmdOutStatusRead q s → exec (.outStatusRead q) s = .next (answered cmdOutStatusRead q s (let d := s.dev;
        let e := u16 q.payload 0
        let x := raster e d
        { payload := le 4 (outCfgWord e d) ++ le 4 (outTolWord e d) ++ le 8 x.bg.toNat ++ le 8 x.frame
            ++ ((List.range 4).flatMap fun m => le 4 (markerPosWord (tget x.markers m)) ++ le 4 (markerCfgWord (tget x.markers m)))
            ++ ((List.range 16).flatMap fun i => le 8 (tget x.palette i)) ++ ctrBytes x.outCtrs 0x40 3 }) s.dev))

/-- Each command of family 0x09 (chapter 10), taken, answers a next state that is given whole: rates, depths, matrix cells, destinations and ports take the payload's values at the next block, a disable stops or drains, and the reads return cells, channel status, words and counters. What the statement does not name stands. -/
def Obligations.AudioCommands : Prop := ∀ (q : Req) (s : State),
    (Taken cmdAudConfig q s → exec (.audConfig q) s = .next (doneAfter cmdAudConfig q s fun d =>
        let p := q.payload
        let rate := decide (u8 p 0 = 1)
        let d := { d with aud.rampNext := some (nextBlock (d.house + 200 * us) - 1, u16 p 2) }
        if rate = d.aud.rate96 then d
        else
          let d := d.aud.ports.foldl (fun d e =>
            let k := e.1 / 256
            if k = 5 then d else updPort' k (e.1 % 256) (fun x => { x with base := 0xFFFF }) (stopAudioPort k (e.1 % 256) d)) d
          let d := { d with
            sdiRx := tmap d.sdiRx fun _ r => { r with audio := [] },
            sdiTx := tmap d.sdiTx fun _ t => { t with audio := [] },
            aud.rate96 := rate, aud.free := 262144, aud.asrcFree := 256, aud.changes := [],
            aud.srcs := tmap d.aud.srcs fun _ x => { ctrs := x.ctrs, blocks := x.blocks, cs := x.cs, csAt := x.csAt },
            aud.dsts := tmap d.aud.dsts fun _ x => { x with cells := [], ramps := [], splice := none, queued := none, now := [], out := [] } }
          (tfind d.flows.rx fun x => decide (x.type = 2 ∨ x.type = 3)).foldl (fun d n =>
            (flowChannels (rxFlow n d)).foldl (fun d c => if c < srcCount d then takeSource 2 n c d else d) d) d))
    ∧ (Taken cmdAudDepth q s → exec (.audDepth q) s = .next (doneAfter cmdAudDepth q s fun d =>
        setHolds (u16 q.payload 0) (u16 q.payload 2) (u32 q.payload 4) d))
    ∧ (Taken cmdAudCells q s → exec (.audCells q) s = .next (answered cmdAudCells q s (let d := s.dev;
        { payload := le 12 (t96 ((cellBlock d : Rat) * (125 * us))) })
      (atPoint cmdAudCells q s fun d =>
        { d with aud.changes := addChanges d.aud.block (cellWrites q.payload) d.aud.changes })))
    ∧ (Taken cmdAudCellsRead q s → exec (.audCellsRead q) s = .next (answered cmdAudCellsRead q s (let d := s.dev;
        let x := audDst (u16 q.payload 0) d
        { payload := (List.range 64).flatMap fun k => le 4 (tget x.cells k) }) s.dev))
    ∧ (Taken cmdAudDestEnable q s → exec (.audDestEnable q) s = .next (doneAfter cmdAudDestEnable q s fun d =>
        setDests (u16 q.payload 0) (u16 q.payload 2) true d))
    ∧ (Taken cmdAudDestDisable q s → exec (.audDestDisable q) s = .next (disabled cmdAudDestDisable q s (stopped cmdAudDestDisable q s.dev ((List.range (u16 q.payload 6)).map fun i => .dests (u16 q.payload 4 + i) 1))
      (fun d => d)))
    ∧ (Taken cmdAprtAesIn q s → exec (.aprtAesIn q) s = .next (doneAfter cmdAprtAesIn q s fun d =>
        setAesIn q.payload d))
    ∧ (Taken cmdAprtAesOut q s → exec (.aprtAesOut q) s = .next (doneAfter cmdAprtAesOut q s fun d =>
        let p := q.payload
        if u16 p 2 = 0xFFFF then updPort' 2 (u8 p 0) (fun x => { x with set := true, base := 0xFFFF }) (stopAudioPort 2 (u8 p 0) d)
        else updPort' 2 (u8 p 0) (fun x => { x with set := true, base := u16 p 2, state := 1 }) d))
    ∧ (Taken cmdAprtTdm q s → exec (.aprtTdm q) s = .next (doneAfter cmdAprtTdm q s fun d =>
        setTdm q.payload d))
    ∧ (Taken cmdAprtWclk q s → exec (.aprtWclk q) s = .next (doneAfter cmdAprtWclk q s fun d =>
        updPort' 5 0 (fun x => { x with set := true, state := u8 q.payload 0 }) d))
    ∧ (Taken cmdAprtDisable q s → exec (.aprtDisable q) s = .next (disabled cmdAprtDisable q s (stopped cmdAprtDisable q s.dev [.audioPort (u8 q.payload 4) (u8 q.payload 5)])
      (fun d => d)))
    ∧ (Taken cmdAudCsRead q s → exec (.audCsRead q) s = .next (answered cmdAudCsRead q s (let d := s.dev;
        let x := audSrc (u16 q.payload 0) d
        { payload := (if x.cs = [] then le 24 0 else x.cs) ++ le 12 (t96 x.csAt) }) s.dev))
    ∧ (Taken cmdAprtCsSet q s → exec (.aprtCsSet q) s = .next (doneAfter cmdAprtCsSet q s fun d =>
        let p := q.payload
        updPort' 2 (u8 p 0) (fun x => { x with csNext := some (decide (u8 p 1 = 1), (p.drop 4).take 23) }) d))
    ∧ (Taken cmdAudStatusRead q s → exec (.audStatusRead q) s = .next (answered cmdAudStatusRead q s (let d := s.dev;
        { payload := audStatus (u8 q.payload 0) (u16 q.payload 2) d }) s.dev))

/-- Each command of family 0x0F (chapter 11), taken, answers a next state that is given whole: REG_READ, REG_WRITE and REG_RMW do their accesses through master M0, REG_SNAPSHOT leaves its mailbox BUSY until its instant, the event mask and crossbar settings take the payload's values, and the debug exchange follows R415 to R418. What the statement does not name stands. -/
def Obligations.ControlCommands : Prop := ∀ (q : Req) (s : State),
    (Taken cmdMbxNop q s → exec (.mbxNop q) s = .next (answered cmdMbxNop q s (let d := s.dev;
        { payload := le 4 d.host.version.toNat ++ le 8 d.host.restarts.toNat ++ le 2 (256 - d.host.evt.owed) ++ le 2 0 }) s.dev))
    ∧ (Taken cmdRegRead q s → exec (.regRead q) s = .next (answered cmdRegRead q s (let d := s.dev;
        let r := (readRun (argsOf q s) d).1
        let words := r.flatMap fun x => le 4 x.2
        match firstBad r with
        | some i => { status := 0x0010, detail := i, payload := words }
        | none => { payload := words })
      (let d := s.dev;
        (readRun (argsOf q s) d).2)))
    ∧ (Taken cmdRegWrite q s → exec (.regWrite q) s = .next (answered cmdRegWrite q s (let d := s.dev;
        match firstBad (beats 0 true s.hbm (writeRun (argsOf q s) d) d).1 with
          | some i => { status := 0x0010, detail := i }
          | none => {})
      (let d := s.dev;
        (beats 0 true s.hbm (writeRun (argsOf q s) d) d).2)
      (let d := s.dev;
        beatsStore 0 true s.hbm (writeRun (argsOf q s) d) d)))
    ∧ (Taken cmdRegRmw q s → exec (.regRmw q) s = .next (answered cmdRegRmw q s (let d := s.dev;
        let r := beat 0 false (u32 q.payload 0) 0 s.hbm d
        if r.1.1 = 3 then { status := 0x0010 }
        else if rmwBroken (argsOf q s) d then { status := 0x0015 }
        else { payload := le 4 r.1.2 })
      (let d := s.dev;
        let x := u32 q.payload 0
        let broken := rmwBroken (argsOf q s) d
        let r := beat 0 false x 0 s.hbm d
        if r.1.1 = 3 then r.2
        else if broken then useFree (report 0x032 true (accessCode 0 true) x (masterBump 0 xLOCK_BREAK 1 r.2))
        else (beat 0 true x (rmwWord r.1.2 (u32 q.payload 4) (u32 q.payload 8)) s.hbm r.2).2)
      (let d := s.dev;
        let x := u32 q.payload 0
        let r := beat 0 false x 0 s.hbm d
        if r.1.1 = 3 ∨ rmwBroken (argsOf q s) d = true then [] else beatStore 0 true x (rmwWord r.1.2 (u32 q.payload 4) (u32 q.payload 8)) r.2)))
    ∧ (Taken cmdRegSnapshot q s → exec (.regSnapshot q) s = .next (withDev s (
        updMbx q.mbx (fun m => { m with state := 1, tag := q.tag, accepted := true })
          { s.dev with
            host.snaps := (s.dev.host.snaps ++ [(⟨q.mbx, q.tag, snapTime s.dev, snapAddrs q.payload, 0, none⟩ : Snapshot)]).map fun x => if x.mbx = q.mbx then { x with flags := 0 } else x,
            host.asks := (s.dev.host.asks).map fun x => if x.mbx = q.mbx then { x with flags := 0 } else x,
            host.rung := s.dev.host.rung.erase q.mbx })))
    ∧ (Taken cmdXbrStatusRead q s → exec (.xbrStatusRead q) s = .next (answered cmdXbrStatusRead q s (let d := s.dev;
        let m := u8 q.payload 0
        { payload := le 4 (mqosWord m d) ++ le 4 0 ++ ctrBytes (tget d.host.masters m).ctrs 0 5 }) s.dev))
    ∧ (Taken cmdXbrQos q s → exec (.xbrQos q) s = .next (doneAfter cmdXbrQos q s fun d =>
        { d with host.masters := tupd d.host.masters (u8 q.payload 0) fun x => { x with weight := u8 q.payload 1 } }))
    ∧ (Taken cmdMbxEventConfig q s → exec (.mbxEventConfig q) s = .next (doneAfter cmdMbxEventConfig q s fun d =>
        { d with host.evt.enabled := BitVec.ofNat 16 (u16 q.payload 0) }))
    ∧ (Taken cmdDbgChallenge q s → exec (.dbgChallenge q) s = .next (answered cmdDbgChallenge q s (let d := s.dev;
        { payload := le 32 (Config.entropy d.free).toNat ++ le 16 Config.uniqueNumber.toNat })
      (let d := s.dev;
        useFree { d with host.challenge := some (Config.entropy d.free, d.up) })))
    ∧ (Taken cmdDbgUnlock q s → exec (.dbgUnlock q) s = .next (answered cmdDbgUnlock q s (let d := s.dev;
        if unlocks (argsOf q s) d then {} else { status := 0x0013 })
      (let d := s.dev;
        if unlocks (argsOf q s) d then { d with host.challenge := none, host.debug := true, host.unlockedAt := d.up }
        else { d with host.challenge := none, host.rejected := d.host.rejected + 1,
                      host.lockout := d.host.lockout || decide (3 ≤ d.host.rejected + 1) })))
    ∧ (Taken cmdDbgLock q s → exec (.dbgLock q) s = .next (doneAfter cmdDbgLock q s fun d =>
        { d with host.debug := false }))

/-- Each command of family 0x0B (chapter 12), taken, answers a next state that is given whole: banks open, seal, check, truncate, empty and are read; schedules, images, seasons and salvos stand as the payload says; checks and images answer with their verdicts. What the statement does not name stands. -/
def Obligations.ConfigurationCommands : Prop := ∀ (q : Req) (s : State),
    (Taken cmdCfgBankOpen q s → exec (.cfgBankOpen q) s = .next (doneAfter cmdCfgBankOpen q s fun d =>
        updBank (u8 q.payload 0) (fun _ => { state := 1 }) d))
    ∧ (Taken cmdCfgBankSeal q s → exec (.cfgBankSeal q) s = .next (answered cmdCfgBankSeal q s ({ status := 1 })
      (let d := s.dev;
        startCheck true (argsOf q s) d)))
    ∧ (Taken cmdCfgBankCheck q s → exec (.cfgBankCheck q) s = .next (answered cmdCfgBankCheck q s ({ status := 1 })
      (let d := s.dev;
        startCheck false (argsOf q s) d)))
    ∧ (Taken cmdCfgBankTruncate q s → exec (.cfgBankTruncate q) s = .next (doneAfter cmdCfgBankTruncate q s fun d =>
        updBank (u8 q.payload 0) (fun x => { x with changes := x.changes.take (u32 q.payload 4) }) d))
    ∧ (Taken cmdCfgBankAbandon q s → exec (.cfgBankAbandon q) s = .next (doneAfter cmdCfgBankAbandon q s fun d =>
        abandonBank (u8 q.payload 0) d))
    ∧ (Taken cmdCfgBankRead q s → exec (.cfgBankRead q) s = .next (answered cmdCfgBankRead q s (let d := s.dev;
        let l := fitRecords 4076 ((bank (u8 q.payload 0) d).changes.drop (u32 q.payload 4))
        { payload := le 4 l.length ++ l.flatten }) s.dev))
    ∧ (Taken cmdCfgSchedule q s → exec (.cfgSchedule q) s = .next (answered cmdCfgSchedule q s (let d := s.dev;
        (schedule q.payload d).1)
      (let d := s.dev;
        (schedule q.payload d).2)))
    ∧ (Taken cmdCfgCancel q s → exec (.cfgCancel q) s = .next (doneAfter cmdCfgCancel q s fun d =>
        cancelEntry (u8 q.payload 0) d))
    ∧ (Taken cmdCfgImageLoad q s → exec (.cfgImageLoad q) s = .next (answered cmdCfgImageLoad q s ({ status := 1 })
      (let d := s.dev;
        let img := imageAt (argsOf q s) d
        let l := imageChanges img d
        complete q.mbx q.tag 0x0B09 0 0xFFFFFFFF
          (updBank (u8 q.payload 0) (fun _ => { state := 1, changes := l, season := some (u8 img 25), image := some (imageBase img) })
            (loadStores img (useFree d))))))
    ∧ (Taken cmdCfgImageSave q s → exec (.cfgImageSave q) s = .next (answered cmdCfgImageSave q s (let d := s.dev;
        { payload := le 4 (u32 q.payload 0) ++ le 4 (savedImage d).length })
      (let d := s.dev;
        useFree (useFree (cleanWords (u32 q.payload 0) (savedImage d).length d)))
      (let d := s.dev;
        stagingWrites (u32 q.payload 0) (savedImage d) d)))
    ∧ (Taken cmdCfgSeasonStore q s → exec (.cfgSeasonStore q) s = .next (doneAfter cmdCfgSeasonStore q s fun d =>
        { d with cfg.seasons := tset d.cfg.seasons (u8 q.payload 0) (seasonOf (bodyAt (argsOf q s) d)).2.1 }))
    ∧ (Taken cmdCfgSeasonSwitch q s → exec (.cfgSeasonSwitch q) s = .next (answered cmdCfgSeasonSwitch q s (let d := s.dev;
        { payload := le 4 (seasonSwitch (u8 q.payload 0) d).length })
      (let d := s.dev;
        updBank (u8 q.payload 1)
          (fun _ => { state := 1, changes := seasonSwitch (u8 q.payload 0) d, season := some (u8 q.payload 0) }) d)))
    ∧ (Taken cmdCfgSalvoStore q s → exec (.cfgSalvoStore q) s = .next (doneAfter cmdCfgSalvoStore q s fun d =>
        { d with cfg.salvos := tset d.cfg.salvos (u8 q.payload 0) (salvoOf (bodyAt (argsOf q s) d)).2 }))
    ∧ (Taken cmdCfgSalvoFire q s → exec (.cfgSalvoFire q) s = .next (answered cmdCfgSalvoFire q s (let d := s.dev;
        (fireSalvo q.payload d).1)
      (let d := s.dev;
        (fireSalvo q.payload d).2)))
    ∧ (Taken cmdCfgStatusRead q s → exec (.cfgStatusRead q) s = .next (answered cmdCfgStatusRead q s (let d := s.dev;
        { payload := le 4 (cfgStatusWord d) ++ le 4 d.cfg.epoch.toNat
            ++ (List.range 4).flatMap (fun b => (bankWords b d).flatMap (le 4))
            ++ (lastWords d).flatMap (le 4) ++ le 4 0 ++ ctrBytes d.cfg.ctrs 0 5 }) s.dev))

/-- Each command of family 0x0C (chapter 13), taken, answers a next state that is given whole: pair numbers, pairing, unpairing, handover and the epoch take their effect and the reads return the status and health words. What the statement does not name stands. -/
def Obligations.TwinCommands : Prop := ∀ (q : Req) (s : State),
    (Taken cmdTwnConfig q s → exec (.twnConfig q) s = .next (doneAfter cmdTwnConfig q s fun d =>
        let p := q.payload
        vigil (noteClaim { d with
          twn.unit := u8 p 0, twn.ackPins := u8 p 1, twn.hb := u8 p 2, twn.soloClaim := decide (u8 p 3 = 1), twn.timeTol := u16 p 4,
          twn.mismatch := u8 p 6, twn.settle := u8 p 7, twn.asym := i32 p 8 })))
    ∧ (Taken cmdTwnPair q s → exec (.twnPair q) s = .next (answered cmdTwnPair q s ({ status := 1 })
      (let d := s.dev;
        let d := { d with twn.pair := 1, twn.step := 0, twn.pairCmd := some (q.mbx, q.tag) }
        let d := sendTwin (.hello (helloOf d)) d
        match partnerAsks d with
        | some m => beginPairing m d
        | none => d)))
    ∧ (Taken cmdTwnUnpair q s → exec (.twnUnpair q) s = .next (disabled cmdTwnUnpair q s (stopped cmdTwnUnpair q (cmdDevRemove.ahead (argsOf q s) s.dev) [.service])
      (fun d => d)))
    ∧ (Taken cmdTwnHandover q s → exec (.twnHandover q) s = .next (answered cmdTwnHandover q s ({ status := 1 })
      (let d := s.dev;
        let t := ofT96 (un 12 q.payload 0)
        sendTwin (.handover t (d.twn.e + 1)) { d with twn.plan := some ⟨t, d.twn.e + 1, some (q.mbx, q.tag)⟩ })))
    ∧ (Taken cmdTwnStatusRead q s → exec (.twnStatusRead q) s = .next (answered cmdTwnStatusRead q s (let d := s.dev;
        { payload := (twnWords d).flatMap (le 4) ++ ctrBytes d.twn.ctrs 0 14 }) s.dev))
    ∧ (Taken cmdTwnHealthRead q s → exec (.twnHealthRead q) s = .next (answered cmdTwnHealthRead q s (let d := s.dev;
        let bad := d.twn.badRasters.mergeSort fun x y => decide (x ≤ y)
        { payload := le 4 (twnVigilWord d) ++ le 4 (b2n d.twn.fit) ++ le 12 (t96 d.twn.fitAt)
            ++ (List.range 16).flatMap fun i => le 2 (bad.getD i 0xFFFF) }) s.dev))
    ∧ (Taken cmdTwnEpochSet q s → exec (.twnEpochSet q) s = .next (doneAfter cmdTwnEpochSet q s fun d =>
        { d with twn.e := u16 q.payload 0, twn.eMax := u16 q.payload 0, twn.exhausted := false }))

/-- Each command of family 0x0D (chapter 14), taken, answers a next state that is given whole: the fault record is read and cleared, severities and injections are set, windows, audits, block and device resets and monitor thresholds are as the payload says. What the statement does not name stands. -/
def Obligations.FaultCommands : Prop := ∀ (q : Req) (s : State),
    (Taken cmdFltStatusRead q s → exec (.fltStatusRead q) s = .next (answered cmdFltStatusRead q s (let d := s.dev;
        { payload := le 4 (fltStatusWord d) ++ le 4 0 ++ le 8 d.flt.overflow.toNat ++ fltFirstBytes d ++ fltPriorBytes d }) s.dev))
    ∧ (Taken cmdFltClear q s → exec (.fltClear q) s = .next (doneAfter cmdFltClear q s fun d =>
        let d := { d with flt.valid := false, flt.overflow := 0, flt.contained := false }
        if d.mode = DEGRADED then vigil (noteClaim (setMode (roleMode d) d)) else d))
    ∧ (Taken cmdFltSeverity q s → exec (.fltSeverity q) s = .next (doneAfter cmdFltSeverity q s fun d =>
        (List.range (u16 q.payload 2)).foldl (fun d i =>
          let v := u8 q.payload (4 + i)
          updSource (u16 q.payload 0 + i) (fun x => { x with sevMajor := some (bits v 6 4), sevMinor := bits v 2 0 }) d) d))
    ∧ (Taken cmdFltSourceRead q s → exec (.fltSourceRead q) s = .next (answered cmdFltSourceRead q s (let d := s.dev;
        { payload := le 4 (fltSevWord (u16 q.payload 0) d) ++ le 4 0 ++ ctrBytes (tget d.flt.sources (u16 q.payload 0)).ctrs 0 4 }) s.dev))
    ∧ (Taken cmdFltInject q s → exec (.fltInject q) s = .next (answered cmdFltInject q s (let d := s.dev;
        { payload := le 12 (t96 d.house) ++ le 4 0 })
      (let d := s.dev;
        let p := q.payload
        updSource (u16 p 0) (fun x => { x with
          inj := some { mode := u8 p 2, major := decide (u8 p 3 = 1), mask := BitVec.ofNat 32 (u32 p 4), count := u16 p 8,
                        react := decide (u8 p 10 = 1), inst := u32 p 12 } }) d)))
    ∧ (Taken cmdFltWindow q s → exec (.fltWindow q) s = .next (doneAfter cmdFltWindow q s fun d =>
        { d with flt.winFrames := tset d.flt.winFrames (u8 q.payload 0) (some (u8 q.payload 1)) }))
    ∧ (Taken cmdFltAudit q s → exec (.fltAudit q) s = .next (withDev s (
        updMbx q.mbx (fun m => { m with state := 1, tag := q.tag, accepted := true })
          { s.dev with
            host.snaps := (s.dev.host.snaps).map fun x => if x.mbx = q.mbx then { x with flags := 0 } else x,
            host.asks := (s.dev.host.asks ++ [(⟨q.mbx, q.tag, u8 q.payload 0, u16 q.payload 2, 0⟩ : AuditAsk)]).map fun x => if x.mbx = q.mbx then { x with flags := 0 } else x,
            host.rung := s.dev.host.rung.erase q.mbx })))
    ∧ (Taken cmdRstBlock q s → exec (.rstBlock q) s = .next (answered cmdRstBlock q s (let d := s.dev;
        { status := if resetIdle (u8 q.payload 0) (u16 q.payload 2) d then 0 else 0x0002 })
      (let d := s.dev;
        requestReset (u8 q.payload 0) (u16 q.payload 2) d)))
    ∧ (Taken cmdRstRelease q s → exec (.rstRelease q) s = .next (doneAfter cmdRstRelease q s fun d =>
        let k := (u8 q.payload 0, u16 q.payload 2)
        releaseInstance k.1 k.2 { d with flt.quarantine := d.flt.quarantine.filter fun q => decide (q ≠ k) }))
    ∧ (Taken cmdRstDevice q s → exec (.rstDevice q) s = .next (doneAfter cmdRstDevice q s fun d =>
        useFree { d with rst.due := some (d.up + ((freeNat d % 1000001 : Nat) : Rat)) }))
    ∧ (Taken cmdRstStatusRead q s → exec (.rstStatusRead q) s = .next (answered cmdRstStatusRead q s (let d := s.dev;
        let q := d.flt.quarantine
        { payload := le 4 (rstCauseWord d) ++ le 4 0 ++ le 8 d.rst.count.toNat ++ le 2 q.length ++ le 6 0
            ++ (q.take 64).flatMap fun k => le 1 k.1 ++ le 1 0 ++ le 2 k.2 }) s.dev))
    ∧ (Taken cmdMonConfig q s → exec (.monConfig q) s = .next (doneAfter cmdMonConfig q s fun d =>
        setThresholds (u8 q.payload 0) (i16 q.payload 2) (i16 q.payload 4) d))
    ∧ (Taken cmdMonRead q s → exec (.monRead q) s = .next (answered cmdMonRead q s (let d := s.dev;
        { payload := (List.range 98).flatMap fun i => le 4 (monReadWord i d) }) s.dev))

/-- Each command of families 0x01 and 0x0E (chapter 15), taken, answers a next state that is given whole: mode requests and removals move the mode, an update session opens, takes blocks, verifies, places, activates and ends, and the reads return mode and session words. What the statement does not name stands. -/
def Obligations.DeviceCommands : Prop := ∀ (q : Req) (s : State),
    (Taken cmdDevModeRequest q s → exec (.devModeRequest q) s = .next (disabled cmdDevModeRequest q s (stopped cmdDevModeRequest q s.dev (if inService s.dev ∧ u8 q.payload 4 = READY then [.service] else []))
      (cmdDevModeRequest.apply (argsOf q s))))
    ∧ (Taken cmdDevRemove q s → exec (.devRemove q) s = .next (disabled cmdDevRemove q s (stopped cmdDevRemove q (cmdDevRemove.ahead (argsOf q s) s.dev) [.service])
      (fun d => d)))
    ∧ (Taken cmdDevStatusRead q s → exec (.devStatusRead q) s = .next (answered cmdDevStatusRead q s (let d := s.dev;
        { payload := [devIdWord d, devModeWord d, hostStatusWord d, bootStatusWord d, bootTimeWord d, rstCauseWord d].flatMap (le 4) }) s.dev))
    ∧ (Taken cmdUpdBegin q s → exec (.updBegin q) s = .next (doneAfter cmdUpdBegin q s fun d =>
        let d := dropSession d
        { d with upd.state := 1, upd.total := u32 q.payload 0 }))
    ∧ (Taken cmdUpdBlock q s → exec (.updBlock q) s = .next (doneAfter cmdUpdBlock q s fun d =>
        updBump uBLOCKS { d with
          upd.area := Mem.writeN d.upd.area (u32 q.payload 0) (blockBytes (argsOf q s) d),
          upd.granules := d.upd.granules ++ (blockGranules q.payload).filter fun g => !d.upd.granules.contains g }))
    ∧ (Taken cmdUpdVerify q s → exec (.updVerify q) s = .next (answered cmdUpdVerify q s ({ status := 1 })
      (let d := s.dev;
        { d with upd.state := 2, upd.mbx := q.mbx, upd.tag := q.tag })))
    ∧ (Taken cmdUpdPlace q s → exec (.updPlace q) s = .next (answered cmdUpdPlace q s ({ status := 1 })
      (let d := s.dev;
        let d := { d with upd.state := 4, upd.placed := 0, upd.mbx := q.mbx, upd.tag := q.tag }
        if d.flash.answers then setStore (placeStore d) [] (journal 1 (placeStore d) (manifestDigest (transfer d)) d) else d)))
    ∧ (Taken cmdUpdActivate q s → exec (.updActivate q) s = .next (answered cmdUpdActivate q s ({ status := 1 })
      (let d := s.dev;
        let d := { d with upd.mbx := q.mbx, upd.tag := q.tag }
        if d.upd.loader then activateInLoader d
        else { d with upd.state := 6, upd.instant := ofT96 (un 12 q.payload 0), upd.force := decide (u8 q.payload 12 = 1),
                      upd.prepared := false })))
    ∧ (Taken cmdUpdCancel q s → exec (.updCancel q) s = .next (doneAfter cmdUpdCancel q s fun d =>
        if d.upd.state = 6 then complete d.upd.mbx d.upd.tag 0x0E05 0x0010 0 { d with upd.state := 5 } else dropSession d))
    ∧ (Taken cmdUpdStatusRead q s → exec (.updStatusRead q) s = .next (answered cmdUpdStatusRead q s (let d := s.dev;
        { payload := le 4 (updStatusWord d) ++ le 4 (updProgressWord d) ++ le 4 (updRunningWord d) ++ le 12 (t96 d.upd.instant)
            ++ ctrBytes d.upd.ctrs uACTIVATIONS 4 ++ (if d.upd.running = [] then le 128 0 else d.upd.running) }) s.dev))

/-- What each of these does where it comes about, and that the step then goes on: the host's doorbells, window writes, MBX_STATE, EVT_CONS and vector accesses, and Perby's acceptance of a request. What the statement does not name stands. -/
def Obligations.MailboxAccesses : Prop := ∀ (s : State),
    (∀ (n : Nat) (tag : Word), n < 16 → s.dev.host.linkUp = true →
      exec (.mbxDb n tag) s = .next (withDev s (doorbell n tag s.dev)))
    ∧ (∀ (n : Nat), acceptsNext n s.dev = true →
      exec (.mailboxRequestAccept n) s = .next (acceptRequest n s))
    ∧ (∀ (n off : Nat) (bytes : List Byte), n < 16 → off < 0x2000 → s.dev.host.linkUp = true →
      exec (.mailboxWindowWrite n off bytes) s = .next (withDev s (windowWrite n off bytes s.dev)))
    ∧ (∀ (n : Nat) (v : Word), n < 16 → s.dev.host.linkUp = true →
      exec (.mbxStateWrite n v) s = .next (withDev s
        ((updMbx n fun m => { m with dbErr := m.dbErr && !v.getLsbD 29, wrErr := m.wrErr && !v.getLsbD 28 }) s.dev)))
    ∧ (∀ (v : Word), s.dev.host.linkUp = true →
      exec (.evtConsWrite v) s = .next (withDev s (evtCons v.toNat s.dev)))
    ∧ (∀ (v : Nat), v < 64 → s.dev.host.linkUp = true →
      exec (.msixVectorUnmask v) s = .next (withDev s (unmask v s.dev)))

/-- What each of these does where it comes about, and that the step then goes on: BAR2, debug-window, BAR0 and HBM-window accesses, crossbar bursts, lock breaks, direct register writes, SMBus reads and JTAG. What the statement does not name stands. -/
def Obligations.BusAccesses : Prop := ∀ (s : State),
    (∀ (a len : Nat) (bytes : List Byte), s.dev.host.linkUp = true → s.dev.host.bar2Ready = true →
      a + bytes.length ≤ stagingBytes →
      exec (.bar2Access true a len bytes) s = .next (withStore (bar2Write a bytes.length s.dev)
        (((List.range bytes.length).zip bytes).filterMap fun b =>
          let x := sysAddr (a + b.1) s.dev
          if pcBad (pc (x / 2 ^ 30) s.dev) then none else some (x, b.2)) s))
    ∧ (∀ (a len : Nat) (bytes : List Byte), s.dev.host.linkUp = true → s.dev.host.bar2Ready = true →
      a + len ≤ stagingBytes →
      exec (.bar2Access false a len bytes) s = .next (withDev s (bar2Read a len s.hbm s.dev)))
    ∧ (∀ (w : Bool) (x : Nat) (v : Word), s.dev.host.linkUp = true → x < 0x800000 → x % 4 = 0 →
      exec (.debugWindowAccess w x v) s = .next (if s.dev.host.debug = true
        then debugAccess w (s.dev.host.winBase * 2 ^ 23 + x) v.toNat s
        else (withDev s ({ s.dev with host.bytes := if w then [] else le 4 0, host.completion := 0 }))))
    ∧ (∀ (a len : Nat), s.dev.host.linkUp = true →
      exec (.bar0WideAccess a len) s = .next (withDev s (bar0Wide a len s.dev)))
    ∧ (∀ (m b len : Nat) (bytes : List Byte), s.dev.mode ≠ HELD → m < 9 → reaches m 21 s.dev = true →
      windowShows b bytes.length (masterBump m xACCESSES 1 (granted 21 m s.dev)) = true →
      exec (.controlWindowAccess m true b len bytes) s =
        (let d := masterBump m xACCESSES 1 (granted 21 m s.dev)
         let k := windowKey b d
         let d' := (wordsAt k bytes.length).foldl (fun d x => writeWord k bytes.length x.1 x.2 d) d
         .next (withStore { d' with host.bytes := [], host.completion := 0 } (hbmStore k bytes d) s)))
    ∧ (∀ (m b len : Nat) (bytes : List Byte), s.dev.mode ≠ HELD → m < 9 → reaches m 21 s.dev = true →
      windowShows b len (masterBump m xACCESSES 1 (granted 21 m s.dev)) = true →
      exec (.controlWindowAccess m false b len bytes) s =
        (let d := masterBump m xACCESSES 1 (granted 21 m s.dev)
         let r := windowRead s.hbm b len d
         let d' := (wordsAt (windowKey b d) len).foldl (fun d x => passChecker x.1 x.2 d) d
         .next (withDev s ({ d' with host.bytes := r.2, host.completion := r.1 }))))
    ∧ (∀ (t : Nat) (reqs : List XReq), s.dev.mode ≠ HELD → reqs.all (waitsAt t s.dev) = true → reqs ≠ [] →
      lockSpent t s.dev = false →
      exec (.crossbarAccess t reqs) s =
        .next (withStore (crossbarAccess t reqs s.hbm s.dev).1 (crossbarAccess t reqs s.hbm s.dev).2 s))
    ∧ (∀ (t : Nat) (reqs : List XReq), s.dev.mode ≠ HELD → reqs.all (waitsAt t s.dev) = true → lockSpent t s.dev = true →
      exec (.crossbarAccess t reqs) s = .next (withDev s (breakSpent t reqs s.dev)))
    ∧ (∀ (t : Nat) (q : XReq), s.dev.mode ≠ HELD → q.master < 9 → q.addr % 4 = 0 → targetOf q.addr = none →
      lockSpent t (strayBurst q s.dev) = false →
      exec (.crossbarAccess t [q]) s = .next (withDev s (strayBurst q s.dev)))
    ∧ (∀ (t a : Nat) (w : Bool), targetOf a = some t → a % 4 = 0 → lockSpent t s.dev = true →
      exec (.lockBreak t a w) s = .next (withDev s (lockBreak t a w s.dev)))
    ∧ (∀ (a : Nat) (v : Word), s.dev.host.linkUp = true → a % 4 = 0 → 0x8000 ≤ a → a < 0x8400 →
      exec (.registerWrite a v) s = .next (withDev s (msixWrite (a - 0x8000) v s.dev)))
    ∧ (∀ (v : Word), s.dev.host.debug = true → s.dev.host.linkUp = true →
      exec (.registerWrite 0x011020 v) s = .next (withDev s ({ s.dev with host.winBase := v.toNat / 2 ^ 23 })))
    ∧ (∀ (a : Nat) (v : Word), s.dev.host.debug = true → s.dev.host.linkUp = true → s.dev.mode = MAINTENANCE →
      0x1000000 ≤ a → a < 2 ^ 32 → a % 4 = 0 →
      exec (.registerWrite a v) s = .next (debugAccess true a v.toNat s))
    ∧ (∀ (code : Nat), exec (.smbusBlockRead code) s = .next (withDev s ({ s.dev with
      pins.smbus := if s.dev.mode = HELD then [] else ((smbusWord code s.dev).map (le 4)).getD [] })))
    ∧ (∀ (ti : TapInstr), exec (.jtagInstruction ti) s = .next (withDev s ({ s.dev with
      pins.tap := ti, pins.scan := decide (ti = .extest ∨ ti = .extestPulse ∨ ti = .extestTrain) })))
    ∧ (exec .jtagTrstN s = .next (withDev s ({ s.dev with pins.tap := .idcode, pins.scan := false })))

/-- What each of these does where it comes about, and that the step then goes on: the end of a graceful stop, its deadline, audit points and the rewriting of a corrected word. What the statement does not name stands. That these are events of the queue is log entry 16. -/
def Obligations.StopsAndAudits : Prop := ∀ (s : State),
    (∀ (f : Func) (x : Drain), drainOf f s.dev = some x → unitDone x s.dev = true →
      exec (.gracefulStopComplete f) s = .next (withDev s (endDrain f ocGraceful (stopDone f s.dev))))
    ∧ (∀ (f : Func) (x : Drain), drainOf f s.dev = some x → unitDone x s.dev = false → x.deadline ≤ s.dev.up →
      exec (.gracefulDeadline f) s = .next (withDev s (endDrain f ocEscalated (stopFunc f s.dev))))
    ∧ (∀ (a : Auditor), s.dev.mode ≠ HELD → auditorExists a = true → auditDue a s.dev = true →
      exec (.auditPoint a) s = .next (withDev s (let d := s.dev
      let d := { d with flt.audited := (d.flt.audited.filter fun x => decide (x.1 ≠ a)) ++ [(a, houseMs d)] }
      answerAudits a (if blocksRun d then auditPoint a d else d))))
    ∧ (∀ (sram w : Nat), exec (.sramCorrectedRewrite sram w) s = .next (withDev s (sramRewrite sram w s.dev)))

/-- What each of these does where it comes about, and that the step then goes on: NCO updates, PTP messages and their timeouts, reference edges, gates, qualification, loss and selection. What the statement does not name stands. The servo's rate is a free value (log entry 22). -/
def Obligations.SelectorEvents : Prop := ∀ (s : State),
    (selectorRuns s.dev = true → newMs s.dev.tim.ref.lastNco s.dev = true →
      exec .ncoUpdate s = .next (withDev s (ncoUpdate s.dev)))
    ∧ (s.dev.tim.ref.state = 2 → timerPast s.dev.tim.ref.nearSince sec s.dev.up = true →
      exec .selectorLocked s = .next (withDev s ((updRef fun r => { r with state := 1 }) s.dev)))
    ∧ (LOADER ≤ s.dev.mode → newMs s.dev.tim.ref.lastLoad s.dev = true →
      exec .houseSynthRatioLoad s = .next (withDev s (updRef (fun r => { r with lastLoad := s.dev.house })
      (updSynth 8 (fun x => { x with ppt := s.dev.tim.ref.ppt }) (updSynth 9 (fun x => { x with ppt := s.dev.tim.ref.ppt })
        (updSynth 10 (fun x => { x with ppt := s.dev.tim.ref.ppt }) s.dev))))))
    ∧ (∀ (port : Nat) (m : PtpMsg), blocksRun s.dev = true →
      exec (.ptpMessageReceive port m) s = .next (withDev s (ptpReceive port m (ptpTake port s.dev))))
    ∧ (∀ (port n : Nat) (k : PtpKind), tbOfPort port s.dev = some n →
      (blocksRun s.dev && perbyServes s.dev && ptpDue (tget s.dev.tim.tbs n) port k s.dev) = true →
      exec (.ptpMessageTransmit port k) s = .next (withDev s (
        offer port 7 { len := ptpLen k, ptp := some (ptpMessage n port k s.dev) } (updTb n (fun b => { b with
          sent := tupd b.sent (port * 8 + ptpKindNo k) (· + 1),
          sentAt := tset b.sentAt (port * 8 + ptpKindNo k) s.dev.up,
          owed := match ptpOwes b port k with
            | some r => b.owed.erase r
            | none => b.owed }) s.dev))))
    ∧ (∀ (tb : Nat), (tget s.dev.tim.tbs tb).role = 0 →
      ((tget s.dev.tim.tbs tb).state = 2 ∨ (tget s.dev.tim.tbs tb).state = 3) →
      heardMasters (tget s.dev.tim.tbs tb) s.dev.up = [] →
      exec (.announceReceiptTimeout tb) s = .next (withDev s
        (tbHold tb (updTb tb (fun b => { b with masters := [], gm := none }) s.dev))))
    ∧ (∀ (tb : Nat), (tget s.dev.tim.tbs tb).role = 0 →
      ((tget s.dev.tim.tbs tb).state = 2 ∨ (tget s.dev.tim.tbs tb).state = 3) →
      (tget s.dev.tim.tbs tb).lastSync + 8 * logInterval (tget s.dev.tim.tbs tb).logSync ≤ s.dev.up →
      (tget s.dev.tim.tbs tb).lastSync + 250 * ms ≤ s.dev.up →
      exec (.syncAbsenceTimeout tb) s = .next (withDev s (tbHold tb s.dev)))
    ∧ (∀ (kind source : Nat) (phase : Time) (edge : Nat), selectorRuns s.dev = true → kind = 2 ∨ kind = 4 ∨ kind = 5 →
      exec (.referenceEdge kind source phase edge) s = .next (withDev s (let d := s.dev
      let d := if kind = 5 then { d with aud.wclkIn := true } else d
      match candOf kind source d with
      | none => d
      | some n =>
        let d := updCand n (fun c =>
          if kind = 2 ∧ edge = 0 then { c with present := true, hAt := d.up, hPeriod := d.up - c.hAt }
          else { c with present := true, edgeAt := d.up, hAt := if c.present then c.hAt else d.up }) d
        if kind = 2 ∧ edge = 2 then measurePhase n (stamped (d.house + phase) d) d else d)))
    ∧ (∀ (n : Nat) (ppb : Time), selectorRuns s.dev = true → n < 16 → (cand n s.dev).rank ≠ 0 →
      presenceHeld (cand n s.dev) s.dev = true →
      exec (.frequencyGate n ppb) s = .next (withDev s (let d := s.dev
      let c := cand n d
      let d := updCand n (fun c => { c with freq := some ppb, present := true }) d
      let d := if c.kind = 5 then { d with aud.wclkFreq := roundAway (ppb / 100) } else d
      if !inWindow c ppb d then loseCand n true d
      else
        select (updCand n (fun c => { c with since := startTimer c.since d.up }) d))))
    ∧ (∀ (n : Nat), selectorRuns s.dev = true → n < 16 → (cand n s.dev).rank ≠ 0 → (cand n s.dev).qual = false →
      presenceHeld (cand n s.dev) s.dev = true →
      timerPast (cand n s.dev).since (((cand n s.dev).holdoff : Rat) * ms) s.dev.up = true →
      exec (.candidateQualify n) s = .next (withDev s (select (updRef (fun r => { r with
        initFrom := startTimer r.initFrom s.dev.up })
      (updCand n (fun c => { c with qual := true }) s.dev)))))
    ∧ (∀ (n : Nat), selectorRuns s.dev = true → n < 16 → (cand n s.dev).rank ≠ 0 →
      ((cand n s.dev).present = true ∨ (cand n s.dev).qual = true) →
      (if (cand n s.dev).kind = 2 ∨ (cand n s.dev).kind = 4 ∨ (cand n s.dev).kind = 5 then edgesAbsent (cand n s.dev) s.dev else !presenceHeld (cand n s.dev) s.dev) = true →
      exec (.candidateLost n) s = .next (withDev s
        (loseCand n false (if (cand n s.dev).kind = 5 then { s.dev with aud.wclkIn := false } else s.dev))))
    ∧ (s.dev.tim.ref.conflict = true → timerPast s.dev.tim.ref.agreeSince (2 * sec) s.dev.up = true →
      exec .conflictClear s = .next (withDev s
        (select (updRef (fun r => { r with conflict := false, conflictRank := 0 }) s.dev))))
    ∧ (s.dev.tim.ref.state = 0 → s.dev.tim.ref.initDone = false →
      timerPast s.dev.tim.ref.initFrom ((s.dev.tim.ref.initMs : Rat) * ms) s.dev.up = true →
      exec .initialSelectionWindow s = .next (withDev s (select (updRef (fun r => { r with initDone := true }) s.dev))))

/-- What each of these does where it comes about, and that the step then goes on: pulse edges, lock, loss and search of the synthesisers, and the loss of the crystal. What the statement does not name stands. -/
def Obligations.ClockEvents : Prop := ∀ (s : State),
    (∀ (pin : Nat), LOADER ≤ s.dev.mode → s.dev.mode ≠ SAFE →
      exec (.pulseEdge pin) s = .next (withDev s (pulseEdge pin s.dev)))
    ∧ (∀ (n : Nat), n < 12 → s.dev.mode ≠ HELD → (tget s.dev.tim.synths n).locked = false →
      (tget s.dev.tim.synths n).bypass = false → (n = 11 ∨ selectionMade (tget s.dev.tim.synths n) s.dev.up = true) →
      exec (.pllLock n) s = .next (withDev s ((updSynth n fun x => { x with locked := true, select := 0 }) s.dev)))
    ∧ (∀ (n : Nat), n < 11 → s.dev.mode ≠ HELD → (tget s.dev.tim.synths n).select = 1 →
      (tget s.dev.tim.synths n).locked = false → (tget s.dev.tim.synths n).searchFrom + 200 * us ≤ s.dev.up →
      exec (.pllTableMiss n) s = .next (withDev s
        (updSynth n (fun x => { x with miss := x.miss + 1, select := 2, searchFrom := s.dev.up }) s.dev)))
    ∧ (∀ (n : Nat), n < 12 → s.dev.mode ≠ HELD → (tget s.dev.tim.synths n).locked = true →
      exec (.pllLossOfLock n) s = .next (withDev s (let d := s.dev
      let d := updSynth n (fun x => { x with locked := false, bypass := decide (n ≠ 11), searches := 0, select := 0,
                                             searchFrom := d.up }) d
      let d := major (0x010 + n) n d
      if n = 11 then hostReset d else d)))
    ∧ (∀ (n : Nat), n < 11 → (tget s.dev.tim.synths n).bypass = true → (tget s.dev.tim.synths n).locked = false →
      (tget s.dev.tim.synths n).searches < 3 → (tget s.dev.tim.synths n).searchFrom + 10 * ms ≤ s.dev.up →
      exec (.pllBypassSearch n) s = .next (withDev s
        (updSynth n (fun x => { beginSelection s.dev.up x with searches := x.searches + 1 }) s.dev)))
    ∧ (∀ (n : Nat), n < 11 → (tget s.dev.tim.synths n).bypass = true → (tget s.dev.tim.synths n).locked = false →
      selectionMade (tget s.dev.tim.synths n) s.dev.up = true →
      exec (.pllRelock n) s = .next (withDev s
        ((updSynth n fun x => { x with locked := true, searches := 0, select := 0, bypass := x.bypass && decide (2 ≤ n) }) s.dev)))
    ∧ (exec .xtalLoss s = .next (withDev s (major 0x000 0 s.dev)))
    ∧ (∀ (o : Nat) (osb : Bool), oscRuns o osb s.dev = true → (osc o osb s.dev).locked = true →
      exec (.octetSynthLossOfLock o osb) s = .next (withDev s (major (0x100 + 8 * o + b2n osb) o
      (updOsc o osb (fun x => { x with locked := false, lost := true, searching := false, searchFrom := s.dev.up }) s.dev))))
    ∧ (∀ (o : Nat) (osb : Bool), oscRuns o osb s.dev = true → (osc o osb s.dev).locked = false →
      (osc o osb s.dev).searchFrom + 10 * ms ≤ s.dev.up →
      exec (.octetSynthSearch o osb) s = .next (withDev s
        (updOsc o osb (fun x => { x with searching := true, searchFrom := s.dev.up }) s.dev)))
    ∧ (∀ (o : Nat) (osb : Bool), oscRuns o osb s.dev = true → (osc o osb s.dev).locked = false →
      (osc o osb s.dev).searching = true → (osc o osb s.dev).searchFrom + 100 * us ≤ s.dev.up →
      exec (.octetSynthRelock o osb) s = .next (withDev s (let d := s.dev
      let lost := (osc o osb d).lost
      let d := updOsc o osb (fun x => { x with locked := true, lost := false, searching := false }) d
      if lost then minor (0x100 + 8 * o + b2n osb) o d else d)))

/-- What each of these does where it comes about, and that the step then goes on: signal loss and return, gates, rate search, adaptation, alignment and roving of a lane. What the statement does not name stands. Eye values are free (log entry 26). -/
def Obligations.LaneEvents : Prop := ∀ (s : State),
    (∀ (n : Nat) (peak : Nat), LOADER ≤ s.dev.mode → n < 196 → peak < losThreshold (lane n s.dev) →
      (lane n s.dev).los = false →
      exec (.losAssert n peak) s = .next (withDev s
        (laneUnlock n (laneBump n cLOS 1 (updLane n (fun l => { l with los := true, good := 0 }) s.dev)))))
    ∧ (∀ (n : Nat) (least : Nat), LOADER ≤ s.dev.mode → n < 196 → losThreshold (lane n s.dev) + 20 ≤ least →
      (lane n s.dev).los = true →
      exec (.losDeassert n least) s = .next (withDev s
        (updLane n (fun l => { l with los := false, stepAt := if l.rxState = 1 then s.dev.up else l.stepAt }) s.dev)))
    ∧ (∀ (n : Nat) (v : Int) (errs : Nat) (start : Nat), n < 196 → (lane n s.dev).rxEn = true →
      (lane n s.dev).los = false → (lane n s.dev).rxState ≠ 6 →
      exec (.laneFrequencyGate n v errs start) s = .next (withDev s (frequencyGate n v start errs s.dev)))
    ∧ (∀ (n : Nat), n < 192 → (lane n s.dev).rate = 0xE → (lane n s.dev).rxState = 1 → (lane n s.dev).rxEn = true →
      (lane n s.dev).lol = true → (lane n s.dev).los = false → (lane n s.dev).stepAt + ms ≤ s.dev.up →
      exec (.rateSearchStep n) s = .next (withDev s (updLane n (fun l =>
      let k := (l.search + 1) % searchOrder.length
      { l with search := k, rateNow := searchOrder.getD k 6, stepAt := s.dev.up, good := 0, bad := 0 }) s.dev)))
    ∧ (∀ (n : Nat), n < 196 → (lane n s.dev).rxState = 1 → (lane n s.dev).rxEn = true → (lane n s.dev).los = false →
      oscLocked (octetOf n) (lane n s.dev).rateNow s.dev = true →
      ((lane n s.dev).rate ≠ 0xE ∨ (lane n s.dev).lol = false) → (lane n s.dev).acqAt + 10 * us ≤ s.dev.up →
      exec (.laneFrequencyAcquired n) s = .next (withDev s (updLane n (fun l => { l with
      rxState := 2, stepAt := s.dev.up, adapted := false, ctleNow := if l.adapt = 2 then l.ctle else l.ctleNow,
      vgaNow := if l.adapt = 2 then l.vga else l.vgaNow }) s.dev)))
    ∧ (∀ (n : Nat), n < 196 → (lane n s.dev).rxState = 2 → (lane n s.dev).adapted = false →
      (lane n s.dev).stepAt + (if (lane n s.dev).rateNow = 0xA then 5 * ms else 2 * ms) ≤ s.dev.up →
      exec (.laneAdaptEnd n) s = .next (withDev s
        (updLane n (fun l => { l with adapted := true, good := 0, bad := 0 }) s.dev)))
    ∧ (∀ (n : Nat) (comp : Bool) (identity : Nat), n < 192 →
      exec (.alignmentMarker n comp identity) s = .next (withDev s (alignmentMarker n comp identity s.dev)))
    ∧ (∀ (n : Nat), n < 196 → (lane n s.dev).rxState = 3 → (lane n s.dev).stepAt + 2 * ms ≤ s.dev.up →
      exec (.alignTimeout n) s = .next (withDev s (laneFail n s.dev)))
    ∧ (∀ (o m : Nat), o ≤ 24 → (tget s.dev.octets o).stage = 0 → (tget s.dev.octets o).roveEn = true →
      (tget s.dev.octets o).spare = true → octIdle o s.dev = false →
      ((tget s.dev.octets o).osa.locked = true ∧ ((tget s.dev.octets o).osb.locked = true ∨ oscRuns o true s.dev = false)) →
      (tget s.dev.octets o).lastVisit + ((tget s.dev.octets o).dwell : Rat) * sec ≤ s.dev.up →
      nextVisit o s.dev = some m →
      exec (.roveVisit o m) s = .next (withDev s (roveVisit o s.dev)))
    ∧ (∀ (o : Nat) (mism : Nat), o ≤ 24 → (tget s.dev.octets o).stage = 1 →
      (tget s.dev.octets o).visitAt + 21100 * us ≤ s.dev.up →
      exec (.roveSubstitution o mism) s = .next (withDev s (roveCompared o mism s.dev)))
    ∧ (∀ (n laneNo : Nat) (allUp : Bool), 192 ≤ n → n < 196 → (lane n s.dev).rxState = 3 →
      exec (.twinTrainingMarker n laneNo allUp) s = .next (withDev s
        (twinTrained allUp (laneUp n (updLane n (fun l => { l with order := laneNo % 4 }) s.dev)))))

/-- What each of these does where it comes about, and that the step then goes on: timing references, lines, frame boundaries and packets of an SDI receiver, and the frame start of a transmitter. What the statement does not name stands. -/
def Obligations.SdiEvents : Prop := ∀ (s : State),
    (∀ (n stream pos : Nat) (coded : List Bool), wordsArrive n s.dev = true →
      exec (.sdiTrs n stream pos coded) s = .next (withDev s (sdiTrs n stream pos coded s.dev)))
    ∧ (∀ (n stream : Nat), n < 192 → (rx n s.dev).en = true →
      exec (.sdiTrsAbsent n stream) s = .next (withDev s (trsAbsent n stream s.dev)))
    ∧ (∀ (n stream : Nat) (y c : List Nat) (eav : List (Nat × Nat)) (buf : List WordErr), n < 192 →
      (rx n s.dev).en = true →
      exec (.sdiLine n stream y c eav buf) s = .next (withDev s
        (sdiLine n stream (y ++ eav.map (·.1)) (if c = [] then [] else c ++ eav.map (·.2)) buf s.dev)))
    ∧ (∀ (n : Nat) (m : SdiMeasure), n < 256 → blocksRun s.dev = true → (rx n s.dev).en = true →
      2 ≤ (rx n s.dev).state → (n < 192 ∨ (rx n s.dev).wire.edge = 1) →
      exec (.sdiFrameBoundary n m) s = .next (withDev s (let d := s.dev
      let d := settle (sdiBoundary n m (applyPoint (.laneFrame n)) d)
      if n < 192 then d else wireLines n (updWire n (fun w => { w with edge := 2 }) d))))
    ∧ (∀ (n : Nat) (p : AncPacket), n < 192 → (rx n s.dev).en = true →
      exec (.sdiAncPacket n p) s = .next (withDev s (ancPacket n p s.dev)))
    ∧ (∀ (n : Nat) (p : AudioPacket), n < 192 → (rx n s.dev).en = true →
      exec (.sdiAudioPacket n p) s = .next (withDev s (audioPacket n p s.dev)))
    ∧ (∀ (n k : Nat) (buf : List WordErr), n < 256 →
      exec (.sdiTxFrameStart n k buf) s = .next (withDev s (txFrame n k buf s.dev)))

/-- What each of these does where it comes about, and that the step then goes on: alignment, link changes, faults, frames, pause timers and ring copies of a port. What the statement does not name stands. -/
def Obligations.EthernetEvents : Prop := ∀ (s : State),
    (∀ (p : Nat), portExists p s.dev = true → portLink p s.dev = 2 → (port p s.dev).aligned = false →
      exec (.macPcsAligned p) s = .next (withDev s (useFree (updPort p (fun x => { x with
      link := 2, aligned := true, hiSer := false, alignedAt := s.dev.up, depth := 4 + freeNat s.dev % 2 }) s.dev))))
    ∧ (∀ (p : Nat), portExists p s.dev = true → (port p s.dev).link = 2 →
      (port p s.dev).alignedAt + 10 * ms ≤ s.dev.up → (port p s.dev).aligned = true → (port p s.dev).rf = false →
      exec (.macLinkUp p) s = .next (withDev s (updPort p (fun x => { x with link := 3 }) s.dev)))
    ∧ (∀ (p : Nat) (lockLost : Bool) (symErrs badHeaders : Nat), portExists p s.dev = true → (port p s.dev).link ≠ 0 →
      (port p s.dev).aligned = true → (lockLost = true ∨ highSer p symErrs badHeaders s.dev = true) →
      exec (.macLinkDown p lockLost symErrs badHeaders) s = .next (withDev s
        (portFail p (highSer p symErrs badHeaders s.dev) s.dev)))
    ∧ (∀ (p : Nat), portExists p s.dev = true →
      ((port p s.dev).link = 3 ∨ ((port p s.dev).link = 2 ∧ (port p s.dev).aligned = true)) →
      exec (.remoteFaultReceived p) s = .next (withDev s
        (portFlush p (updPort p (fun x => { x with link := 4, rf := true }) s.dev))))
    ∧ (∀ (p : Nat), portExists p s.dev = true → (port p s.dev).link = 4 →
      exec (.remoteFaultCleared p) s = .next (withDev s
        (updPort p (fun x => { x with link := 2, rf := false, alignedAt := s.dev.up }) s.dev)))
    ∧ (∀ (p : Nat) (f : EthFrame), blocksRun s.dev = true → portExists p s.dev = true → (port p s.dev).link = 3 →
      exec (.ethFrameReceive p f) s = .next (withDev s (ethReceive p f s.dev)))
    ∧ (∀ (p q : Nat), ∀ t, (queueOf p 2 q s.dev).paused = some t → q ≤ 5 → t ≤ s.dev.up →
      exec (.pauseTimerExpiry p q) s = .next (withDev s (updQueue p 2 q (fun x => { x with paused := none }) s.dev)))
    ∧ (∀ (p q : Nat), portExists p s.dev = true → (port p s.dev).link = 3 → (port p s.dev).fc ≠ 0 →
      (queueOf p 1 q s.dev).above = true → atXon p q s.dev = false →
      (queueOf p 1 q s.dev).pauseAt + ((port p s.dev).pauseTime : Rat) * 256 / (portGbps p s.dev : Rat) ≤ s.dev.up →
      exec (.pauseRefresh p q) s = .next (withDev s
        (updPort p (fun y => { y with pauseFor := y.pauseFor.filter (· ≠ q) ++ [q] })
      (updQueue p 1 q (fun x => { x with pauseAt := s.dev.up }) s.dev))))
    ∧ (∀ (p : Nat), blocksRun s.dev = true → portExists p s.dev = true → (port p s.dev).link = 3 →
      exec (.ethFrameTransmit p) s = .next (withDev s (ethTransmit p s.dev)))
    ∧ (∀ (mac : Nat) (ptp : Bool), blocksRun s.dev = true → mac < 16 →
      exec (.ringCopy mac ptp) s = .next (withDev s (ringCopy mac ptp s.dev)))

/-- What each of these does where it comes about, and that the step then goes on: packets, path loss, frame ends, re-keys, packet schedules and the answers to queries. What the statement does not name stands. -/
def Obligations.FlowEvents : Prop := ∀ (s : State),
    (∀ (p : Nat) (table : List WordErr) (window : SymErr), blocksRun s.dev = true → p < 128 →
      exec (.flowClassify p table window) s = .next (withDev s (flowClassify p table window s.dev)))
    ∧ (∀ (n : Nat), blocksRun s.dev = true → (rxFlow n s.dev).upA = true → (rxFlow n s.dev).lastA + 10 * ms ≤ s.dev.up →
      exec (.flowPathDown n 0) s = .next (withDev s (postEvent 0x0201 n (le 1 0) (rxfBump n fPATH_LOSS 1
        (updRxFlow n (fun x => { x with upA := false }) s.dev)))))
    ∧ (∀ (n : Nat), blocksRun s.dev = true → (rxFlow n s.dev).upB = true → (rxFlow n s.dev).lastB + 10 * ms ≤ s.dev.up →
      exec (.flowPathDown n 1) s = .next (withDev s (postEvent 0x0201 n (le 1 1) (rxfBump n (fPATH_LOSS + 8) 1
        (updRxFlow n (fun x => { x with upB := false }) s.dev)))))
    ∧ (∀ (n : Nat), n < 8192 → blocksRun s.dev = true →
      ((rxFlow n s.dev).frames.any fun f => frameDue (rxFlow n s.dev) f s.dev.up) = true →
      exec (.ipFrameClose n) s = .next (withDev s (settle (applyPoint (.flowFrame n) (frameClose n s.dev)))))
    ∧ (perbyServes s.dev = true → s.dev.flows.tbl.state = 2 → s.dev.flows.tbl.placed = false →
      exec .rekeyPlacementDone s = .next (withDev s (rekeyPlaced s.dev)))
    ∧ (s.dev.flows.tbl.state = 2 → s.dev.flows.tbl.placed = true → s.dev.flows.tbl.switched = none →
      (∀ t, s.dev.flows.tbl.switchAt = some t → t ≤ s.dev.house) →
      exec .rekeySwitch s = .next (withDev s (let d := s.dev
      let b := d.flows.tbl
      { d with flows.tbl := { b with half := !b.half, key := b.newKey, active := b.spare, spare := b.active,
                                     switched := some d.up } })))
    ∧ (∀ t, s.dev.flows.tbl.switched = some t → s.dev.flows.tbl.state = 2 → t + ms ≤ s.dev.up →
      exec .rekeyComplete s = .next (withDev s (let d := s.dev
      let b := d.flows.tbl
      { d with
        cfg.epoch := d.cfg.epoch + 1,
        flows.tbl := { b with spare := [], epoch := b.epoch + 1, state := 1, switched := none, placed := false,
                              ctrs := bump b.ctrs 0x20 } })))
    ∧ (∀ (memc healthy : Bool), s.dev.mode ≠ HELD →
      exec (.entropyDrawRetry memc healthy) s = .next (withDev s (entropyRetry memc healthy s.dev)))
    ∧ (∀ (n seq k : Nat), outputsRun s.dev = true → n < 8192 → sendsNow n s.dev = true → firstInTurn n s.dev = true →
      packetIs n seq k s.dev = true →
      exec (.packetScheduled n seq k) s = .next (withDev s (packetScheduled n s.dev)))
    ∧ (∀ (p group : Nat), blocksRun s.dev = true → perbyServes s.dev = true → portExists p s.dev = true →
      queriedGroups p group s.dev ≠ [] →
      exec (.igmpQuery p group) s = .next (withDev s (sendIgmp p (queriedGroups p group s.dev) s.dev)))
    ∧ (∀ (p ip : Nat), blocksRun s.dev = true → perbyServes s.dev = true → portExists p s.dev = true →
      (port p s.dev).ip ≠ 0 → (port p s.dev).ip = ip →
      exec (.arpRequest p ip) s = .next (withDev s
        (offer p 5 { len := 64 } { s.dev with flows.arpSent := tupd s.dev.flows.arpSent p (· + 1) })))

/-- What each of these does where it comes about, and that the step then goes on: requests and bursts, holidays, scrub, errors, resets, migrations and retirements of pseudo-channels. What the statement does not name stands. -/
def Obligations.MemoryEvents : Prop := ∀ (s : State),
    (∀ (k : Nat) (q : MemReq), k < 64 → q.requester < 66 → q.word < pcBytes / 32 →
      exec (.memoryRequest k q) s = .next (withDev s (memoryRequest k q s.dev)))
    ∧ (∀ (k : Nat), k < 64 → ((pc k s.dev).state = 2 ∨ (pc k s.dev).state = 3) → (pc k s.dev).holiday.isNone = true →
      (chooseBurst (pc k s.dev) s.dev).isSome = true →
      exec (.burstIssue k) s = .next (withDev s (burstIssue k s.dev)))
    ∧ (∀ (k : Nat) (errs fabric : SymErr), k < 64 → ((pc k s.dev).state = 2 ∨ (pc k s.dev).state = 3) → (pc k s.dev).issued ≠ [] →
      exec (.burstComplete k errs fabric) s = .next (recomposeAll (withDev s (burstComplete k errs fabric s.dev))))
    ∧ (∀ (k : Nat), k < 64 → ((pc k s.dev).state = 2 ∨ (pc k s.dev).state = 3) → (pc k s.dev).due = none →
      exec (.holidayDue k false) s = .next (withDev s (updPc k (fun x => { x with due := some s.dev.up }) s.dev)))
    ∧ (∀ (k : Nat), k < 64 → ((pc k s.dev).state = 2 ∨ (pc k s.dev).state = 3) → (pc k s.dev).dueRetrain = none →
      retrainDue k s.dev = true →
      exec (.holidayDue k true) s = .next (withDev s (updPc k (fun x => { x with dueRetrain := some s.dev.up }) s.dev)))
    ∧ (∀ (k : Nat) (r : Bool), nextHoliday s.dev = some (k, r) → holidayLength r + 1000 ≤ tolMin s.dev → noHoliday s.dev = true →
      (∀ t, s.dev.memc.lastHoliday = some t → t + 10000 ≤ s.dev.up) →
      exec (.holidayStart k) s = .next (withDev s (useFree (beginHoliday k r s.dev))))
    ∧ (∀ (k : Nat), k < 64 → ((pc k s.dev).state = 2 ∨ (pc k s.dev).state = 3) → noHoliday s.dev = true →
      ((pc k s.dev).due.isSome = true ∨ timerPast (pc k s.dev).dueRetrain sec s.dev.up = true) →
      exec (.holidayDeadline k) s = .next (withDev s
        (major 0x381 k (pcBump k mHOLIDAY_FORCED 1 (beginHoliday k (pc k s.dev).due.isNone s.dev)))))
    ∧ (∀ (k : Nat) (r : Bool) (t : Rat), (pc k s.dev).holiday = some (r, t) → t ≤ s.dev.up →
      exec (.holidayEnd k) s = .next (withDev s (updPc k (fun x => { x with
          holiday := none, lastRetrain := if r then s.dev.up else x.lastRetrain,
          tempAt := if r then stackTemp k s.dev else x.tempAt })
        { s.dev with
          memc.lastHoliday := some s.dev.up,
          upd.hbmPart := if r then s.dev.upd.hbmPart.filter (· ≠ k) else s.dev.upd.hbmPart })))
    ∧ (∀ (k : Nat) (errs : SymErr), k < 64 → ((pc k s.dev).state = 2 ∨ (pc k s.dev).state = 3) →
      (pc k s.dev).holiday.isNone = true → ((pc k s.dev).targets ≠ [] ∨ patrolDue (pc k s.dev) s.dev = true) →
      canTag (pc k s.dev) 65 = true →
      exec (.scrubRead k errs) s = .next (withDev s (scrubRead k errs s.dev)))
    ∧ (∀ (k : Nat), k < 64 → ((pc k s.dev).state = 2 ∨ (pc k s.dev).state = 3) →
      (pc k s.dev).winAt + sec ≤ s.dev.house →
      exec (.pcErrorWindow k) s = .next (withDev s (errorWindow k s.dev)))
    ∧ (∀ (k : Nat), k < 64 → ((pc k s.dev).state = 2 ∨ (pc k s.dev).state = 3) → (pc k s.dev).holiday.isNone = true →
      ((pc k s.dev).issued.any fun t => !t.req.write && decide (t.issued + 10 * us ≤ s.dev.up)) = true →
      exec (.readResponseTimeout k) s = .next (withDev s (major (pcSource k 2) k s.dev)))
    ∧ (∀ (k : Nat), k < 64 → (pc k s.dev).state = 1 → (6, k) ∈ s.dev.flt.inReset →
      exec (.pcResetRelease k) s = .next (withDev s (let d := s.dev
      let leaving := match d.memc.retire with
        | some r => r.pcs.contains k
        | none => false
      releaseInstance 6 k (updPc k (fun x => { x with
        state := if leaving then 3 else 2, lastRetrain := d.up, tempAt := stackTemp k d, dueRetrain := none }) d))))
    ∧ (∀ (r : Nat), blocksRun s.dev = true → (migrating s.dev).length < s.dev.memc.migPar →
      canMigrate r s.dev = true → ((rings s.dev).all fun q => decide (r ≤ q) || !canMigrate q s.dev) = true →
      exec (.ringMigrationStart r) s = .next (withDev s (migrate r s.dev)))
    ∧ (∀ (r : Nat), (stream r s.dev).old.isSome = true →
      ((stream r s.dev).slots.all fun s => decide (s.state = 0) || !s.old) = true →
      exec (.ringMigrationEnd r) s = .next (withDev s
        (updStream r (fun x => { x with old := none, slots := x.slots.map fun s => { s with old := false } }) s.dev)))
    ∧ (∀ (r : Retire), s.dev.memc.retire = some r → r.copied = false → perbyServes s.dev = true →
      r.since + copyTime (sysCopies r.pcs s.dev).length ≤ s.dev.up →
      exec .retirementSystemCopyDone s =
        .next { s with hbm := copyGranules (sysCopies r.pcs s.dev) s.hbm, dev := systemCopied r.pcs s.dev })
    ∧ (∀ r, s.dev.memc.retire = some r → r.copied = true → migrationsDone s.dev = true →
      exec .retirementComplete s = .next (withDev s (retirementComplete s.dev)))

/-- What each of these does where it comes about, and that the step then goes on: frames of producers, the three points of a timing group, takes, splices, conversion pictures, the ledger and underruns. What the statement does not name stands. -/
def Obligations.FabricEvents : Prop := ∀ (s : State),
    (∀ (r : Nat) (start : Time), producerRuns r s.dev = true → frameAtHand r start s.dev = true →
      (drainOf (.ingress r) s.dev).isNone = true →
      exec (.producerFrameStart r start) s = .next (withDev s (sweep (beginWriting r start s.dev))))
    ∧ (∀ (r n : Nat) (fabric : List WordErr), writingFrame r false (recomposeAll s).dev = some n → writeEnds r (recomposeAll s).dev = true →
      exec (.producerFrameReady r fabric) s = .next (
        let t := recomposeAll s
        let m := writeFrame r t.dev t.hbm
        let d := resendLocked r n m (frameReady r (fabricWords r fabric (poisonWords r t.dev)))
        { t with hbm := m, dev := if (stream r t.dev).kind = 3 then forgetClosed (stream r t.dev).id d else d }))
    ∧ (∀ (tg k : Nat), blocksRun s.dev = true → tg < 64 → definedFormat (timGroup tg s.dev).format → 1 ≤ k →
      (timGroup tg s.dev).plannedK < k → tgTime (timGroup tg s.dev) (k - 1) ≤ s.dev.house →
      s.dev.house < confTime (timGroup tg s.dev) k →
      exec (.planPoint tg k) s = .next (withDev s (planPoint tg k s.dev)))
    ∧ (∀ (tg k : Nat), blocksRun s.dev = true → tg < 64 → definedFormat (timGroup tg s.dev).format →
      (timGroup tg s.dev).plannedK = k → (timGroup tg s.dev).confK < k →
      confTime (timGroup tg s.dev) k ≤ s.dev.house →
      exec (.confirmationPoint tg k) s = .next (withDev s (confirmationPoint tg k s.dev)))
    ∧ (∀ (tg k : Nat) (buf : List (Nat × WordErr)), boundaryDue tg k s.dev = true →
      exec (.frameBoundary tg k buf) s = .next (withDev s (checkRasters buf (frameBoundary tg k s.hbm s.dev))))
    ∧ (∀ (dst : Nat), ∀ sp, (audDst dst s.dev).splice = some sp → sp.begun = false → sp.n ≤ s.dev.aud.block →
      exec (.spliceStart dst) s = .next (withDev s
        ((updDst dst fun x => { x with splice := x.splice.map fun sp => { sp with begun := true } }) s.dev)))
    ∧ (∀ (dst : Nat), ∀ sp, (audDst dst s.dev).splice = some sp → sp.begun = true → sp.n + 16 ≤ s.dev.aud.block →
      exec (.spliceEnd dst) s = .next (withDev s (endSplice dst s.dev)))
    ∧ (∀ (e j q : Nat) (buf : List WordErr), e < 48 → pictureDue e j q s.dev = true →
      exec (.converterPictureStart e j q buf) s = .next (pictureAt e j q buf s))
    ∧ (∀ (e j q : Nat), ledgerLead s.dev = true → (engine e s.dev).en = true →
      q < (if byField (timGroup (cvTg (engine e s.dev).conf) s.dev).format then 2 else 1) →
      pictureStart (timGroup (cvTg (engine e s.dev).conf) s.dev) j q - 500 * us ≤ s.dev.house →
      s.dev.house < pictureStart (timGroup (cvTg (engine e s.dev).conf) s.dev) j q →
      (∀ j' q' l, (engine e s.dev).sent = some (j', q', l) → j' < j ∨ (j' = j ∧ q' < q)) →
      exec (.ledgerConverterSend e j q) s = .next (withDev s
        (let p := pickPictures e j q s.dev
         sendLedger [converterEntry e j q p false s.dev] (updEngine e (fun x => { x with sent := some (j, q, p) }) s.dev))))
    ∧ (∀ (e line sample lateWords : Nat), rasterReads e s.dev = true → (raster e s.dev).shown.isSome = true →
      outputsRun s.dev = true → line < activeLines (timGroup (raster e s.dev).tg s.dev).format →
      sample < activeWidth (timGroup (raster e s.dev).tg s.dev).format →
      exec (.rasterUnderrun e line sample lateWords) s = .next (withDev s (underrunLine e line sample
      (updRaster e (fun x => { x with under := true }) (oBump e outLATE lateWords (oBump e outUNDERRUN 1 s.dev))))))

/-- What each of these does where it comes about, and that the step then goes on: audio blocks, matrix rewrites, subframes, input gates, sync samples and TDM frames. What the statement does not name stands. Converted sample values are free (log entry 6). -/
def Obligations.AudioEvents : Prop := ∀ (s : State),
    (∀ (cells : List WordErr) (samples : List (Nat × Nat × WordErr)), blockDue s.dev = true →
      exec (.audioBlock cells samples) s = .next (withDev s (blockBoundary cells samples s.dev)))
    ∧ (∀ (w : Nat), blocksRun s.dev = true → (s.dev.aud.badCells.any fun x => decide (x.1 = w)) = true →
      exec (.matrixWordRewrite w) s = .next (withDev s (matrixRewrite w s.dev)))
    ∧ (∀ (p : Nat) (f : Subframe), p < 32 → (audPort 1 p s.dev).state ≠ 0 → blocksRun s.dev = true →
      exec (.aes3Subframe p f) s = .next (withDev s (aesSubframe p f s.dev)))
    ∧ (∀ (kind p : Nat) (tenthPpm : Int), qualifies kind p s.dev = true →
      exec (.inputRateGate kind p tenthPpm) s = .next (withDev s (rateGate kind p tenthPpm s.dev)))
    ∧ (∀ (kind p : Nat), qualifies kind p s.dev = true → (audPort kind p s.dev).state = 1 →
      timerPast (audPort kind p s.dev).since (((audPort kind p s.dev).holdoff : Rat) * ms) s.dev.up = true →
      exec (.inputQualify kind p) s = .next (withDev s (inputQualify kind p s.dev)))
    ∧ (∀ (kind p cause : Nat), qualifies kind p s.dev = true → 1 ≤ (audPort kind p s.dev).state →
      (audPort kind p s.dev).state ≤ 3 → 1 ≤ cause → cause ≤ 3 →
      (cause ≠ 1 ∨ preambleAbsent (audPort kind p s.dev) s.dev.up = true) →
      (cause ≠ 2 ∨ (audPort kind p s.dev).freq < -10000 ∨ 10000 < (audPort kind p s.dev).freq) →
      exec (.inputLost kind p cause) s = .next (withDev s (inputLost kind p cause s.dev)))
    ∧ (∀ (p : Nat), blocksRun s.dev = true → p < 256 → (rx p s.dev).state = 3 →
      exec (.syncSampleInstant 0 p) s = .next (withDev s (receiverInstant p (mediaIndex s.dev.house s.dev) s.dev)))
    ∧ (∀ (p : Nat), blocksRun s.dev = true → p < 32 → (audPort 1 p s.dev).state = 2 →
      (audPort 1 p s.dev).instant ≠ some (mediaIndex s.dev.house s.dev) →
      exec (.syncSampleInstant 1 p) s = .next (withDev s (portInstant 1 p (mediaIndex s.dev.house s.dev) s.dev)))
    ∧ (∀ (p : Nat), blocksRun s.dev = true → p < 8 → (audPort 3 p s.dev).state = 2 → (audPort 3 p s.dev).role = 1 →
      (audPort 3 p s.dev).instant ≠ some (mediaIndex s.dev.house s.dev) →
      exec (.syncSampleInstant 3 p) s = .next (withDev s (portInstant 3 p (mediaIndex s.dev.house s.dev) s.dev)))
    ∧ (∀ (p : Nat) (slots : List Word), p < 8 → (audPort 3 p s.dev).set = true → blocksRun s.dev = true →
      ((audPort 3 p s.dev).role = 1 ∨ (((audPort 3 p s.dev).state ≠ 0 ∨ (audPort 4 p s.dev).state ≠ 0) ∧ (audPort 3 p s.dev).instant ≠ some (mediaIndex s.dev.house s.dev))) →
      exec (.tdmFrame p slots) s = .next (withDev s (tdmFrame p slots s.dev)))

/-- What each of these does where it comes about, and that the step then goes on: watchdog misses, the end of a restart and its timeout, the expiry of debug grants and snapshots. What the statement does not name stands. -/
def Obligations.PerbyEvents : Prop := ∀ (s : State),
    (∀ (core : Nat), core < 4 → s.dev.host.perbyUp = true → s.dev.host.restarting = false →
      exec (.watchdogMiss core) s = .next (withDev s (major 0x033 core s.dev)))
    ∧ (s.dev.host.restarting = true →
      exec .hitlessRestartEnd s = .next (withDev s (restartEnd s.dev)))
    ∧ (s.dev.host.restarting = true → s.dev.host.restartAt + 120 * ms ≤ s.dev.up →
      exec .restartTimeout s = .next (withDev s (major 0x034 0 s.dev)))
    ∧ (s.dev.host.debug = true → s.dev.host.unlockedAt + 3600 * sec ≤ s.dev.up →
      exec .debugUnlockExpiry s = .next (withDev s ({ s.dev with host.debug := false })))
    ∧ (∀ (x : BitVec 256) (t : Rat), s.dev.host.challenge = some (x, t) → t + 60 * sec ≤ s.dev.up →
      exec .debugChallengeExpiry s = .next (withDev s ({ s.dev with host.challenge := none })))
    ∧ (∀ (x : Snapshot), s.dev.host.snaps.find? (fun x => decide (x.t ≤ s.dev.house)) = some x →
      (∀ a ∈ x.addrs, latched s.hbm a s.dev ≠ none) → (∀ ws, x.words = some ws → ∀ w ∈ ws, w ≠ none) →
      exec .snapshotLatch s = .next (withDev s (
        let words := x.words.getD (x.addrs.map fun a => latched s.hbm a s.dev)
        coresReload (answer x.mbx 0x0F05 x.flags x.tag
          { payload := le 8 (ns48 x.t) ++ words.flatMap fun w => le 8 (w.getD 0) }
          (useFree { s.dev with host.snaps := s.dev.host.snaps.erase x })))))

/-- What each of these does where it comes about, and that the step then goes on: check results, the steps of a commit, and the re-arming of blocks. What the statement does not name stands. -/
def Obligations.CommitEvents : Prop := ∀ (s : State),
    (∀ (b : Nat), b < 4 → perbyServes s.dev = true →
      exec (.bankCheckComplete b) s = .next (withDev s (checkDone b s.dev)))
    ∧ (∀ (e : Nat), e < 256 → (almEntry e s.dev).state = 1 → (almEntry e s.dev).instant - 500 * ms ≤ s.dev.house →
      s.dev.mode ≠ SAFE → perbyServes s.dev = true →
      exec (.adventStart e) s = .next (withDev s (adventStart e s.dev)))
    ∧ (∀ (e : Nat), e < 256 → (almEntry e s.dev).state = 2 → (almEntry e s.dev).handed = false →
      s.dev.house ≤ (almEntry e s.dev).instant - 250 * ms → perbyServes s.dev = true →
      exec (.adventHandover e) s =
        (let x := almEntry e s.dev
         let l := if x.action = 1 then (bank x.arg s.dev).changes else x.built
         let after := (checkOrder l).foldl (fun s y => tryChange y.2 s) s.dev
         let armed := (checkOrder l).map fun y => (⟨commitPoint y.2 x.instant s.dev after, y.2, some e, false⟩ : Waiting)
         .next (withDev s (updAlm e (fun y => { y with handed := true, built := l })
           (masterWorks 7 { s.dev with cfg.waiting := s.dev.cfg.waiting ++ armed })))))
    ∧ (∀ (e : Nat), e < 256 → (almEntry e s.dev).state = 2 → (almEntry e s.dev).handed = false →
      (almEntry e s.dev).instant - 250 * ms ≤ s.dev.house →
      exec (.adventHandoverDeadline e) s =
        .next (withDev s (failEntry e { status := 0x0008, epoch := s.dev.cfg.epoch.toNat } s.dev)))
    ∧ (∀ (e : Nat), e < 256 → (almEntry e s.dev).state = 1 → (almEntry e s.dev).instant - 250 * ms ≤ s.dev.house →
      exec (.adventHandoverDeadline e) s =
        .next (withDev s (failEntry e { status := 0x0008, epoch := s.dev.cfg.epoch.toNat } s.dev)))
    ∧ (∀ (e : Nat) (l : List Nat), strobeDue s.dev = e :: l →
      exec .commitStrobe s =
        (let t := (almEntry e s.dev).instant
         let group := (strobeDue s.dev).filter fun a => decide ((almEntry a s.dev).instant = t)
         let d := group.foldl (fun d a => strobeTable a (updAlm a (fun y => { y with strobed := true }) d)) s.dev
         .next (withDev s (settle (applyWaiting (fun w => match w.point with
           | .strobe u => decide (u ≤ t)
           | _ => false) d)))))
    ∧ (∀ (e : Nat), (almOrder (settle s.dev)).find? (fun e => (almEntry e (settle s.dev)).strobed) = some e →
      (((almOrder (settle s.dev)).filter fun a => decide ((almEntry a (settle s.dev)).instant = (almEntry e (settle s.dev)).instant)
        && (almEntry a (settle s.dev)).handed).all fun a => entryApplied a (settle s.dev)) = true →
      exec .commitRecord s =
        (let d := settle s.dev
         let t := (almEntry e d).instant
         let group := (almOrder d).filter fun a => decide ((almEntry a d).instant = t) && (almEntry a d).handed
         let counts := group.map fun a => (a, (almEntry a d).built.length)
         let d := group.foldl (fun d a => closeEntry a d) d
         let d := bumpEpoch (cfgBump gCOMMITS { d with
           cfg.lastT := t, cfg.lastEntry := e, cfg.lastChanges := total (counts.map (·.2)) })
         .next (withDev s (counts.foldl (fun d c => postEntry { code := 0x0802, object := c.1, time := ns48 t,
                                                                   data := le 4 c.2 ++ le 4 d.cfg.epoch.toNat } d) d))))
    ∧ (∀ (b : Nat) (w : Waiting) (l : List Waiting),
      ((s.dev.cfg.waiting.filter (rearmable b s.dev)).filter fun w => pointPassed w.point s.dev) = w :: l →
      exec (.blockRearm b) s =
        (let d := { s.dev with cfg.waiting := s.dev.cfg.waiting.map fun w => if rearmable b s.dev w then { w with lost := false } else w }
         let d := postEvent 0x0804 (w.armed.getD 0) (le 1 b) (major 0x0C0 b (cfgBump gLATE_ARMS d))
         .next (withDev s (applyWaiting (fun x => (w :: l).any (fun y => decide (y.change = x.change ∧ y.armed = x.armed)) && (match x.point with
           | .strobe t => decide (t ≤ d.house)
           | _ => false)) d))))
    ∧ (∀ (b : Nat), ((s.dev.cfg.waiting.filter (rearmable b s.dev)).filter fun w => pointPassed w.point s.dev) = [] →
      exec (.blockRearm b) s = .next (withDev s { s.dev with
        cfg.waiting := s.dev.cfg.waiting.map fun w => if rearmable b s.dev w then { w with lost := false } else w }))

/-- What each of these does where it comes about, and that the step then goes on: each message of the twin link, received in a frame the receiver acts on, and the messages sent. What the statement does not name stands. -/
def Obligations.TwinMessages : Prop := ∀ (s : State),
    (∀ (h : LinkHdr) (m : HelloMsg), FrameTaken h s.dev →
      exec (.hello h m) s = .next (withDev s (helloReceived m (frameTaken h s.dev))))
    ∧ (∀ (h : LinkHdr) (m : HeartbeatMsg), FrameTaken h s.dev →
      exec (.heartbeat h m) s = .next (withDev s (heartbeatReceived m (frameTaken h s.dev))))
    ∧ (twinUp s.dev = true → s.dev.twn.lastHbSent + 100 * us ≤ s.dev.up →
      exec .heartbeatSend s = .next (withDev s
        (sendTwin (.heartbeat (heartbeatOf s.dev)) { s.dev with twn.lastHbSent := s.dev.up })))
    ∧ (∀ (h : LinkHdr) (leftS : Nat) (leftNs : Time) (cameS : Nat) (cameNs : Time), FrameTaken h s.dev →
      exec (.time h leftS leftNs cameS cameNs) s = .next (withDev s (timeReceived h.ack (leftS * sec + leftNs) (cameS * sec + cameNs) (frameTaken h s.dev))))
    ∧ (twinUp s.dev = true → s.dev.twn.lastTimeSent + ms ≤ s.dev.up →
      exec .timeSend s = .next (withDev s
        (sendTwin (.time s.dev.house (s.dev.twn.timeIn.getD 0)) { s.dev with twn.lastTimeSent := s.dev.up })))
    ∧ (∀ (h : LinkHdr) (fk pk : BitVec 128) (at_ : Time), FrameTaken h s.dev →
      exec (.keys h fk pk at_) s = .next (withDev s (keysReceived fk pk at_ (frameTaken h s.dev))))
    ∧ (∀ (h : LinkHdr) (l : List (BitVec 256)), FrameTaken h s.dev →
      exec (.ledger h l) s = .next (withDev s (ledgerReceived l (frameTaken h s.dev))))
    ∧ (∀ (h : LinkHdr) (m : DigestMsg), FrameTaken h s.dev →
      exec (.digest h m) s = .next (withDev s (digestReceived m (frameTaken h s.dev))))
    ∧ (∀ (h : LinkHdr) (m : MirrorMsg), FrameTaken h s.dev →
      exec (.mirror h m) s = .next (withDev s (mirrorReceived m s.hbm (frameTaken h s.dev))))
    ∧ (∀ (h : LinkHdr) (instant : Time) (epoch : Nat), FrameTaken h s.dev →
      inPairRole (frameTaken h s.dev) = true → roleMode (frameTaken h s.dev) = SHADOW →
      exec (.handover h instant epoch) s =
        .next (withDev s ({ frameTaken h s.dev with twn.plan := some ⟨instant, epoch, none⟩ })))
    ∧ (∀ (h : LinkHdr) (reason : Nat), FrameTaken h s.dev → (frameTaken h s.dev).twn.pair ≠ 0 →
      exec (.leave h reason) s = .next (withDev s (leaveReceived reason (frameTaken h s.dev))))
    ∧ (∀ (h : LinkHdr) (lo hi : Word) (pass : Bool), FrameTaken h s.dev →
      exec (.inset h lo hi pass) s = .next (withDev s (insetReceived lo hi pass (frameTaken h s.dev))))
    ∧ (∀ (h : LinkHdr) (l : List (Nat × Nat)), FrameTaken h s.dev →
      exec (.seq h l) s = .next (withDev s (seqReceived l (frameTaken h s.dev))))

/-- What each of these does where it comes about, and that the step then goes on: replay, link loss and return, acknowledgements, heartbeat loss, witnesses, pairing, handover and Vigil. What the statement does not name stands. -/
def Obligations.TwinEvents : Prop := ∀ (s : State),
    (twinUp s.dev = true → s.dev.twn.replay ≠ [] → s.dev.twn.ackAt + 10 * us ≤ s.dev.up →
      exec .replayTimeout s = .next (withDev s (let d := s.dev
      d.twn.replay.foldl (fun d f =>
        let (f, d) := depart f d
        putWords (frameWords f d.twn.rxSeq) { d with twn.replay := d.twn.replay ++ [f] })
      (twnBump tRETRANSMIT d.twn.replay.length { d with twn.ackAt := d.up, twn.replay := [] }))))
    ∧ (twinUp s.dev = true → s.dev.twn.heardAt + 100 * us ≤ s.dev.up →
      exec .twinLinkDown s = .next (withDev s (linkFell s.dev)))
    ∧ (blocksRun s.dev = true → twinUp s.dev = false → twinLanesUp s.dev = true → s.dev.twn.peerUp = true →
      (0x0A, 0) ∉ s.dev.flt.inReset → (0x0A, 0) ∉ s.dev.flt.quarantine →
      exec .twinLinkUp s = .next (withDev s (linkRose s.dev)))
    ∧ (∀ (pins : List PinTrace), blocksRun s.dev = true → s.dev.twn.ackSampled + 100 * us ≤ s.dev.up →
      exec (.claimAckDecode pins) s = .next (withDev s (decodePins pins s.dev)))
    ∧ (s.dev.twn.suppress = false → s.dev.mode = HANDOVER → ∀ t, s.dev.twn.takenAt = some t →
      (claimFrame t s.dev).1 + 2 * (claimFrame t s.dev).2 ≤ s.dev.house →
      exec .claimAckWindow s = .next (withDev s (unacked s.dev)))
    ∧ (s.dev.twn.beat = true → s.dev.twn.lastBeat + (s.dev.twn.hb : Rat) * ms / 2 ≤ s.dev.up →
      exec .heartbeatTimeout s = .next (withDev s (heartbeatLost s.dev)))
    ∧ (s.dev.mode = HANDOVER → s.dev.twn.judgedAt + 100 * us ≤ s.dev.up →
      exec .witnessJudgement s = .next (withDev s (judge { s.dev with twn.judgedAt := s.dev.up })))
    ∧ ((s.dev.twn.pair = 1 ∨ s.dev.twn.resync = true) → s.dev.twn.step = 4 → ∀ t, s.dev.twn.tm = some t →
      t ≤ s.dev.house →
      exec .pairingCommit s = .next (withDev s (settle (pairingCommit s.hbm s.dev))))
    ∧ (s.dev.twn.pair = 1 → s.dev.twn.step = 5 → blocksRun s.dev = true → ∀ t, s.dev.twn.ts = some t →
      t ≤ s.dev.house →
      exec .pairingService s = .next (withDev s (pairingService s.dev)))
    ∧ (∀ (tg : Nat) (p : HandoverPlan), s.dev.twn.plan = some p → inPairRole s.dev = true → p.t ≤ s.dev.house →
      (p.t ≤ tgBoundary tg s.dev ∨ rasters s.dev = []) →
      exec (.handoverBoundary tg) s = .next (withDev s (swapRoles p s.dev)))
    ∧ (vigilRuns s.dev = true → s.dev.twn.fit = false → ∀ t, s.dev.twn.passSince = some t →
      t + (s.dev.twn.settle : Rat) * sec ≤ s.dev.up →
      exec .vigilSettle s = .next (withDev s (setFit true s.dev)))

/-- What each of these does where it comes about, and that the step then goes on: reports, injections, wire checks, reset releases, windows, monitor samples, trips and resets. What the statement does not name stands. -/
def Obligations.FaultEvents : Prop := ∀ (s : State),
    (∀ (r : Report), s.dev.mode ≠ HELD →
      exec (.faultReport r) s = .next (withDev s (faultReport r s.dev)))
    ∧ (∀ (src : Nat), s.dev.mode ≠ HELD →
      exec (.injectedReport src) s = .next (withDev s (injectedReport src s.dev)))
    ∧ (s.dev.mode ≠ HELD → (∀ t, s.dev.flt.lastCheck = some t → t + 10 * ms ≤ s.dev.up) →
      exec .wireCheck s = .next (withDev s (wireCheck s.dev)))
    ∧ (∀ (src : Nat), s.dev.mode ≠ HELD → implemented src = true → ∀ t, s.dev.flt.lastCheck = some t →
      t + 100 * us ≤ s.dev.up →
      exec (.wireCheckTimeout src) s = .next (withDev s (wireBroken src s.dev)))
    ∧ (∀ (src : Nat), s.dev.mode ≠ HELD → implemented src = true →
      exec (.faultWireBroken src) s = .next (withDev s (wireBroken src s.dev)))
    ∧ (∀ (domain inst : Nat), (domain ≠ 6 ∨ (pc inst s.dev).state ≠ 1) → (domain, inst) ∈ s.dev.flt.inReset →
      exec (.domainResetRelease domain inst) s = .next (withDev s (releaseInstance domain inst s.dev)))
    ∧ (∀ (domain inst : Nat) (w : Window),
      s.dev.flt.windows.find? (fun w => decide (w.domain = domain ∧ w.inst = inst ∧ w.closeAt ≤ s.dev.up)) = some w →
      exec (.consequenceWindowClose domain inst) s = .next (withDev s (
        postEvent 0x0504 domain (le 2 inst ++ le 4 w.held) { s.dev with flt.windows := s.dev.flt.windows.erase w })))
    ∧ (∀ (i : Nat) (value : Int), i < 98 → sampleDue i s.dev = true →
      (s.dev.mode ≠ HELD ∨ (s.dev.rst.trip = true ∧ i < 16)) →
      exec (.monitorSample i value) s = .next (withDev s (monitorSample i value s.dev)))
    ∧ (tripDue s.dev = true →
      exec .thermalTrip s = .next (withDev s (deviceReset 4 s.dev)))
    ∧ (∀ (mv : List Nat), exec (.powerOnReset mv) s = .next (withDev s (powerOnReset mv s.dev)))
    ∧ (∀ (mv : List Nat), exec (.supplyLoss mv) s = .next (withDev s (supplyLoss mv s.dev)))
    ∧ (exec .sysResetN s = .next (withDev s (deviceReset 2 s.dev)))

/-- What each of these does where it comes about, and that the step then goes on: the steps of start-up, training, Perby's start, link resets, and the steps of update and activation. What the statement does not name stands. -/
def Obligations.BootEvents : Prop := ∀ (s : State),
    (s.dev.mode = HELD →
      exec .resetRelease s = .next (withDev s (resetRelease s.dev)))
    ∧ (∀ (copy0 copy1 : Bool), s.dev.mode = TRIM →
      exec (.trimLoadComplete copy0 copy1) s = .next (withDev s (trimLoaded copy0 copy1 s.dev)))
    ∧ (s.dev.mode = LOADER → s.dev.boot.records = false → clocksRun s.dev = true →
      exec .loaderBootRecords s = .next (withDev s (readRecords' s.dev)))
    ∧ (∀ (answers : Bool), s.dev.mode = LOADER → s.dev.boot.records = true → s.dev.boot.stage = 2 →
      s.dev.boot.loaded = false → storesRead answers s.dev = true →
      exec (.loaderStoreCheck answers) s = .next (withDev s (storeCheck answers s.dev)))
    ∧ (∀ (failed : List Nat), s.dev.mode = LOADER → s.dev.boot.records = true → s.dev.boot.trained = false →
      s.dev.boot.recordsAt + trainTime ≤ s.dev.up →
      exec (.hbmTrainingComplete failed) s = .next { s with hbm := [], dev := hbmTrained failed s.dev })
    ∧ (s.dev.mode = LOADER → s.dev.boot.trained = true → s.dev.boot.loaded = true → s.dev.host.perbyUp = false →
      exec .perbyStart s = .next { s with
        hbm := (stagingWrites 0 (storedImage s.dev) s.dev).foldl (fun m w => Mem.write m w.1 w.2) s.hbm,
        dev := perbyStart s.dev })
    ∧ (s.dev.mode ≠ HELD →
      exec .hostInterfaceReset s = .next (withDev s (hostReset s.dev)))
    ∧ (s.dev.mode ≠ HELD → (tget s.dev.tim.synths 11).locked = true →
      exec .pcieLinkUp s = .next (withDev s ({ s.dev with host.linkUp := true })))
    ∧ (s.dev.upd.state = 2 →
      exec .updVerifyComplete s = .next (withDev s (verifyDone s.dev)))
    ∧ (∀ (ok : Bool), s.dev.upd.state = 4 →
      exec (.updPlaceComplete ok) s = .next (withDev s (placeDone ok s.dev)))
    ∧ (s.dev.upd.state = 6 → s.dev.upd.instant - 500 * ms ≤ s.dev.house → s.dev.upd.prepared = false →
      exec .activationPrepare s = .next (withDev s (activationPrepare s.dev)))
    ∧ (s.dev.upd.state = 6 → s.dev.upd.instant ≤ s.dev.house → s.dev.upd.prepared = true →
      exec .activationStart s = .next (withDev s (activationStart s.dev)))
    ∧ (s.dev.upd.state = 7 →
      exec .activationComplete s = .next (withDev s (activated s.dev)))
    ∧ (∀ (o : Nat) (ok : Bool), o ≤ 24 → (tget s.dev.octets o).stage = 2 →
      (tget s.dev.octets o).visitAt + 26100 * us ≤ s.dev.up →
      exec (.roveReleasedSliceCalibrated o ok) s = .next (withDev s (let d := s.dev
      let d := updOct o (fun x => { x with stage := 0, roveLane := 0xF, spare := ok }) d
      if ok then d else major (0x100 + 8 * o + 4) o d)))
    ∧ (∀ t, s.dev.upd.laneIdle = some t → t + ms ≤ s.dev.up →
      exec .laneControllerRestartEnd s = .next (withDev s (laneControllersUp s.dev)))
    ∧ (∀ (mac : Nat), blocksRun s.dev = true → perbyServes s.dev = true → mac < 16 →
      exec (.controlPlaneRingFrame mac) s = .next (withDev s (controlFrame mac s.dev)))
    ∧ (∀ (n : Nat), 192 ≤ n → n < 196 → (lane n s.dev).rxState = 3 →
      exec (.twinReceiverInvertToggle n) s = .next (withDev s
        (laneBump n cINVERT 1 (updLane n (fun l => { l with invert := !l.invert }) s.dev))))

/-- A staged request (R402): with its bank not open it is answered 0x0006, with no room 0x0005, and otherwise its changes are appended to the bank (R423); the command itself is not executed. -/
def Obligations.StagedRequests : Prop := ∀ (b op : Nat) (q : Req) (s : State) (c : CmdSpec),
    b < 4 → serves q.mbx s.dev = true → famSpec op = some c → c.len q.payload = true → c.stageable = true →
    s.dev.mode ≠ SAFE → roleMode s.dev ≠ SHADOW → (roleMode s.dev = LEAD → s.dev.twn.plan = none) → loaderServes s.dev = false →
    badField (c.fields q.payload) q.payload = none →
    let f := 0x8000 + b * 2 ^ 13
    ((bank b s.dev).state ≠ 1 →
      exec (.stagedRequest b op q) s
        = .next (withDev s (answer q.mbx op f q.tag { status := 0x0006, detail := 0xFB00 + b } s.dev)))
    ∧ ((bank b s.dev).state = 1 → bankRoom (bank b s.dev).changes (stagedChanges op q.payload) = false →
      exec (.stagedRequest b op q) s
        = .next (withDev s (answer q.mbx op f q.tag { status := 0x0005, detail := 0xFB10 + b } s.dev)))
    ∧ ((bank b s.dev).state = 1 → bankRoom (bank b s.dev).changes (stagedChanges op q.payload) = true →
      exec (.stagedRequest b op q) s
        = .next (withDev s (answer q.mbx op f q.tag { payload := le 4 (bank b s.dev).changes.length }
            (let d := updBank b (fun x => { x with changes := x.changes ++ stagedChanges op q.payload }) s.dev
             if mirrorLead s.dev = true then sendMirror (mirrorOf (some b) op { payload := q.payload } s.dev.house s.dev) d else d))))

/-- A step takes the command at the front of the queue and runs it on the state with the queue's rest; on an empty queue the block passes one cycle (log entry 1, DESIGN CHOICE). -/
def Obligations.StepRunsFront : Prop := 
    (∀ (i : Instr) (rest : List Instr) (s : State),
    s.pending = i :: rest → step s = exec i { s with pending := rest })
    ∧ (∀ (s : State), s.pending = [] →
    ∃ t, step s = .next t ∧ t.dev = latchSnaps s.hbm (idle s.dev) ∧ t.hbm = s.hbm ∧ t.pending = [])

/-- No command stops the block: exec answers a next state for every command and state, with the queue as it was. Where a rule refuses a host command, the refusal is an answer (R404); an event whose condition does not hold leaves the state (log entry 2). -/
def Obligations.ExecCompletes : Prop := ∀ (i : Instr) (s : State), ∃ t, exec i s = .next t ∧ t.pending = s.pending

/-- What reset leaves, by the reset values of the field maps and the mode of R511. -/
def Obligations.ResetState : Prop :=
    State.reset.dev.mode = HELD ∧ State.reset.pending = [] ∧ State.reset.dev.host.perbyUp = false
    ∧ State.reset.dev.host.debug = false ∧ State.reset.dev.host.evt.prod = 0 ∧ State.reset.dev.host.evt.cons = 0
    ∧ (∀ n, (mailbox n State.reset.dev).state = 0) ∧ State.reset.dev.flt.valid = false ∧ State.reset.dev.flt.fatal = false
    ∧ State.reset.dev.cfg.epoch = 0 ∧ (∀ b, (bank b State.reset.dev).state = 0) ∧ State.reset.dev.twn.pair = 0
    ∧ (∀ n, claimSupplied State.reset.dev = 0 ∧ (lane n State.reset.dev).rxEn = false)

/-- The invariant Canonical holds after reset; what an unlisted address reads as is log entry 4. -/
def Obligations.ResetCanonical : Prop := Canonical State.reset

/-- The invariant of memory: whichever command is at the front, a step leaves HBM in its one canonical form, so that equal memories are equal data (the form is the model's own; what memory holds is R231 and R396). -/
def Obligations.StepKeepsCanonical : Prop := ∀ (s t : State), Canonical s → step s = .next t → Canonical t

/-- The frame of memory: a command that is not one of these few leaves every byte of HBM (R399 says of Perby that only a command whose response names the range writes the staging region). -/
def Obligations.HbmFrame : Prop := ∀ (i : Instr) (s t : State), writesHbm i = false → exec i s = .next t → t.hbm = s.hbm

/-- BAR2 byte b is byte b of the staging region (R396): a write stores its bytes where `sysAddr` places them and changes no other byte, and a read of good words returns them. The clause of one byte excludes channels that do not answer (log entry 52). -/
def Obligations.StagingAccess : Prop := ∀ (a len : Nat) (bytes : List Byte) (s : State),
    s.dev.host.linkUp = true → s.dev.host.bar2Ready = true →
    (Canonical s → a + bytes.length ≤ stagingBytes → ∃ t, exec (.bar2Access true a len bytes) s = .next t
      ∧ (∀ x, (∀ i, i < bytes.length → x ≠ sysAddr (a + i) s.dev) → Mem.read t.hbm x = Mem.read s.hbm x)
      ∧ (∀ b, bytes = [b] → pcBad (pc (sysAddr a s.dev / 2 ^ 30) s.dev) = false → Mem.read t.hbm (sysAddr a s.dev) = b))
    ∧ (a + len ≤ stagingBytes → (∀ w ∈ stagingWords a len s.dev, wordBad w.1 w.2.1 s.dev = false) →
      ∃ t, exec (.bar2Access false a len bytes) s = .next t ∧ t.hbm = s.hbm ∧ t.dev.host.completion = 0
        ∧ t.dev.host.bytes = stagingRead s.hbm s.dev a len)

/-- The words of planes (R238): packing samples into a 256-bit word and unpacking it are inverse, whatever the codes. The payload words of LEDGER (R467): no field of an entry is lost. -/
def Obligations.PictureWords : Prop :=
    (∀ (b n : Nat) (codes : List Nat), codes.length = n → b * n ≤ 256 →
      (packWord b codes).length = 32 ∧ unpackWord b n (packWord b codes) = codes.map (· % 2 ^ b))
    ∧ (∀ (x : LedgerEntry), ledgerFits x → ledgerOf (ledgerWord x) = some x)

/-- Where pictures are stored (R237 to R240): nothing outside the slot changes, its words lying where `slotAddr` places them (R244). That an engine composes its picture again when a word of its source has been found poisoned is log entry 236. -/
def Obligations.PictureStores : Prop :=
    (∀ (r n : Nat) (fabric : List WordErr) (x : Slot) (s : State), let u := recomposeAll s
      Canonical u → writingFrame r false u.dev = some n → writeEnds r u.dev = true → slotOf (stream r u.dev) n = some x →
      ∃ t, exec (.producerFrameReady r fabric) s = .next t
        ∧ ∀ a, ¬ inSlot r (stream r u.dev) x a → Mem.read t.hbm a = Mem.read u.hbm a)
    ∧ (∀ (e j q r n : Nat) (x : Slot) (s : State), Canonical s →
      ((engine e s.dev).frames.find? fun f => decide (f.1 = j)) = some (j, r, n) → slotOf (stream r s.dev) n = some x →
      ∀ a, ¬ inSlot r (stream r s.dev) x a → Mem.read (composePicture e j q s).hbm a = Mem.read s.hbm a)
    ∧ (∀ (e j r n : Nat) (x : Slot) (s : State), Canonical s → (engine e s.dev).lastJ = some j →
      ((engine e s.dev).frames.find? fun f => decide (f.1 = j)) = some (j, r, n) → slotOf (stream r s.dev) n = some x →
      ∀ a, ¬ inSlot r (stream r s.dev) x a → Mem.read (recompose e s).hbm a = Mem.read s.hbm a)

/-- The placement of R244: the keyed shuffle is a permutation, every N consecutive granules of a slot lie on N different pseudo-channels, and no word of the ring is placed on another. -/
def Obligations.KeyedPlacement : Prop :=
    (∀ (key : BitVec 128) (r n : Nat), (permutation key r n).Perm (List.range n))
    ∧ (∀ (r t g i j : Nat) (l : Layout), l.set.Nodup → (∀ x ∈ l.extents, x < 8192) → i < j → j < l.set.length →
      slotAddr l (layoutPi r l) t (64 * (g + i)) / 2 ^ 30 ≠ slotAddr l (layoutPi r l) t (64 * (g + j)) / 2 ^ 30)
    ∧ (∀ (r t u w v : Nat) (l : Layout), l.set.Nodup → l.extents.Nodup → (∀ x ∈ l.extents, x < 8192) → 0 < l.set.length →
      l.depth * layoutQ l ≤ 64 * l.extents.length → t < l.depth → u < l.depth → w < 64 * l.g → v < 64 * l.g →
      slotAddr l (layoutPi r l) t w = slotAddr l (layoutPi r l) u v → t = u ∧ w = v)

/-- R401 whole: doorbells and window writes while BUSY, the response window, and what the request window returns. -/
def Obligations.MailboxWindows : Prop := ∀ (n : Nat) (s : State), n < 16 → s.dev.host.linkUp = true →
    (∀ tag, (mailbox n s.dev).state = 1 →
      exec (.mbxDb n tag) s = .next (withDev s (updMbx n (fun m => { m with dbErr := true }) s.dev)))
    ∧ (∀ off bytes, (mailbox n s.dev).state = 1 → off < 0x1000 → bytes ≠ [] →
      exec (.mailboxWindowWrite n off bytes) s = .next (withDev s (updMbx n (fun m => { m with wrErr := true }) s.dev)))
    ∧ (∀ off bytes, 0x1000 ≤ off → off < 0x2000 → exec (.mailboxWindowWrite n off bytes) s = .next s)
    ∧ (∀ off bytes, (mailbox n s.dev).state ≠ 1 → off < 0x1000 → bytes ≠ [] →
      ∃ t, exec (.mailboxWindowWrite n off bytes) s = .next t
        ∧ (∀ i, i < 0x2000 → windowByte (0x100000 + n * 0x2000 + i) t.dev
            = if off ≤ i ∧ i < off + bytes.length ∧ i < 0x1000 then bytes.getD (i - off) 0
              else windowByte (0x100000 + n * 0x2000 + i) s.dev))

/-- A doorbell moves a mailbox from IDLE or DONE to BUSY (R400); where no firmware serves it, it is ignored and sets DB_ERR (R576). -/
def Obligations.DoorbellStates : Prop := ∀ (n : Nat) (tag : Word) (s : State), n < 16 → s.dev.host.linkUp = true →
    (mailbox n s.dev).state ≠ 1 →
    (mailboxServed n s.dev = true → ∃ t, exec (.mbxDb n tag) s = .next t ∧ (mailbox n t.dev).state = 1
      ∧ (mailbox n t.dev).tag = tag ∧ (∀ k, k ≠ n → mailbox k t.dev = mailbox k s.dev))
    ∧ (mailboxServed n s.dev = false → ∃ t, exec (.mbxDb n tag) s = .next t
      ∧ mailbox n t.dev = { mailbox n s.dev with dbErr := true } ∧ (∀ k, k ≠ n → mailbox k t.dev = mailbox k s.dev))

/-- Perby's answer (R405): the response header and payload, DONE, one response more; a completion event is owed from a 0x0001 answer (R408). -/
def Obligations.AnswerWritten : Prop := ∀ (n op f : Nat) (tag : Word) (r : Reply) (d : Dev),
    (mailbox n (answer n op f tag r d)).state = 2
    ∧ (mailbox n (answer n op f tag r d)).resps = (mailbox n d).resps + 1
    ∧ (mailbox n (answer n op f tag r d)).response
        = le 2 op ++ le 2 f ++ le 4 tag.toNat ++ le 4 r.payload.length ++ le 2 r.status ++ le 2 r.detail ++ r.payload
    ∧ (∀ k, k ≠ n → mailbox k (answer n op f tag r d) = mailbox k d)
    ∧ (answer n op f tag r d).host.evt.owed = d.host.evt.owed + b2n (decide (r.status = 1))

/-- The refusals that every command family shares (R403, R404, R408, R466, R576), each with no effect but the answer. Their order among one another is the model's choice (log entry 60). -/
def Obligations.CommandRefusals : Prop := ∀ (c : CmdSpec) (f : Nat) (q : Req) (s : State),
    let refused (st detail : Nat) : State :=
      withDev s (settle (answer q.mbx c.opcode f q.tag { status := st, detail := detail } s.dev))
    (serves q.mbx s.dev = false → hostCommand c f q s = s)
    ∧ (serves q.mbx s.dev = true →
      (c.len q.payload = false → hostCommand c f q s = refused 0x0004 0xF008)
      ∧ (c.len q.payload = true → loaderServes s.dev = false →
        (s.dev.mode = SAFE → c.safe = false → hostCommand c f q s = refused 0x0007 0)
        ∧ (s.dev.mode ≠ SAFE → roleMode s.dev = SHADOW → mirrored c = true → hostCommand c f q s = refused 0x0007 0)
        ∧ (s.dev.mode ≠ SAFE → roleMode s.dev ≠ SHADOW → ∀ o, badField (c.fields q.payload) q.payload = some o →
          hostCommand c f q s = refused 0x0004 o))
      ∧ (refusal c (argsOf q s) s.dev = none → (accept c (argsOf q s) s.dev).1.status = 1 → 256 ≤ s.dev.host.evt.owed →
        hostCommand c f q s = refused 0x0002 0))

/-- Every counter is 48 bits wide and wraps from 2^48 − 1 to 0 (R9). -/
def Obligations.CounterWrap : Prop := ∀ (c : Ctrs) (k : Nat),
    (tget (bump c k) k).toNat = ((tget c k).toNat + 1) % 2 ^ 48
    ∧ (tget c k = BitVec.allOnes 48 → tget (bump c k) k = 0) ∧ (∀ j, j ≠ k → tget (bump c k) j = tget c j)

/-- R24: the RS(36,32) checker corrects an error in any one symbol, the right one, and detects every error in two or three without correcting it; four or more lie outside the code's guarantee, and the statement says nothing of them (log entry 18). -/
def Obligations.CheckerSymbols : Prop := ∀ (e : SymErr), (e.map (·.1)).Nodup → (∀ x ∈ e, x.1 < 36 ∧ x.2 ≠ 0) →
    (e.length = 0 → checkOutcome e = .clean)
    ∧ (∀ x, e = [x] → checkOutcome e = .corrected ∧ correctedSymbol e = x.1)
    ∧ (e.length = 2 ∨ e.length = 3 → checkOutcome e = .poisoned)

/-- The event ring (R409, R410): a disabled class is discarded, an event with fewer than 257 entries free is lost unless of class 0, and otherwise the entry stands in its place. -/
def Obligations.EventRing : Prop := ∀ (e : EventEntry) (d : Dev),
    let c := e.code / 256 % 16
    let ev := d.host.evt
    (c ≠ 0 → ev.enabled.getLsbD c = false →
      postEntry e d = { d with host.evt.discard := ev.discard + 1 })
    ∧ (c ≠ 0 → ev.enabled.getLsbD c = true → 8192 - ev.present < 257 →
      postEntry e d = { d with host.evt.lost := ev.lost + 1, host.evt.lossPending := true })
    ∧ (c = 0 ∨ (ev.enabled.getLsbD c = true ∧ 257 ≤ 8192 - ev.present) →
      (postEntry e d).host.evt.prod = (ev.prod + 1) % 16384
      ∧ tget (postEntry e d).host.evt.ring (ev.prod % 8192) = { e with phase := bitOf ev.prod 13, loss := ev.lossPending }
      ∧ (∀ i, i ≠ ev.prod % 8192 → tget (postEntry e d).host.evt.ring i = tget ev.ring i)
      ∧ (postEntry e d).host.evt.lossPending = false ∧ (postEntry e d).host.evt.lost = ev.lost
      ∧ (postEntry e d).host.evt.discard = ev.discard ∧ (postEntry e d).host.mbx = d.host.mbx)

/-- R412 whole: sending a class vector disarms it, EVT_CONS re-arms, entries still present send theirs at once, and masked vectors wait for their unmasking. -/
def Obligations.VectorArming : Prop :=
    (∀ (v : Nat) (d : Dev), v < 64 →
      (d.host.msix.masked.getLsbD v = false → tget (signal v d).host.msix.sent v = tget d.host.msix.sent v + 1
        ∧ (signal v d).host.msix.pending = d.host.msix.pending)
      ∧ (d.host.msix.masked.getLsbD v = true → (signal v d).host.msix.pending.getLsbD v = true
        ∧ (signal v d).host.msix.sent = d.host.msix.sent)
      ∧ (unmask v d).host.msix.masked.getLsbD v = false ∧ (unmask v d).host.msix.pending.getLsbD v = false
      ∧ tget (unmask v d).host.msix.sent v = tget d.host.msix.sent v + b2n (d.host.msix.pending.getLsbD v)
      ∧ (∀ u, u < 64 → u ≠ v → (unmask v d).host.msix.masked.getLsbD u = d.host.msix.masked.getLsbD u))
    ∧ (∀ (e : EventEntry) (d : Dev),
      let c := e.code / 256 % 16
      (d.host.evt.armed.getLsbD c = true →
        (∀ j, j < 16 → (writeEntry e d).host.evt.armed.getLsbD j = (d.host.evt.armed.getLsbD j && decide (j ≠ c)))
        ∧ (writeEntry e d).host.msix = (signal (16 + c) d).host.msix)
      ∧ (d.host.evt.armed.getLsbD c = false →
        (writeEntry e d).host.evt.armed = d.host.evt.armed ∧ (writeEntry e d).host.msix = d.host.msix))
    ∧ (∀ (i : Nat) (d : Dev), i < 16384 → (i + 16384 - d.host.evt.cons) % 16384 ≤ d.host.evt.present →
      let t := evtCons i d
      let c := (tget d.host.evt.ring (i % 8192)).code / 256 % 16
      t.host.evt.cons = i
      ∧ (t.host.evt.present = 0 → t.host.evt.armed = 0xFFFF ∧ t.host.msix = d.host.msix)
      ∧ (t.host.evt.present ≠ 0 → (∀ j, j < 16 → t.host.evt.armed.getLsbD j = decide (j ≠ c))
        ∧ t.host.msix = (signal (16 + c) d).host.msix))

/-- The byte order of multi-byte fields (R10) and the time format of R11: truncation to a multiple of 2^-16 ns, and no loss on times that are one. -/
def Obligations.Formats : Prop :=
    (∀ (n v : Nat), (le n v).length = n ∧ leNat (le n v) = v % 256 ^ n
      ∧ (∀ i, i < n → (le n v)[i]? = some (BitVec.ofNat 8 (v / 256 ^ i % 256))))
    ∧ (∀ bytes : List Byte, le bytes.length (leNat bytes) = bytes)
    ∧ (∀ (t : Time), 0 ≤ t → t < 1000000000 * 2 ^ 48 →
      t96 t < 2 ^ 96 ∧ t96Ok (t96 t) = true ∧ ofT96 (t96 t) ≤ t ∧ t < ofT96 (t96 t) + 1 / 65536)
    ∧ (∀ v, v < 2 ^ 96 → t96Ok v = true → t96 (ofT96 v) = v)

/-- The NCO update: the slew law and the range of R42. -/
def Obligations.SlewLaw : Prop := ∀ (d : Dev),
    let r := (dropAbsent d).tim.ref
    let n := (ncoUpdate d).tim.ref
    n.f - r.f ≤ (r.slew : Rat) / 1000000 ∧ r.f - n.f ≤ (r.slew : Rat) / 1000000
    ∧ -100000000 ≤ n.ppt ∧ n.ppt ≤ 100000000 ∧ n.lastNco = d.house
    ∧ (∀ j, tget n.cands j = tget r.cands j) ∧ n.active = r.active

/-- R21 whole: reads return 0, writes have no effect, and the report's source, kind, instance and detail. -/
def Obligations.DecodeErrors : Prop := ∀ (m a v : Nat) (w : Bool) (mem : Mem) (d : Dev), m < 9 →
    (targetOf a = none → beatStore m w a v d = [] ∧
      beat m w a v mem d = ((3, 0), report 0x030 true (m + 16 * b2n w) a (masterBump m xDECODE_ERR 1 d)))
    ∧ (∀ t, targetOf a = some t → t ≠ 21 → reaches m t d = true →
      let e := masterBump m xACCESSES 1 (granted t m d)
      regWord a e = none → beatStore m w a v d = [] ∧
        beat m w a v mem d = ((3, 0), report 0x030 true (m + 16 * b2n w) a (masterBump m xDECODE_ERR 1 e)))
    ∧ (targetOf a = some 21 → reaches m 21 d = true →
      let e := masterBump m xACCESSES 1 (granted 21 m d)
      windowShows (a - 0xC0000000) 4 e = false → beatStore m w a v d = [] ∧
        beat m w a v mem d = ((3, 0), report 0x030 true (m + 16 * b2n w) a (masterBump m xDECODE_ERR 1 e)))

/-- An access of a master to the HBM window, which it does not reach, has no effect but its counter, its report and its completion (R413). -/
def Obligations.AccessDenied : Prop := ∀ (m b len : Nat) (w : Bool) (bytes : List Byte) (s : State),
    s.dev.mode ≠ HELD → m < 9 → reaches m 21 s.dev = false →
    exec (.controlWindowAccess m w b len bytes) s = .next (withDev s
      { report 0x031 true (m + 16 * b2n w) (0xC0000000 + b) (masterBump m xDENIED 1 s.dev) with
        host.bytes := if w then [] else le len 0, host.completion := 4 })

/-- R418: the debug window and its base, through M4; while DEBUG is 0 reads return 0 and writes are discarded. -/
def Obligations.DebugWindow : Prop := ∀ (x : Nat) (v : Word) (w : Bool) (s : State),
    s.dev.host.linkUp = true → x < 0x800000 → x % 4 = 0 →
    (s.dev.host.debug = true →
      let r := beat 4 w (s.dev.host.winBase * 2 ^ 23 + x) v.toNat s.hbm s.dev
      exec (.debugWindowAccess w x v) s = .next (withStore
        { r.2 with host.bytes := if w then [] else le 4 r.1.2, host.completion := r.1.1 }
        (beatStore 4 w (s.dev.host.winBase * 2 ^ 23 + x) v.toNat s.dev) s))
    ∧ (s.dev.host.debug = false → exec (.debugWindowAccess w x v) s = .next (withDev s
        { s.dev with host.bytes := if w then [] else le 4 0, host.completion := 0 }))

/-- The first-error latch (R493), the FATAL reaction of R489 and the contained reset of R498. That the reaction takes place once is log entry 131, and that no second reset starts is log entry 132 (DEDUCED). -/
def Obligations.FaultReactions : Prop :=
    (∀ (r : Report) (sev : Nat) (d : Dev),
    (d.flt.valid = true → latch r sev d = { d with flt.overflow := d.flt.overflow + 1 })
    ∧ (d.flt.valid = false → (latch r sev d).flt.valid = true ∧ (latch r sev d).flt.overflow = d.flt.overflow
      ∧ (latch r sev d).flt.first.source = r.src ∧ (latch r sev d).flt.first.code = r.code
      ∧ (latch r sev d).flt.first.inst = r.inst ∧ (latch r sev d).flt.first.time = ns48 d.house
      ∧ (latch r sev d).flt.first.mode = d.mode))
    ∧ (∀ (r : Report) (d : Dev),
    (d.flt.fatal = true ∨ d.mode = SAFE → fatalReaction r d = d)
    ∧ (d.flt.fatal = false → d.mode ≠ SAFE →
      (fatalReaction r d).mode = SAFE ∧ (fatalReaction r d).flt.safeHold = true ∧ (fatalReaction r d).flt.fatal = true
      ∧ (fatalReaction r d).flt.fatalSrc = r.src))
    ∧ (∀ (r : Report) (i : SrcInfo) (d : Dev),
    (i.domain, domainInst r.src r.inst) ∈ d.flt.inReset ∨ (i.domain, domainInst r.src r.inst) ∈ d.flt.quarantine →
    containedReset r i d = d)

/-- A device reset (R501): what it reaches and what survives. That RST_COUNT survives is log entry 130 (DEDUCED). -/
def Obligations.DeviceReset : Prop := ∀ (cause : Nat) (d : Dev),
    (deviceReset cause d).mode = HELD ∧ (deviceReset cause d).rst.last = cause
    ∧ (deviceReset cause d).flt.first = State.reset.dev.flt.first ∧ (deviceReset cause d).flt.fatal = false
    ∧ (deviceReset cause d).host = State.reset.dev.host ∧ (deviceReset cause d).cfg = State.reset.dev.cfg
    ∧ (deviceReset cause d).flash = d.flash ∧ (deviceReset cause d).drains = []
    ∧ (cause ≠ 1 → (deviceReset cause d).flt.prior = d.flt.first ∧ (deviceReset cause d).flt.priorFatal = d.flt.fatalSrc
      ∧ (deviceReset cause d).rst.count = d.rst.count + 1)
    ∧ (cause = 1 → (deviceReset cause d).flt.prior = State.reset.dev.flt.prior)

/-- CFG_EPOCH counts accepted changes of configuration (R431), and only stageable commands enter the values in force (R446). -/
def Obligations.ConfigurationEpoch : Prop := ∀ (c : CmdSpec) (a : Args) (t : Time) (d : Dev),
    (bookAccepted c a t d).cfg.epoch = d.cfg.epoch + BitVec.ofNat 32 (b2n c.config)
    ∧ (c.stageable = false → (bookAccepted c a t d).cfg.inForce = d.cfg.inForce)
end

