-- ==== Sys2Proof/Laws/Host.lean ====
section
/-! SUPPORT. What Perby's execution of a request can do: it is not served, it is refused with no effect, or it is taken. The
forms of a taken command, which claims cite. -/

namespace Sys2Proof.Machine

open Sys2Proof.Safety

/-- A mailbox that no firmware serves executes nothing. -/
theorem hostCommand_unserved {c : CmdSpec} {f : Nat} {r : Req} {s : State} (h : serves r.mbx s.dev = false) :
    hostCommand c f r s = s := by
  simp [hostCommand, h]

/-- A refused command has no effect but its answer. -/
theorem hostCommand_refused {c : CmdSpec} {f : Nat} {r : Req} {s : State} {st dt : Nat} (h : serves r.mbx s.dev = true)
    (hr : refusal c (argsOf r s) s.dev = some (st, dt)) :
    hostCommand c f r s
      = { s with dev := settle (answer r.mbx c.opcode f r.tag { status := st, detail := dt } s.dev) } := by
  simp [hostCommand, h, runCommand, hr, withStore]

/-- A taken command: its effect at its point, and its answer. -/
theorem hostCommand_taken {c : CmdSpec} {r : Req} {s : State} (h : Taken c r s) :
    hostCommand c 0 r s =
      answered c r s
        (replyOf c (acceptAt (c.point r.payload s.dev) c (argsOf r s) s.dev).1
          (c.reply (argsOf r s) s.dev (acceptAt (c.point r.payload s.dev) c (argsOf r s) s.dev).2))
        (acceptAt (c.point r.payload s.dev) c (argsOf r s) s.dev).2 (c.store (argsOf r s) s.dev) := by
  obtain ⟨h1, h2, h3⟩ := h
  have h4 : ¬ 256 ≤ s.dev.host.evt.owed := Nat.not_le.mpr h3
  simp only [hostCommand, h1, if_true, runCommand, h2, accept, h4, and_false, if_false, answered]
  rfl

/-- A command that disables nothing takes effect at its point. -/
theorem acceptAt_atPoint {c : CmdSpec} {r : Req} {s : State} (hd : c.disables = none) (ha : c.ahead = fun _ d => d) :
    (acceptAt (c.point r.payload s.dev) c (argsOf r s) s.dev).2 = atPoint c r s (c.apply (argsOf r s)) := by
  unfold acceptAt atPoint runSpec
  rw [hd, ha]
  split <;> simp_all [argsOf]

/-- A taken command that disables nothing and answers what its state before and after say. -/
theorem hostCommand_reply {c : CmdSpec} {r : Req} {s : State} (h : Taken c r s) (hd : c.disables = none)
    (ha : c.ahead = fun _ d => d) :
    hostCommand c 0 r s =
      answered c r s (c.reply (argsOf r s) s.dev (atPoint c r s (c.apply (argsOf r s)))) (atPoint c r s (c.apply (argsOf r s)))
        (c.store (argsOf r s) s.dev) := by
  rw [hostCommand_taken h, acceptAt_atPoint hd ha]
  simp [replyOf, hd]

/-- A taken command that answers 0x0000 alone. -/
theorem hostCommand_done {c : CmdSpec} {r : Req} {s : State} (h : Taken c r s) (hd : c.disables = none)
    (ha : c.ahead = fun _ d => d) (hr : c.reply = fun _ _ _ => {}) (hs : c.store = fun _ _ => []) :
    hostCommand c 0 r s = doneAfter c r s (c.apply (argsOf r s)) := by
  rw [hostCommand_reply h hd ha, hr, hs]; rfl

/-- A taken command that disables functions. -/
theorem hostCommand_disable {c : CmdSpec} {r : Req} {s : State} {fs : List Byte → Dev → List Func} (h : Taken c r s)
    (hd : c.disables = some fs) (hr : c.reply = fun _ _ _ => {}) (hs : c.store = fun _ _ => [])
    (hp : c.point = fun _ _ => .now) :
    hostCommand c 0 r s =
      disabled c r s (stopped c r (c.ahead (argsOf r s) s.dev) (fs r.payload (c.ahead (argsOf r s) s.dev)))
        (c.apply (argsOf r s)) := by
  rw [hostCommand_taken h, hp, hr, hs]
  have hx : acceptAt .now c (argsOf r s) s.dev =
      ((stopped c r (c.ahead (argsOf r s) s.dev) (fs r.payload (c.ahead (argsOf r s) s.dev))).1,
       c.apply (argsOf r s) (stopped c r (c.ahead (argsOf r s) s.dev) (fs r.payload (c.ahead (argsOf r s) s.dev))).2) := by
    simp only [acceptAt, runSpec, hd, Bool.false_or]
    rfl
  rw [hx]
  generalize stopped c r (c.ahead (argsOf r s) s.dev) (fs r.payload (c.ahead (argsOf r s) s.dev)) = x
  unfold disabled replyOf
  by_cases hn : x.1 = ocNone <;> simp [hd, hn]

end Sys2Proof.Machine
end

