-- ==== Sys2Proof/Laws/Tab.lean ====
section
/-! SUPPORT. Tables and memory: a read after a write gives what was written, a write leaves every other place alone, and
every memory operation keeps the canonical form. -/

namespace Sys2Proof.Machine

variable {α : Type}

theorem tget_tdrop_same [Inhabited α] (t : Tab α) (k : Nat) : tget (tdrop k t) k = default := by
  induction t with
  | nil => rfl
  | cons e t ih =>
    unfold tdrop
    split
    · exact ih
    · simp [tget, *]

theorem tget_tdrop_ne [Inhabited α] (t : Tab α) {j k : Nat} (h : j ≠ k) : tget (tdrop k t) j = tget t j := by
  induction t with
  | nil => rfl
  | cons e t ih =>
    unfold tdrop
    split
    · next he => rw [ih]; simp [tget, show e.1 ≠ j by omega]
    · simp [tget, ih]

theorem tget_tinsert_ne [Inhabited α] (t : Tab α) {j k : Nat} (v : α) (h : j ≠ k) :
    tget (tinsert k v t) j = tget t j := by
  induction t with
  | nil => simp [tinsert, tget, Ne.symm h]
  | cons e t ih =>
    unfold tinsert
    split
    · simp [tget, Ne.symm h]
    · simp [tget, ih]

theorem tget_tinsert_drop [Inhabited α] (t : Tab α) (k : Nat) (v : α) : tget (tinsert k v (tdrop k t)) k = v := by
  induction t with
  | nil => simp [tdrop, tinsert, tget]
  | cons e t ih =>
    unfold tdrop
    split
    · exact ih
    · unfold tinsert
      split
      · simp [tget]
      · simp [tget, *]

/-- Reading a table's entry after it is set. -/
@[simp] theorem tget_tset_same [Inhabited α] [DecidableEq α] (t : Tab α) (k : Nat) (v : α) : tget (tset t k v) k = v := by
  unfold tset
  split
  · next h => rw [tget_tdrop_same, h]
  · exact tget_tinsert_drop t k v

/-- Setting an entry leaves the others alone. -/
theorem tget_tset_ne [Inhabited α] [DecidableEq α] (t : Tab α) {j k : Nat} (v : α) (h : j ≠ k) :
    tget (tset t k v) j = tget t j := by
  unfold tset
  split
  · exact tget_tdrop_ne t h
  · rw [tget_tinsert_ne _ _ h, tget_tdrop_ne t h]

/-- What a table holds after one entry is set. -/
theorem tget_tset [Inhabited α] [DecidableEq α] (t : Tab α) (j k : Nat) (v : α) :
    tget (tset t k v) j = if j = k then v else tget t j := by
  split
  · next h => rw [h, tget_tset_same]
  · next h => exact tget_tset_ne t v h

/-- What a table holds after one entry is changed. -/
theorem tget_tupd [Inhabited α] [DecidableEq α] (t : Tab α) (j k : Nat) (f : α → α) :
    tget (tupd t k f) j = if j = k then f (tget t k) else tget t j := tget_tset t j k _

@[simp] theorem tget_tupd_same [Inhabited α] [DecidableEq α] (t : Tab α) (k : Nat) (f : α → α) :
    tget (tupd t k f) k = f (tget t k) := tget_tset_same t k _

theorem tget_tupd_ne [Inhabited α] [DecidableEq α] (t : Tab α) {j k : Nat} (f : α → α) (h : j ≠ k) :
    tget (tupd t k f) j = tget t j := tget_tset_ne t _ h

/-- A counter that is increased; every other counter of the table stands (R9). -/
theorem tget_bumpBy (c : Ctrs) (j k n : Nat) :
    tget (bumpBy c k n) j = if j = k then tget c k + BitVec.ofNat 48 n else tget c j := tget_tset c j k _

/-! ### Memory -/

theorem Mem.wfAbove_mono {a b : Nat} (h : a ≤ b) : ∀ {m : Mem}, Mem.wfAbove b m = true → Mem.wfAbove a m = true
  | [], _ => rfl
  | e :: m, hw => by
    simp only [Mem.wfAbove, Bool.and_eq_true, decide_eq_true_eq] at hw ⊢
    exact ⟨⟨by omega, hw.1.2⟩, hw.2⟩

theorem Mem.wfAbove_write : ∀ (m : Mem) {a k : Nat} (b : Byte), a ≤ k → Mem.wfAbove a m = true →
    Mem.wfAbove a (Mem.write m k b) = true
  | [], a, k, b, h, _ => by
    unfold Mem.write
    split
    · rfl
    · simp [Mem.wfAbove, *]
  | e :: m, a, k, b, h, hw => by
    simp only [Mem.wfAbove, Bool.and_eq_true, decide_eq_true_eq] at hw
    unfold Mem.write
    split
    · split
      · simp [Mem.wfAbove, hw]
      · simp only [Mem.wfAbove, Bool.and_eq_true, decide_eq_true_eq]
        exact ⟨⟨h, by assumption⟩, ⟨by omega, hw.1.2⟩, hw.2⟩
    · split
      · split
        · exact Mem.wfAbove_mono (by omega) hw.2
        · simp only [Mem.wfAbove, Bool.and_eq_true, decide_eq_true_eq]
          exact ⟨⟨h, by assumption⟩, by rw [show k = e.1 by assumption]; exact hw.2⟩
      · simp only [Mem.wfAbove, Bool.and_eq_true, decide_eq_true_eq]
        exact ⟨hw.1, Mem.wfAbove_write m b (by omega) hw.2⟩

/-- Writing a byte keeps the canonical form. -/
theorem Mem.wf_write {m : Mem} (h : m.wf = true) (a : Nat) (b : Byte) : (Mem.write m a b).wf = true :=
  Mem.wfAbove_write m b (Nat.zero_le a) h

/-- Writing any list of bytes, each at its address, keeps the canonical form. -/
theorem Mem.wf_foldl_write : ∀ (l : List (Nat × Byte)) {m : Mem}, m.wf = true →
    (l.foldl (fun m b => Mem.write m b.1 b.2) m).wf = true
  | [], _, h => h
  | b :: l, _, h => Mem.wf_foldl_write l (Mem.wf_write h b.1 b.2)

/-- Storing a byte string keeps the canonical form. -/
theorem Mem.wf_writeN : ∀ (l : List Byte) {m : Mem} (a : Nat), m.wf = true → (Mem.writeN m a l).wf = true
  | [], _, _, h => h
  | b :: l, _, a, h => Mem.wf_writeN l (a + 1) (Mem.wf_write h a b)

@[simp] theorem Mem.wf_nil : Mem.wf [] = true := rfl

theorem Mem.read_of_above : ∀ {m : Mem} {a k : Nat}, Mem.wfAbove k m = true → a < k → Mem.read m a = Mem.unlisted
  | [], _, _, _, _ => rfl
  | e :: m, a, k, hw, h => by
    simp only [Mem.wfAbove, Bool.and_eq_true, decide_eq_true_eq] at hw
    unfold Mem.read
    rw [if_neg (by omega)]
    exact Mem.read_of_above hw.2 (by omega)

theorem Mem.read_write_above : ∀ (m : Mem) {a k : Nat} (b : Byte) (c : Nat), Mem.wfAbove a m = true →
    Mem.read (Mem.write m k b) c = if c = k then b else Mem.read m c
  | [], a, k, b, c, _ => by
    unfold Mem.write
    by_cases hb : b = Mem.unlisted
    · by_cases hc : c = k <;> simp [Mem.read, hb, hc]
    · by_cases hc : c = k
      · simp [Mem.read, hb, hc]
      · simp [Mem.read, hb, hc, Ne.symm hc]
  | e :: m, a, k, b, c, hw => by
    simp only [Mem.wfAbove, Bool.and_eq_true, decide_eq_true_eq] at hw
    unfold Mem.write
    split
    · next hk =>
      split
      · next hb =>
        split
        · next hc =>
          subst hc; subst hb
          unfold Mem.read
          rw [if_neg (by omega)]
          exact Mem.read_of_above hw.2 (by omega)
        · rfl
      · by_cases hc : c = k
        · simp [Mem.read, hc]
        · simp [Mem.read, hc, Ne.symm hc]
    · split
      · next hk he =>
        split
        · next hb =>
          split
          · next hc => rw [hc, hb]; exact Mem.read_of_above hw.2 (by omega)
          · next hc => conv_rhs => unfold Mem.read
                       rw [if_neg (by omega)]
        · by_cases hc : c = k
          · simp [Mem.read, hc]
          · simp [Mem.read, hc, Ne.symm hc, show e.1 ≠ c by omega]
      · next hk he =>
        by_cases hc : e.1 = c
        · simp [Mem.read, hc, show c ≠ k by omega]
        · simp only [Mem.read, if_neg hc]
          exact Mem.read_write_above m b c hw.2

/-- A read after a write: the byte written at its address, every other byte as before. -/
theorem Mem.read_write {m : Mem} (h : m.wf = true) (k : Nat) (b : Byte) (c : Nat) :
    Mem.read (Mem.write m k b) c = if c = k then b else Mem.read m c := Mem.read_write_above m b c h

end Sys2Proof.Machine
end

