-- ==== Sys2Proof/Laws/State.lean ====
section
/-! SUPPORT. The updates of the device: the field that each changes, the entry read back, and the fields that stand. All but
the entries read back are true by definition. -/

namespace Sys2Proof.Machine

@[simp] theorem updTb_tim (n : Nat) (f : TimeBase → TimeBase) (d : Dev) : (updTb n f d).tim = { d.tim with tbs := tupd d.tim.tbs n f } := rfl

@[simp] theorem updTb_frame (n : Nat) (f : TimeBase → TimeBase) (d : Dev) :
    (updTb n f d).house = d.house ∧ (updTb n f d).up = d.up ∧ (updTb n f d).free = d.free ∧ (updTb n f d).mode = d.mode
    ∧ (updTb n f d).served = d.served ∧ (updTb n f d).host = d.host ∧ (updTb n f d).cfg = d.cfg
    ∧ (updTb n f d).drains = d.drains ∧ (updTb n f d).flt = d.flt ∧ (updTb n f d).rst = d.rst ∧ (updTb n f d).boot = d.boot
    ∧ (updTb n f d).flash = d.flash ∧ (updTb n f d).upd = d.upd ∧ (updTb n f d).pins = d.pins ∧ (updTb n f d).twn = d.twn
    ∧ (updTb n f d).octets = d.octets ∧ (updTb n f d).lanes = d.lanes ∧ (updTb n f d).sdiRx = d.sdiRx
    ∧ (updTb n f d).sdiTx = d.sdiTx ∧ (updTb n f d).mlinks = d.mlinks ∧ (updTb n f d).ports = d.ports
    ∧ (updTb n f d).macs = d.macs ∧ (updTb n f d).flows = d.flows ∧ (updTb n f d).memc = d.memc ∧ (updTb n f d).fab = d.fab
    ∧ (updTb n f d).cnv = d.cnv ∧ (updTb n f d).aud = d.aud :=
  ⟨rfl, rfl, rfl, rfl, rfl, rfl, rfl, rfl, rfl, rfl, rfl, rfl, rfl, rfl, rfl, rfl, rfl, rfl, rfl, rfl, rfl, rfl, rfl, rfl, rfl, rfl, rfl⟩

theorem updTb_get (m n : Nat) (f : TimeBase → TimeBase) (d : Dev) :
    tget (updTb n f d).tim.tbs m = if m = n then f (tget d.tim.tbs n) else tget d.tim.tbs m := tget_tupd _ m n f

@[simp] theorem updCand_tim (n : Nat) (f : Cand → Cand) (d : Dev) : (updCand n f d).tim = { d.tim with ref.cands := tupd d.tim.ref.cands n f } := rfl

@[simp] theorem updCand_frame (n : Nat) (f : Cand → Cand) (d : Dev) :
    (updCand n f d).house = d.house ∧ (updCand n f d).up = d.up ∧ (updCand n f d).free = d.free
    ∧ (updCand n f d).mode = d.mode ∧ (updCand n f d).served = d.served ∧ (updCand n f d).host = d.host
    ∧ (updCand n f d).cfg = d.cfg ∧ (updCand n f d).drains = d.drains ∧ (updCand n f d).flt = d.flt
    ∧ (updCand n f d).rst = d.rst ∧ (updCand n f d).boot = d.boot ∧ (updCand n f d).flash = d.flash
    ∧ (updCand n f d).upd = d.upd ∧ (updCand n f d).pins = d.pins ∧ (updCand n f d).twn = d.twn
    ∧ (updCand n f d).octets = d.octets ∧ (updCand n f d).lanes = d.lanes ∧ (updCand n f d).sdiRx = d.sdiRx
    ∧ (updCand n f d).sdiTx = d.sdiTx ∧ (updCand n f d).mlinks = d.mlinks ∧ (updCand n f d).ports = d.ports
    ∧ (updCand n f d).macs = d.macs ∧ (updCand n f d).flows = d.flows ∧ (updCand n f d).memc = d.memc
    ∧ (updCand n f d).fab = d.fab ∧ (updCand n f d).cnv = d.cnv ∧ (updCand n f d).aud = d.aud :=
  ⟨rfl, rfl, rfl, rfl, rfl, rfl, rfl, rfl, rfl, rfl, rfl, rfl, rfl, rfl, rfl, rfl, rfl, rfl, rfl, rfl, rfl, rfl, rfl, rfl, rfl, rfl, rfl⟩

theorem updCand_get (m n : Nat) (f : Cand → Cand) (d : Dev) :
    cand m (updCand n f d) = if m = n then f (cand n d) else cand m d := tget_tupd _ m n f

@[simp] theorem updPulse_tim (n : Nat) (f : Pulse → Pulse) (d : Dev) : (updPulse n f d).tim = { d.tim with pulses := tupd d.tim.pulses n f } := rfl

@[simp] theorem updPulse_frame (n : Nat) (f : Pulse → Pulse) (d : Dev) :
    (updPulse n f d).house = d.house ∧ (updPulse n f d).up = d.up ∧ (updPulse n f d).free = d.free
    ∧ (updPulse n f d).mode = d.mode ∧ (updPulse n f d).served = d.served ∧ (updPulse n f d).host = d.host
    ∧ (updPulse n f d).cfg = d.cfg ∧ (updPulse n f d).drains = d.drains ∧ (updPulse n f d).flt = d.flt
    ∧ (updPulse n f d).rst = d.rst ∧ (updPulse n f d).boot = d.boot ∧ (updPulse n f d).flash = d.flash
    ∧ (updPulse n f d).upd = d.upd ∧ (updPulse n f d).pins = d.pins ∧ (updPulse n f d).twn = d.twn
    ∧ (updPulse n f d).octets = d.octets ∧ (updPulse n f d).lanes = d.lanes ∧ (updPulse n f d).sdiRx = d.sdiRx
    ∧ (updPulse n f d).sdiTx = d.sdiTx ∧ (updPulse n f d).mlinks = d.mlinks ∧ (updPulse n f d).ports = d.ports
    ∧ (updPulse n f d).macs = d.macs ∧ (updPulse n f d).flows = d.flows ∧ (updPulse n f d).memc = d.memc
    ∧ (updPulse n f d).fab = d.fab ∧ (updPulse n f d).cnv = d.cnv ∧ (updPulse n f d).aud = d.aud :=
  ⟨rfl, rfl, rfl, rfl, rfl, rfl, rfl, rfl, rfl, rfl, rfl, rfl, rfl, rfl, rfl, rfl, rfl, rfl, rfl, rfl, rfl, rfl, rfl, rfl, rfl, rfl, rfl⟩

theorem updPulse_get (m n : Nat) (f : Pulse → Pulse) (d : Dev) :
    tget (updPulse n f d).tim.pulses m = if m = n then f (tget d.tim.pulses n) else tget d.tim.pulses m := tget_tupd _ m n f

@[simp] theorem updSynth_tim (n : Nat) (f : Synth → Synth) (d : Dev) : (updSynth n f d).tim = { d.tim with synths := tupd d.tim.synths n f } := rfl

@[simp] theorem updSynth_frame (n : Nat) (f : Synth → Synth) (d : Dev) :
    (updSynth n f d).house = d.house ∧ (updSynth n f d).up = d.up ∧ (updSynth n f d).free = d.free
    ∧ (updSynth n f d).mode = d.mode ∧ (updSynth n f d).served = d.served ∧ (updSynth n f d).host = d.host
    ∧ (updSynth n f d).cfg = d.cfg ∧ (updSynth n f d).drains = d.drains ∧ (updSynth n f d).flt = d.flt
    ∧ (updSynth n f d).rst = d.rst ∧ (updSynth n f d).boot = d.boot ∧ (updSynth n f d).flash = d.flash
    ∧ (updSynth n f d).upd = d.upd ∧ (updSynth n f d).pins = d.pins ∧ (updSynth n f d).twn = d.twn
    ∧ (updSynth n f d).octets = d.octets ∧ (updSynth n f d).lanes = d.lanes ∧ (updSynth n f d).sdiRx = d.sdiRx
    ∧ (updSynth n f d).sdiTx = d.sdiTx ∧ (updSynth n f d).mlinks = d.mlinks ∧ (updSynth n f d).ports = d.ports
    ∧ (updSynth n f d).macs = d.macs ∧ (updSynth n f d).flows = d.flows ∧ (updSynth n f d).memc = d.memc
    ∧ (updSynth n f d).fab = d.fab ∧ (updSynth n f d).cnv = d.cnv ∧ (updSynth n f d).aud = d.aud :=
  ⟨rfl, rfl, rfl, rfl, rfl, rfl, rfl, rfl, rfl, rfl, rfl, rfl, rfl, rfl, rfl, rfl, rfl, rfl, rfl, rfl, rfl, rfl, rfl, rfl, rfl, rfl, rfl⟩

theorem updSynth_get (m n : Nat) (f : Synth → Synth) (d : Dev) :
    tget (updSynth n f d).tim.synths m = if m = n then f (tget d.tim.synths n) else tget d.tim.synths m := tget_tupd _ m n f

@[simp] theorem updLane_lanes (n : Nat) (f : Lane → Lane) (d : Dev) : (updLane n f d).lanes = tupd d.lanes n f := rfl

@[simp] theorem updLane_frame (n : Nat) (f : Lane → Lane) (d : Dev) :
    (updLane n f d).house = d.house ∧ (updLane n f d).up = d.up ∧ (updLane n f d).free = d.free
    ∧ (updLane n f d).mode = d.mode ∧ (updLane n f d).served = d.served ∧ (updLane n f d).host = d.host
    ∧ (updLane n f d).cfg = d.cfg ∧ (updLane n f d).drains = d.drains ∧ (updLane n f d).flt = d.flt
    ∧ (updLane n f d).rst = d.rst ∧ (updLane n f d).boot = d.boot ∧ (updLane n f d).flash = d.flash
    ∧ (updLane n f d).upd = d.upd ∧ (updLane n f d).pins = d.pins ∧ (updLane n f d).twn = d.twn
    ∧ (updLane n f d).tim = d.tim ∧ (updLane n f d).octets = d.octets ∧ (updLane n f d).sdiRx = d.sdiRx
    ∧ (updLane n f d).sdiTx = d.sdiTx ∧ (updLane n f d).mlinks = d.mlinks ∧ (updLane n f d).ports = d.ports
    ∧ (updLane n f d).macs = d.macs ∧ (updLane n f d).flows = d.flows ∧ (updLane n f d).memc = d.memc
    ∧ (updLane n f d).fab = d.fab ∧ (updLane n f d).cnv = d.cnv ∧ (updLane n f d).aud = d.aud :=
  ⟨rfl, rfl, rfl, rfl, rfl, rfl, rfl, rfl, rfl, rfl, rfl, rfl, rfl, rfl, rfl, rfl, rfl, rfl, rfl, rfl, rfl, rfl, rfl, rfl, rfl, rfl, rfl⟩

theorem updLane_get (m n : Nat) (f : Lane → Lane) (d : Dev) :
    lane m (updLane n f d) = if m = n then f (lane n d) else lane m d := tget_tupd _ m n f

@[simp] theorem updOct_octets (n : Nat) (f : Octet → Octet) (d : Dev) : (updOct n f d).octets = tupd d.octets n f := rfl

@[simp] theorem updOct_frame (n : Nat) (f : Octet → Octet) (d : Dev) :
    (updOct n f d).house = d.house ∧ (updOct n f d).up = d.up ∧ (updOct n f d).free = d.free ∧ (updOct n f d).mode = d.mode
    ∧ (updOct n f d).served = d.served ∧ (updOct n f d).host = d.host ∧ (updOct n f d).cfg = d.cfg
    ∧ (updOct n f d).drains = d.drains ∧ (updOct n f d).flt = d.flt ∧ (updOct n f d).rst = d.rst
    ∧ (updOct n f d).boot = d.boot ∧ (updOct n f d).flash = d.flash ∧ (updOct n f d).upd = d.upd
    ∧ (updOct n f d).pins = d.pins ∧ (updOct n f d).twn = d.twn ∧ (updOct n f d).tim = d.tim
    ∧ (updOct n f d).lanes = d.lanes ∧ (updOct n f d).sdiRx = d.sdiRx ∧ (updOct n f d).sdiTx = d.sdiTx
    ∧ (updOct n f d).mlinks = d.mlinks ∧ (updOct n f d).ports = d.ports ∧ (updOct n f d).macs = d.macs
    ∧ (updOct n f d).flows = d.flows ∧ (updOct n f d).memc = d.memc ∧ (updOct n f d).fab = d.fab
    ∧ (updOct n f d).cnv = d.cnv ∧ (updOct n f d).aud = d.aud :=
  ⟨rfl, rfl, rfl, rfl, rfl, rfl, rfl, rfl, rfl, rfl, rfl, rfl, rfl, rfl, rfl, rfl, rfl, rfl, rfl, rfl, rfl, rfl, rfl, rfl, rfl, rfl, rfl⟩

theorem updOct_get (m n : Nat) (f : Octet → Octet) (d : Dev) :
    tget (updOct n f d).octets m = if m = n then f (tget d.octets n) else tget d.octets m := tget_tupd _ m n f

@[simp] theorem updRx_sdiRx (n : Nat) (f : SdiRx → SdiRx) (d : Dev) : (updRx n f d).sdiRx = tupd d.sdiRx n f := rfl

@[simp] theorem updRx_frame (n : Nat) (f : SdiRx → SdiRx) (d : Dev) :
    (updRx n f d).house = d.house ∧ (updRx n f d).up = d.up ∧ (updRx n f d).free = d.free ∧ (updRx n f d).mode = d.mode
    ∧ (updRx n f d).served = d.served ∧ (updRx n f d).host = d.host ∧ (updRx n f d).cfg = d.cfg
    ∧ (updRx n f d).drains = d.drains ∧ (updRx n f d).flt = d.flt ∧ (updRx n f d).rst = d.rst ∧ (updRx n f d).boot = d.boot
    ∧ (updRx n f d).flash = d.flash ∧ (updRx n f d).upd = d.upd ∧ (updRx n f d).pins = d.pins ∧ (updRx n f d).twn = d.twn
    ∧ (updRx n f d).tim = d.tim ∧ (updRx n f d).octets = d.octets ∧ (updRx n f d).lanes = d.lanes
    ∧ (updRx n f d).sdiTx = d.sdiTx ∧ (updRx n f d).mlinks = d.mlinks ∧ (updRx n f d).ports = d.ports
    ∧ (updRx n f d).macs = d.macs ∧ (updRx n f d).flows = d.flows ∧ (updRx n f d).memc = d.memc ∧ (updRx n f d).fab = d.fab
    ∧ (updRx n f d).cnv = d.cnv ∧ (updRx n f d).aud = d.aud :=
  ⟨rfl, rfl, rfl, rfl, rfl, rfl, rfl, rfl, rfl, rfl, rfl, rfl, rfl, rfl, rfl, rfl, rfl, rfl, rfl, rfl, rfl, rfl, rfl, rfl, rfl, rfl, rfl⟩

theorem updRx_get (m n : Nat) (f : SdiRx → SdiRx) (d : Dev) :
    rx m (updRx n f d) = if m = n then f (rx n d) else rx m d := tget_tupd _ m n f

@[simp] theorem updTx_sdiTx (n : Nat) (f : SdiTx → SdiTx) (d : Dev) : (updTx n f d).sdiTx = tupd d.sdiTx n f := rfl

@[simp] theorem updTx_frame (n : Nat) (f : SdiTx → SdiTx) (d : Dev) :
    (updTx n f d).house = d.house ∧ (updTx n f d).up = d.up ∧ (updTx n f d).free = d.free ∧ (updTx n f d).mode = d.mode
    ∧ (updTx n f d).served = d.served ∧ (updTx n f d).host = d.host ∧ (updTx n f d).cfg = d.cfg
    ∧ (updTx n f d).drains = d.drains ∧ (updTx n f d).flt = d.flt ∧ (updTx n f d).rst = d.rst ∧ (updTx n f d).boot = d.boot
    ∧ (updTx n f d).flash = d.flash ∧ (updTx n f d).upd = d.upd ∧ (updTx n f d).pins = d.pins ∧ (updTx n f d).twn = d.twn
    ∧ (updTx n f d).tim = d.tim ∧ (updTx n f d).octets = d.octets ∧ (updTx n f d).lanes = d.lanes
    ∧ (updTx n f d).sdiRx = d.sdiRx ∧ (updTx n f d).mlinks = d.mlinks ∧ (updTx n f d).ports = d.ports
    ∧ (updTx n f d).macs = d.macs ∧ (updTx n f d).flows = d.flows ∧ (updTx n f d).memc = d.memc ∧ (updTx n f d).fab = d.fab
    ∧ (updTx n f d).cnv = d.cnv ∧ (updTx n f d).aud = d.aud :=
  ⟨rfl, rfl, rfl, rfl, rfl, rfl, rfl, rfl, rfl, rfl, rfl, rfl, rfl, rfl, rfl, rfl, rfl, rfl, rfl, rfl, rfl, rfl, rfl, rfl, rfl, rfl, rfl⟩

theorem updTx_get (m n : Nat) (f : SdiTx → SdiTx) (d : Dev) :
    tx m (updTx n f d) = if m = n then f (tx n d) else tx m d := tget_tupd _ m n f

@[simp] theorem updPort_ports (n : Nat) (f : Port → Port) (d : Dev) : (updPort n f d).ports = tupd d.ports n f := rfl

@[simp] theorem updPort_frame (n : Nat) (f : Port → Port) (d : Dev) :
    (updPort n f d).house = d.house ∧ (updPort n f d).up = d.up ∧ (updPort n f d).free = d.free
    ∧ (updPort n f d).mode = d.mode ∧ (updPort n f d).served = d.served ∧ (updPort n f d).host = d.host
    ∧ (updPort n f d).cfg = d.cfg ∧ (updPort n f d).drains = d.drains ∧ (updPort n f d).flt = d.flt
    ∧ (updPort n f d).rst = d.rst ∧ (updPort n f d).boot = d.boot ∧ (updPort n f d).flash = d.flash
    ∧ (updPort n f d).upd = d.upd ∧ (updPort n f d).pins = d.pins ∧ (updPort n f d).twn = d.twn
    ∧ (updPort n f d).tim = d.tim ∧ (updPort n f d).octets = d.octets ∧ (updPort n f d).lanes = d.lanes
    ∧ (updPort n f d).sdiRx = d.sdiRx ∧ (updPort n f d).sdiTx = d.sdiTx ∧ (updPort n f d).mlinks = d.mlinks
    ∧ (updPort n f d).macs = d.macs ∧ (updPort n f d).flows = d.flows ∧ (updPort n f d).memc = d.memc
    ∧ (updPort n f d).fab = d.fab ∧ (updPort n f d).cnv = d.cnv ∧ (updPort n f d).aud = d.aud :=
  ⟨rfl, rfl, rfl, rfl, rfl, rfl, rfl, rfl, rfl, rfl, rfl, rfl, rfl, rfl, rfl, rfl, rfl, rfl, rfl, rfl, rfl, rfl, rfl, rfl, rfl, rfl, rfl⟩

theorem updPort_get (m n : Nat) (f : Port → Port) (d : Dev) :
    port m (updPort n f d) = if m = n then f (port n d) else port m d := tget_tupd _ m n f

@[simp] theorem updMac_macs (n : Nat) (f : Mac → Mac) (d : Dev) : (updMac n f d).macs = tupd d.macs n f := rfl

@[simp] theorem updMac_frame (n : Nat) (f : Mac → Mac) (d : Dev) :
    (updMac n f d).house = d.house ∧ (updMac n f d).up = d.up ∧ (updMac n f d).free = d.free ∧ (updMac n f d).mode = d.mode
    ∧ (updMac n f d).served = d.served ∧ (updMac n f d).host = d.host ∧ (updMac n f d).cfg = d.cfg
    ∧ (updMac n f d).drains = d.drains ∧ (updMac n f d).flt = d.flt ∧ (updMac n f d).rst = d.rst
    ∧ (updMac n f d).boot = d.boot ∧ (updMac n f d).flash = d.flash ∧ (updMac n f d).upd = d.upd
    ∧ (updMac n f d).pins = d.pins ∧ (updMac n f d).twn = d.twn ∧ (updMac n f d).tim = d.tim
    ∧ (updMac n f d).octets = d.octets ∧ (updMac n f d).lanes = d.lanes ∧ (updMac n f d).sdiRx = d.sdiRx
    ∧ (updMac n f d).sdiTx = d.sdiTx ∧ (updMac n f d).mlinks = d.mlinks ∧ (updMac n f d).ports = d.ports
    ∧ (updMac n f d).flows = d.flows ∧ (updMac n f d).memc = d.memc ∧ (updMac n f d).fab = d.fab
    ∧ (updMac n f d).cnv = d.cnv ∧ (updMac n f d).aud = d.aud :=
  ⟨rfl, rfl, rfl, rfl, rfl, rfl, rfl, rfl, rfl, rfl, rfl, rfl, rfl, rfl, rfl, rfl, rfl, rfl, rfl, rfl, rfl, rfl, rfl, rfl, rfl, rfl, rfl⟩

theorem updMac_get (m n : Nat) (f : Mac → Mac) (d : Dev) :
    tget (updMac n f d).macs m = if m = n then f (tget d.macs n) else tget d.macs m := tget_tupd _ m n f

@[simp] theorem updRxFlow_flows (n : Nat) (f : RxFlow → RxFlow) (d : Dev) : (updRxFlow n f d).flows = { d.flows with rx := tupd d.flows.rx n f } := rfl

@[simp] theorem updRxFlow_frame (n : Nat) (f : RxFlow → RxFlow) (d : Dev) :
    (updRxFlow n f d).house = d.house ∧ (updRxFlow n f d).up = d.up ∧ (updRxFlow n f d).free = d.free
    ∧ (updRxFlow n f d).mode = d.mode ∧ (updRxFlow n f d).served = d.served ∧ (updRxFlow n f d).host = d.host
    ∧ (updRxFlow n f d).cfg = d.cfg ∧ (updRxFlow n f d).drains = d.drains ∧ (updRxFlow n f d).flt = d.flt
    ∧ (updRxFlow n f d).rst = d.rst ∧ (updRxFlow n f d).boot = d.boot ∧ (updRxFlow n f d).flash = d.flash
    ∧ (updRxFlow n f d).upd = d.upd ∧ (updRxFlow n f d).pins = d.pins ∧ (updRxFlow n f d).twn = d.twn
    ∧ (updRxFlow n f d).tim = d.tim ∧ (updRxFlow n f d).octets = d.octets ∧ (updRxFlow n f d).lanes = d.lanes
    ∧ (updRxFlow n f d).sdiRx = d.sdiRx ∧ (updRxFlow n f d).sdiTx = d.sdiTx ∧ (updRxFlow n f d).mlinks = d.mlinks
    ∧ (updRxFlow n f d).ports = d.ports ∧ (updRxFlow n f d).macs = d.macs ∧ (updRxFlow n f d).memc = d.memc
    ∧ (updRxFlow n f d).fab = d.fab ∧ (updRxFlow n f d).cnv = d.cnv ∧ (updRxFlow n f d).aud = d.aud :=
  ⟨rfl, rfl, rfl, rfl, rfl, rfl, rfl, rfl, rfl, rfl, rfl, rfl, rfl, rfl, rfl, rfl, rfl, rfl, rfl, rfl, rfl, rfl, rfl, rfl, rfl, rfl, rfl⟩

theorem updRxFlow_get (m n : Nat) (f : RxFlow → RxFlow) (d : Dev) :
    rxFlow m (updRxFlow n f d) = if m = n then f (rxFlow n d) else rxFlow m d := tget_tupd _ m n f

@[simp] theorem updTxFlow_flows (n : Nat) (f : TxFlow → TxFlow) (d : Dev) : (updTxFlow n f d).flows = { d.flows with tx := tupd d.flows.tx n f } := rfl

@[simp] theorem updTxFlow_frame (n : Nat) (f : TxFlow → TxFlow) (d : Dev) :
    (updTxFlow n f d).house = d.house ∧ (updTxFlow n f d).up = d.up ∧ (updTxFlow n f d).free = d.free
    ∧ (updTxFlow n f d).mode = d.mode ∧ (updTxFlow n f d).served = d.served ∧ (updTxFlow n f d).host = d.host
    ∧ (updTxFlow n f d).cfg = d.cfg ∧ (updTxFlow n f d).drains = d.drains ∧ (updTxFlow n f d).flt = d.flt
    ∧ (updTxFlow n f d).rst = d.rst ∧ (updTxFlow n f d).boot = d.boot ∧ (updTxFlow n f d).flash = d.flash
    ∧ (updTxFlow n f d).upd = d.upd ∧ (updTxFlow n f d).pins = d.pins ∧ (updTxFlow n f d).twn = d.twn
    ∧ (updTxFlow n f d).tim = d.tim ∧ (updTxFlow n f d).octets = d.octets ∧ (updTxFlow n f d).lanes = d.lanes
    ∧ (updTxFlow n f d).sdiRx = d.sdiRx ∧ (updTxFlow n f d).sdiTx = d.sdiTx ∧ (updTxFlow n f d).mlinks = d.mlinks
    ∧ (updTxFlow n f d).ports = d.ports ∧ (updTxFlow n f d).macs = d.macs ∧ (updTxFlow n f d).memc = d.memc
    ∧ (updTxFlow n f d).fab = d.fab ∧ (updTxFlow n f d).cnv = d.cnv ∧ (updTxFlow n f d).aud = d.aud :=
  ⟨rfl, rfl, rfl, rfl, rfl, rfl, rfl, rfl, rfl, rfl, rfl, rfl, rfl, rfl, rfl, rfl, rfl, rfl, rfl, rfl, rfl, rfl, rfl, rfl, rfl, rfl, rfl⟩

theorem updTxFlow_get (m n : Nat) (f : TxFlow → TxFlow) (d : Dev) :
    txFlow m (updTxFlow n f d) = if m = n then f (txFlow n d) else txFlow m d := tget_tupd _ m n f

@[simp] theorem updStream_fab (n : Nat) (f : Stream → Stream) (d : Dev) : (updStream n f d).fab = { d.fab with streams := tupd d.fab.streams n f } := rfl

@[simp] theorem updStream_frame (n : Nat) (f : Stream → Stream) (d : Dev) :
    (updStream n f d).house = d.house ∧ (updStream n f d).up = d.up ∧ (updStream n f d).free = d.free
    ∧ (updStream n f d).mode = d.mode ∧ (updStream n f d).served = d.served ∧ (updStream n f d).host = d.host
    ∧ (updStream n f d).cfg = d.cfg ∧ (updStream n f d).drains = d.drains ∧ (updStream n f d).flt = d.flt
    ∧ (updStream n f d).rst = d.rst ∧ (updStream n f d).boot = d.boot ∧ (updStream n f d).flash = d.flash
    ∧ (updStream n f d).upd = d.upd ∧ (updStream n f d).pins = d.pins ∧ (updStream n f d).twn = d.twn
    ∧ (updStream n f d).tim = d.tim ∧ (updStream n f d).octets = d.octets ∧ (updStream n f d).lanes = d.lanes
    ∧ (updStream n f d).sdiRx = d.sdiRx ∧ (updStream n f d).sdiTx = d.sdiTx ∧ (updStream n f d).mlinks = d.mlinks
    ∧ (updStream n f d).ports = d.ports ∧ (updStream n f d).macs = d.macs ∧ (updStream n f d).flows = d.flows
    ∧ (updStream n f d).memc = d.memc ∧ (updStream n f d).cnv = d.cnv ∧ (updStream n f d).aud = d.aud :=
  ⟨rfl, rfl, rfl, rfl, rfl, rfl, rfl, rfl, rfl, rfl, rfl, rfl, rfl, rfl, rfl, rfl, rfl, rfl, rfl, rfl, rfl, rfl, rfl, rfl, rfl, rfl, rfl⟩

theorem updStream_get (m n : Nat) (f : Stream → Stream) (d : Dev) :
    stream m (updStream n f d) = if m = n then f (stream n d) else stream m d := tget_tupd _ m n f

@[simp] theorem updRaster_fab (n : Nat) (f : Raster → Raster) (d : Dev) : (updRaster n f d).fab = { d.fab with rasters := tupd d.fab.rasters n f } := rfl

@[simp] theorem updRaster_frame (n : Nat) (f : Raster → Raster) (d : Dev) :
    (updRaster n f d).house = d.house ∧ (updRaster n f d).up = d.up ∧ (updRaster n f d).free = d.free
    ∧ (updRaster n f d).mode = d.mode ∧ (updRaster n f d).served = d.served ∧ (updRaster n f d).host = d.host
    ∧ (updRaster n f d).cfg = d.cfg ∧ (updRaster n f d).drains = d.drains ∧ (updRaster n f d).flt = d.flt
    ∧ (updRaster n f d).rst = d.rst ∧ (updRaster n f d).boot = d.boot ∧ (updRaster n f d).flash = d.flash
    ∧ (updRaster n f d).upd = d.upd ∧ (updRaster n f d).pins = d.pins ∧ (updRaster n f d).twn = d.twn
    ∧ (updRaster n f d).tim = d.tim ∧ (updRaster n f d).octets = d.octets ∧ (updRaster n f d).lanes = d.lanes
    ∧ (updRaster n f d).sdiRx = d.sdiRx ∧ (updRaster n f d).sdiTx = d.sdiTx ∧ (updRaster n f d).mlinks = d.mlinks
    ∧ (updRaster n f d).ports = d.ports ∧ (updRaster n f d).macs = d.macs ∧ (updRaster n f d).flows = d.flows
    ∧ (updRaster n f d).memc = d.memc ∧ (updRaster n f d).cnv = d.cnv ∧ (updRaster n f d).aud = d.aud :=
  ⟨rfl, rfl, rfl, rfl, rfl, rfl, rfl, rfl, rfl, rfl, rfl, rfl, rfl, rfl, rfl, rfl, rfl, rfl, rfl, rfl, rfl, rfl, rfl, rfl, rfl, rfl, rfl⟩

theorem updRaster_get (m n : Nat) (f : Raster → Raster) (d : Dev) :
    raster m (updRaster n f d) = if m = n then f (raster n d) else raster m d := tget_tupd _ m n f

@[simp] theorem updEngine_cnv (n : Nat) (f : Engine → Engine) (d : Dev) : (updEngine n f d).cnv = { d.cnv with engines := tupd d.cnv.engines n f } := rfl

@[simp] theorem updEngine_frame (n : Nat) (f : Engine → Engine) (d : Dev) :
    (updEngine n f d).house = d.house ∧ (updEngine n f d).up = d.up ∧ (updEngine n f d).free = d.free
    ∧ (updEngine n f d).mode = d.mode ∧ (updEngine n f d).served = d.served ∧ (updEngine n f d).host = d.host
    ∧ (updEngine n f d).cfg = d.cfg ∧ (updEngine n f d).drains = d.drains ∧ (updEngine n f d).flt = d.flt
    ∧ (updEngine n f d).rst = d.rst ∧ (updEngine n f d).boot = d.boot ∧ (updEngine n f d).flash = d.flash
    ∧ (updEngine n f d).upd = d.upd ∧ (updEngine n f d).pins = d.pins ∧ (updEngine n f d).twn = d.twn
    ∧ (updEngine n f d).tim = d.tim ∧ (updEngine n f d).octets = d.octets ∧ (updEngine n f d).lanes = d.lanes
    ∧ (updEngine n f d).sdiRx = d.sdiRx ∧ (updEngine n f d).sdiTx = d.sdiTx ∧ (updEngine n f d).mlinks = d.mlinks
    ∧ (updEngine n f d).ports = d.ports ∧ (updEngine n f d).macs = d.macs ∧ (updEngine n f d).flows = d.flows
    ∧ (updEngine n f d).memc = d.memc ∧ (updEngine n f d).fab = d.fab ∧ (updEngine n f d).aud = d.aud :=
  ⟨rfl, rfl, rfl, rfl, rfl, rfl, rfl, rfl, rfl, rfl, rfl, rfl, rfl, rfl, rfl, rfl, rfl, rfl, rfl, rfl, rfl, rfl, rfl, rfl, rfl, rfl, rfl⟩

theorem updEngine_get (m n : Nat) (f : Engine → Engine) (d : Dev) :
    engine m (updEngine n f d) = if m = n then f (engine n d) else engine m d := tget_tupd _ m n f

@[simp] theorem updPc_memc (n : Nat) (f : Pc → Pc) (d : Dev) : (updPc n f d).memc = { d.memc with pcs := tupd d.memc.pcs n f } := rfl

@[simp] theorem updPc_frame (n : Nat) (f : Pc → Pc) (d : Dev) :
    (updPc n f d).house = d.house ∧ (updPc n f d).up = d.up ∧ (updPc n f d).free = d.free ∧ (updPc n f d).mode = d.mode
    ∧ (updPc n f d).served = d.served ∧ (updPc n f d).host = d.host ∧ (updPc n f d).cfg = d.cfg
    ∧ (updPc n f d).drains = d.drains ∧ (updPc n f d).flt = d.flt ∧ (updPc n f d).rst = d.rst ∧ (updPc n f d).boot = d.boot
    ∧ (updPc n f d).flash = d.flash ∧ (updPc n f d).upd = d.upd ∧ (updPc n f d).pins = d.pins ∧ (updPc n f d).twn = d.twn
    ∧ (updPc n f d).tim = d.tim ∧ (updPc n f d).octets = d.octets ∧ (updPc n f d).lanes = d.lanes
    ∧ (updPc n f d).sdiRx = d.sdiRx ∧ (updPc n f d).sdiTx = d.sdiTx ∧ (updPc n f d).mlinks = d.mlinks
    ∧ (updPc n f d).ports = d.ports ∧ (updPc n f d).macs = d.macs ∧ (updPc n f d).flows = d.flows
    ∧ (updPc n f d).fab = d.fab ∧ (updPc n f d).cnv = d.cnv ∧ (updPc n f d).aud = d.aud :=
  ⟨rfl, rfl, rfl, rfl, rfl, rfl, rfl, rfl, rfl, rfl, rfl, rfl, rfl, rfl, rfl, rfl, rfl, rfl, rfl, rfl, rfl, rfl, rfl, rfl, rfl, rfl, rfl⟩

theorem updPc_get (m n : Nat) (f : Pc → Pc) (d : Dev) :
    pc m (updPc n f d) = if m = n then f (pc n d) else pc m d := tget_tupd _ m n f

@[simp] theorem updBank_cfg (n : Nat) (f : Bank → Bank) (d : Dev) : (updBank n f d).cfg = { d.cfg with banks := tupd d.cfg.banks n f } := rfl

@[simp] theorem updBank_frame (n : Nat) (f : Bank → Bank) (d : Dev) :
    (updBank n f d).house = d.house ∧ (updBank n f d).up = d.up ∧ (updBank n f d).free = d.free
    ∧ (updBank n f d).mode = d.mode ∧ (updBank n f d).served = d.served ∧ (updBank n f d).host = d.host
    ∧ (updBank n f d).drains = d.drains ∧ (updBank n f d).flt = d.flt ∧ (updBank n f d).rst = d.rst
    ∧ (updBank n f d).boot = d.boot ∧ (updBank n f d).flash = d.flash ∧ (updBank n f d).upd = d.upd
    ∧ (updBank n f d).pins = d.pins ∧ (updBank n f d).twn = d.twn ∧ (updBank n f d).tim = d.tim
    ∧ (updBank n f d).octets = d.octets ∧ (updBank n f d).lanes = d.lanes ∧ (updBank n f d).sdiRx = d.sdiRx
    ∧ (updBank n f d).sdiTx = d.sdiTx ∧ (updBank n f d).mlinks = d.mlinks ∧ (updBank n f d).ports = d.ports
    ∧ (updBank n f d).macs = d.macs ∧ (updBank n f d).flows = d.flows ∧ (updBank n f d).memc = d.memc
    ∧ (updBank n f d).fab = d.fab ∧ (updBank n f d).cnv = d.cnv ∧ (updBank n f d).aud = d.aud :=
  ⟨rfl, rfl, rfl, rfl, rfl, rfl, rfl, rfl, rfl, rfl, rfl, rfl, rfl, rfl, rfl, rfl, rfl, rfl, rfl, rfl, rfl, rfl, rfl, rfl, rfl, rfl, rfl⟩

theorem updBank_get (m n : Nat) (f : Bank → Bank) (d : Dev) :
    bank m (updBank n f d) = if m = n then f (bank n d) else bank m d := tget_tupd _ m n f

@[simp] theorem updAlm_cfg (n : Nat) (f : AlmEntry → AlmEntry) (d : Dev) : (updAlm n f d).cfg = { d.cfg with alm := tupd d.cfg.alm n f } := rfl

@[simp] theorem updAlm_frame (n : Nat) (f : AlmEntry → AlmEntry) (d : Dev) :
    (updAlm n f d).house = d.house ∧ (updAlm n f d).up = d.up ∧ (updAlm n f d).free = d.free ∧ (updAlm n f d).mode = d.mode
    ∧ (updAlm n f d).served = d.served ∧ (updAlm n f d).host = d.host ∧ (updAlm n f d).drains = d.drains
    ∧ (updAlm n f d).flt = d.flt ∧ (updAlm n f d).rst = d.rst ∧ (updAlm n f d).boot = d.boot
    ∧ (updAlm n f d).flash = d.flash ∧ (updAlm n f d).upd = d.upd ∧ (updAlm n f d).pins = d.pins
    ∧ (updAlm n f d).twn = d.twn ∧ (updAlm n f d).tim = d.tim ∧ (updAlm n f d).octets = d.octets
    ∧ (updAlm n f d).lanes = d.lanes ∧ (updAlm n f d).sdiRx = d.sdiRx ∧ (updAlm n f d).sdiTx = d.sdiTx
    ∧ (updAlm n f d).mlinks = d.mlinks ∧ (updAlm n f d).ports = d.ports ∧ (updAlm n f d).macs = d.macs
    ∧ (updAlm n f d).flows = d.flows ∧ (updAlm n f d).memc = d.memc ∧ (updAlm n f d).fab = d.fab
    ∧ (updAlm n f d).cnv = d.cnv ∧ (updAlm n f d).aud = d.aud :=
  ⟨rfl, rfl, rfl, rfl, rfl, rfl, rfl, rfl, rfl, rfl, rfl, rfl, rfl, rfl, rfl, rfl, rfl, rfl, rfl, rfl, rfl, rfl, rfl, rfl, rfl, rfl, rfl⟩

theorem updAlm_get (m n : Nat) (f : AlmEntry → AlmEntry) (d : Dev) :
    almEntry m (updAlm n f d) = if m = n then f (almEntry n d) else almEntry m d := tget_tupd _ m n f

@[simp] theorem updSource_flt (n : Nat) (f : Source → Source) (d : Dev) : (updSource n f d).flt = { d.flt with sources := tupd d.flt.sources n f } := rfl

@[simp] theorem updSource_frame (n : Nat) (f : Source → Source) (d : Dev) :
    (updSource n f d).house = d.house ∧ (updSource n f d).up = d.up ∧ (updSource n f d).free = d.free
    ∧ (updSource n f d).mode = d.mode ∧ (updSource n f d).served = d.served ∧ (updSource n f d).host = d.host
    ∧ (updSource n f d).cfg = d.cfg ∧ (updSource n f d).drains = d.drains ∧ (updSource n f d).rst = d.rst
    ∧ (updSource n f d).boot = d.boot ∧ (updSource n f d).flash = d.flash ∧ (updSource n f d).upd = d.upd
    ∧ (updSource n f d).pins = d.pins ∧ (updSource n f d).twn = d.twn ∧ (updSource n f d).tim = d.tim
    ∧ (updSource n f d).octets = d.octets ∧ (updSource n f d).lanes = d.lanes ∧ (updSource n f d).sdiRx = d.sdiRx
    ∧ (updSource n f d).sdiTx = d.sdiTx ∧ (updSource n f d).mlinks = d.mlinks ∧ (updSource n f d).ports = d.ports
    ∧ (updSource n f d).macs = d.macs ∧ (updSource n f d).flows = d.flows ∧ (updSource n f d).memc = d.memc
    ∧ (updSource n f d).fab = d.fab ∧ (updSource n f d).cnv = d.cnv ∧ (updSource n f d).aud = d.aud :=
  ⟨rfl, rfl, rfl, rfl, rfl, rfl, rfl, rfl, rfl, rfl, rfl, rfl, rfl, rfl, rfl, rfl, rfl, rfl, rfl, rfl, rfl, rfl, rfl, rfl, rfl, rfl, rfl⟩

theorem updSource_get (m n : Nat) (f : Source → Source) (d : Dev) :
    tget (updSource n f d).flt.sources m = if m = n then f (tget d.flt.sources n) else tget d.flt.sources m := tget_tupd _ m n f

@[simp] theorem updTarget_host (n : Nat) (f : Target → Target) (d : Dev) : (updTarget n f d).host = { d.host with targets := tupd d.host.targets n f } := rfl

@[simp] theorem updTarget_frame (n : Nat) (f : Target → Target) (d : Dev) :
    (updTarget n f d).house = d.house ∧ (updTarget n f d).up = d.up ∧ (updTarget n f d).free = d.free
    ∧ (updTarget n f d).mode = d.mode ∧ (updTarget n f d).served = d.served ∧ (updTarget n f d).cfg = d.cfg
    ∧ (updTarget n f d).drains = d.drains ∧ (updTarget n f d).flt = d.flt ∧ (updTarget n f d).rst = d.rst
    ∧ (updTarget n f d).boot = d.boot ∧ (updTarget n f d).flash = d.flash ∧ (updTarget n f d).upd = d.upd
    ∧ (updTarget n f d).pins = d.pins ∧ (updTarget n f d).twn = d.twn ∧ (updTarget n f d).tim = d.tim
    ∧ (updTarget n f d).octets = d.octets ∧ (updTarget n f d).lanes = d.lanes ∧ (updTarget n f d).sdiRx = d.sdiRx
    ∧ (updTarget n f d).sdiTx = d.sdiTx ∧ (updTarget n f d).mlinks = d.mlinks ∧ (updTarget n f d).ports = d.ports
    ∧ (updTarget n f d).macs = d.macs ∧ (updTarget n f d).flows = d.flows ∧ (updTarget n f d).memc = d.memc
    ∧ (updTarget n f d).fab = d.fab ∧ (updTarget n f d).cnv = d.cnv ∧ (updTarget n f d).aud = d.aud :=
  ⟨rfl, rfl, rfl, rfl, rfl, rfl, rfl, rfl, rfl, rfl, rfl, rfl, rfl, rfl, rfl, rfl, rfl, rfl, rfl, rfl, rfl, rfl, rfl, rfl, rfl, rfl, rfl⟩

theorem updTarget_get (m n : Nat) (f : Target → Target) (d : Dev) :
    target m (updTarget n f d) = if m = n then f (target n d) else target m d := tget_tupd _ m n f

@[simp] theorem updMbx_host (n : Nat) (f : Mailbox → Mailbox) (d : Dev) : (updMbx n f d).host = { d.host with mbx := tupd d.host.mbx n f } := rfl

@[simp] theorem updMbx_frame (n : Nat) (f : Mailbox → Mailbox) (d : Dev) :
    (updMbx n f d).house = d.house ∧ (updMbx n f d).up = d.up ∧ (updMbx n f d).free = d.free ∧ (updMbx n f d).mode = d.mode
    ∧ (updMbx n f d).served = d.served ∧ (updMbx n f d).cfg = d.cfg ∧ (updMbx n f d).drains = d.drains
    ∧ (updMbx n f d).flt = d.flt ∧ (updMbx n f d).rst = d.rst ∧ (updMbx n f d).boot = d.boot
    ∧ (updMbx n f d).flash = d.flash ∧ (updMbx n f d).upd = d.upd ∧ (updMbx n f d).pins = d.pins
    ∧ (updMbx n f d).twn = d.twn ∧ (updMbx n f d).tim = d.tim ∧ (updMbx n f d).octets = d.octets
    ∧ (updMbx n f d).lanes = d.lanes ∧ (updMbx n f d).sdiRx = d.sdiRx ∧ (updMbx n f d).sdiTx = d.sdiTx
    ∧ (updMbx n f d).mlinks = d.mlinks ∧ (updMbx n f d).ports = d.ports ∧ (updMbx n f d).macs = d.macs
    ∧ (updMbx n f d).flows = d.flows ∧ (updMbx n f d).memc = d.memc ∧ (updMbx n f d).fab = d.fab
    ∧ (updMbx n f d).cnv = d.cnv ∧ (updMbx n f d).aud = d.aud :=
  ⟨rfl, rfl, rfl, rfl, rfl, rfl, rfl, rfl, rfl, rfl, rfl, rfl, rfl, rfl, rfl, rfl, rfl, rfl, rfl, rfl, rfl, rfl, rfl, rfl, rfl, rfl, rfl⟩

theorem updMbx_get (m n : Nat) (f : Mailbox → Mailbox) (d : Dev) :
    mailbox m (updMbx n f d) = if m = n then f (mailbox n d) else mailbox m d := tget_tupd _ m n f

@[simp] theorem updSrc_aud (n : Nat) (f : AudSrc → AudSrc) (d : Dev) : (updSrc n f d).aud = { d.aud with srcs := tupd d.aud.srcs n f } := rfl

@[simp] theorem updSrc_frame (n : Nat) (f : AudSrc → AudSrc) (d : Dev) :
    (updSrc n f d).house = d.house ∧ (updSrc n f d).up = d.up ∧ (updSrc n f d).free = d.free ∧ (updSrc n f d).mode = d.mode
    ∧ (updSrc n f d).served = d.served ∧ (updSrc n f d).host = d.host ∧ (updSrc n f d).cfg = d.cfg
    ∧ (updSrc n f d).drains = d.drains ∧ (updSrc n f d).flt = d.flt ∧ (updSrc n f d).rst = d.rst
    ∧ (updSrc n f d).boot = d.boot ∧ (updSrc n f d).flash = d.flash ∧ (updSrc n f d).upd = d.upd
    ∧ (updSrc n f d).pins = d.pins ∧ (updSrc n f d).twn = d.twn ∧ (updSrc n f d).tim = d.tim
    ∧ (updSrc n f d).octets = d.octets ∧ (updSrc n f d).lanes = d.lanes ∧ (updSrc n f d).sdiRx = d.sdiRx
    ∧ (updSrc n f d).sdiTx = d.sdiTx ∧ (updSrc n f d).mlinks = d.mlinks ∧ (updSrc n f d).ports = d.ports
    ∧ (updSrc n f d).macs = d.macs ∧ (updSrc n f d).flows = d.flows ∧ (updSrc n f d).memc = d.memc
    ∧ (updSrc n f d).fab = d.fab ∧ (updSrc n f d).cnv = d.cnv :=
  ⟨rfl, rfl, rfl, rfl, rfl, rfl, rfl, rfl, rfl, rfl, rfl, rfl, rfl, rfl, rfl, rfl, rfl, rfl, rfl, rfl, rfl, rfl, rfl, rfl, rfl, rfl, rfl⟩

theorem updSrc_get (m n : Nat) (f : AudSrc → AudSrc) (d : Dev) :
    audSrc m (updSrc n f d) = if m = n then f (audSrc n d) else audSrc m d := tget_tupd _ m n f

@[simp] theorem updDst_aud (n : Nat) (f : AudDst → AudDst) (d : Dev) : (updDst n f d).aud = { d.aud with dsts := tupd d.aud.dsts n f } := rfl

@[simp] theorem updDst_frame (n : Nat) (f : AudDst → AudDst) (d : Dev) :
    (updDst n f d).house = d.house ∧ (updDst n f d).up = d.up ∧ (updDst n f d).free = d.free ∧ (updDst n f d).mode = d.mode
    ∧ (updDst n f d).served = d.served ∧ (updDst n f d).host = d.host ∧ (updDst n f d).cfg = d.cfg
    ∧ (updDst n f d).drains = d.drains ∧ (updDst n f d).flt = d.flt ∧ (updDst n f d).rst = d.rst
    ∧ (updDst n f d).boot = d.boot ∧ (updDst n f d).flash = d.flash ∧ (updDst n f d).upd = d.upd
    ∧ (updDst n f d).pins = d.pins ∧ (updDst n f d).twn = d.twn ∧ (updDst n f d).tim = d.tim
    ∧ (updDst n f d).octets = d.octets ∧ (updDst n f d).lanes = d.lanes ∧ (updDst n f d).sdiRx = d.sdiRx
    ∧ (updDst n f d).sdiTx = d.sdiTx ∧ (updDst n f d).mlinks = d.mlinks ∧ (updDst n f d).ports = d.ports
    ∧ (updDst n f d).macs = d.macs ∧ (updDst n f d).flows = d.flows ∧ (updDst n f d).memc = d.memc
    ∧ (updDst n f d).fab = d.fab ∧ (updDst n f d).cnv = d.cnv :=
  ⟨rfl, rfl, rfl, rfl, rfl, rfl, rfl, rfl, rfl, rfl, rfl, rfl, rfl, rfl, rfl, rfl, rfl, rfl, rfl, rfl, rfl, rfl, rfl, rfl, rfl, rfl, rfl⟩

theorem updDst_get (m n : Nat) (f : AudDst → AudDst) (d : Dev) :
    audDst m (updDst n f d) = if m = n then f (audDst n d) else audDst m d := tget_tupd _ m n f

end Sys2Proof.Machine
end

