-- ==== Sys2Proof/Laws/Ops.lean ====
section
/-! SUPPORT. What each shared operation can do, said once: the meanings that change the device alone, events and vectors, the
mode, the twin link's frames, an answer, and a link frame that is acted on. -/

namespace Sys2Proof.Machine

open Sys2Proof.Safety

/-- A meaning that changes the device alone. -/
theorem onDev_next (f : Dev → Dev) (s : State) : onDev f s = .next (withDev s (f s.dev)) := rfl

/-- An event in a state in which it comes about. -/
theorem onDevIf_next {c : Dev → Bool} {f : Dev → Dev} {s : State} (h : c s.dev = true) :
    onDevIf c f s = .next (withDev s (f s.dev)) := by
  simp [onDevIf, onDev, withDev, h]

/-- An event in a state in which it does not come about. -/
theorem onDevIf_unmet {c : Dev → Bool} {f : Dev → Dev} {s : State} (h : c s.dev = false) : onDevIf c f s = .next s := by
  simp [onDevIf, onDev, h]

/-- Whatever its condition, an event answers a next state with HBM and the queue as they were. -/
theorem onDevIf_frame (c : Dev → Bool) (f : Dev → Dev) (s : State) :
    ∃ d, onDevIf c f s = .next (withDev s d) := ⟨_, rfl⟩

@[simp] theorem withDev_dev (s : State) (d : Dev) : (withDev s d).dev = d := rfl
@[simp] theorem withDev_hbm (s : State) (d : Dev) : (withDev s d).hbm = s.hbm := rfl
@[simp] theorem withDev_pending (s : State) (d : Dev) : (withDev s d).pending = s.pending := rfl

@[simp] theorem withStore_dev (d : Dev) (w : List (Nat × Byte)) (s : State) : (withStore d w s).dev = d := rfl
@[simp] theorem withStore_pending (d : Dev) (w : List (Nat × Byte)) (s : State) : (withStore d w s).pending = s.pending := rfl
@[simp] theorem withStore_nil (d : Dev) (s : State) : withStore d [] s = withDev s d := rfl
@[simp] theorem withStore_hbm (d : Dev) (w : List (Nat × Byte)) (s : State) :
    (withStore d w s).hbm = w.foldl (fun m b => Mem.write m b.1 b.2) s.hbm := rfl

/-- A vector's signal changes the MSI-X table alone. -/
theorem signal_frame (v : Nat) (d : Dev) : ∃ m, signal v d = { d with host.msix := m } := by
  unfold signal; split <;> exact ⟨_, rfl⟩

/-- An event changes the event ring and the MSI-X table alone. -/
theorem writeEntry_frame (e : EventEntry) (d : Dev) :
    ∃ v m, writeEntry e d = { d with host.evt := v, host.msix := m } := by
  unfold writeEntry
  dsimp only
  split
  · obtain ⟨m, h⟩ := signal_frame (16 + e.code / 256 % 16) { d with
      host.evt := { d.host.evt with
        ring := tset d.host.evt.ring (d.host.evt.prod % 8192) { e with phase := bitOf d.host.evt.prod 13, loss := d.host.evt.lossPending },
        prod := (d.host.evt.prod + 1) % 16384, lossPending := false,
        armed := d.host.evt.armed &&& ~~~ (BitVec.ofNat 16 (2 ^ (e.code / 256 % 16))) } }
    exact ⟨_, m, h⟩
  · exact ⟨_, _, rfl⟩

theorem postEntry_frame (e : EventEntry) (d : Dev) : ∃ v m, postEntry e d = { d with host.evt := v, host.msix := m } := by
  unfold postEntry
  dsimp only
  split
  · exact ⟨_, _, rfl⟩
  · split
    · exact ⟨_, _, rfl⟩
    · exact writeEntry_frame e d

@[simp] theorem postEntry_mode (e : EventEntry) (d : Dev) : (postEntry e d).mode = d.mode := by
  obtain ⟨_, _, h⟩ := postEntry_frame e d; rw [h]
@[simp] theorem postEntry_flt (e : EventEntry) (d : Dev) : (postEntry e d).flt = d.flt := by
  obtain ⟨_, _, h⟩ := postEntry_frame e d; rw [h]
@[simp] theorem postEntry_twn (e : EventEntry) (d : Dev) : (postEntry e d).twn = d.twn := by
  obtain ⟨_, _, h⟩ := postEntry_frame e d; rw [h]
@[simp] theorem postEntry_cfg (e : EventEntry) (d : Dev) : (postEntry e d).cfg = d.cfg := by
  obtain ⟨_, _, h⟩ := postEntry_frame e d; rw [h]
@[simp] theorem postEntry_mbx (e : EventEntry) (d : Dev) : (postEntry e d).host.mbx = d.host.mbx := by
  obtain ⟨_, _, h⟩ := postEntry_frame e d; rw [h]

/-- A completion event changes the event ring, the MSI-X table and the events held back by a restart alone. -/
theorem complete_frame (m : Nat) (tag : Word) (op st oc : Nat) (d : Dev) :
    ∃ v x l, complete m tag op st oc d = { d with host.evt := v, host.msix := x, host.late := l } := by
  unfold complete
  dsimp only
  split
  · exact ⟨_, _, _, rfl⟩
  · split
    · exact ⟨_, _, _, rfl⟩
    · obtain ⟨v, x, h⟩ := postEntry_frame
        (⟨0x0001, false, false, tag, ns48 d.house, m, le 2 op ++ le 2 st ++ le 4 oc⟩ : EventEntry) d
      exact ⟨v, x, d.host.late, h⟩

/-- A change of claim is noted, and event 0x0702 tells of it. -/
theorem noteClaim_frame (d : Dev) :
    ∃ c v x, noteClaim d = { d with twn.lastClaim := c, host.evt := v, host.msix := x } := by
  unfold noteClaim postEvent
  dsimp only
  split
  · exact ⟨_, _, _, rfl⟩
  · obtain ⟨v, x, h⟩ := postEntry_frame
      (⟨0x0702, false, false, 0, ns48 d.house, 0, le 4 (claimSupplied d).toNat ++ le 4 d.twn.lastClaim.toNat⟩ : EventEntry)
      { d with twn.lastClaim := claimSupplied d }
    exact ⟨_, v, x, h⟩

@[simp] theorem noteClaim_mode (d : Dev) : (noteClaim d).mode = d.mode := by
  obtain ⟨_, _, _, h⟩ := noteClaim_frame d; rw [h]
@[simp] theorem noteClaim_flt (d : Dev) : (noteClaim d).flt = d.flt := by
  obtain ⟨_, _, _, h⟩ := noteClaim_frame d; rw [h]

/-- What holds of a field in both cases of a choice holds of the choice. -/
theorem either_way {α : Type} {c : Prop} [Decidable c] (g : Dev → α) {x y : Dev} {v : α} (hx : g x = v) (hy : g y = v) :
    g (if c then x else y) = v := by split <;> assumption

/-- The mode is the one set. -/
@[simp] theorem setMode_mode (m : Nat) (d : Dev) : (setMode m d).mode = m := by
  unfold setMode postEvent
  split
  · assumption
  · exact ((noteClaim_mode _).trans (postEntry_mode _ _)).trans
      (either_way (c := d.mode = READY ∧ _) Dev.mode (either_way (c := d.mode = MAINTENANCE) Dev.mode rfl rfl)
        (either_way (c := d.mode = MAINTENANCE) Dev.mode rfl rfl))

/-- A change of mode leaves the fault collector alone. -/
@[simp] theorem setMode_flt (m : Nat) (d : Dev) : (setMode m d).flt = d.flt := by
  unfold setMode postEvent
  split
  · rfl
  · exact ((noteClaim_flt _).trans (postEntry_flt _ _)).trans
      (either_way (c := d.mode = READY ∧ _) Dev.flt (either_way (c := d.mode = MAINTENANCE) Dev.flt rfl rfl)
        (either_way (c := d.mode = MAINTENANCE) Dev.flt rfl rfl))

/-- Words sent change the twin block alone. -/
theorem putWords_frame (ws : List (BitVec 256)) (d : Dev) : ∃ t, putWords ws d = { d with twn := t } := ⟨_, rfl⟩

/-- A frame that departs changes the twin block alone. -/
theorem depart_frame (f : TwnFrame) (d : Dev) : ∃ t, (depart f d).2 = { d with twn := t } := by
  unfold depart; split <;> exact ⟨_, rfl⟩

/-- A frame sent or held on the twin link changes the twin block and the count of free values drawn alone. -/
theorem sendTwin_frame (m : TwinMsg) (d : Dev) : ∃ t n, sendTwin m d = { d with twn := t, free := n } := by
  unfold sendTwin
  split
  · exact ⟨d.twn, d.free, rfl⟩
  · split
    · dsimp only
      have h0 : ∃ t, countEntries m d = { d with twn := t } := by
        unfold countEntries; split <;> exact ⟨_, rfl⟩
      obtain ⟨t0, h0⟩ := h0
      obtain ⟨t1, h1⟩ := depart_frame ⟨m, (countEntries m d).twn.txSeq, (countEntries m d).free⟩ (countEntries m d)
      rw [h1, h0]
      exact ⟨_, _, rfl⟩
    · exact ⟨_, _, rfl⟩

/-- A mailbox's signal, with a completion event owed or not, changes the count of those owed and the MSI-X table alone. -/
theorem owed_frame {c : Prop} [Decidable c] {b : Tab Mailbox} {w : List Nat} {d e : Dev} (n : Nat)
    (he : e = { d with host.mbx := b, host.rung := w }) :
    ∃ v x, signal n (if c then owe e else e) = { d with host.mbx := b, host.rung := w, host.evt := v, host.msix := x } := by
  obtain ⟨x, h⟩ := signal_frame n (if c then owe e else e)
  rw [h]
  by_cases hc : c
  · rw [if_pos hc, he]; exact ⟨_, x, rfl⟩
  · rw [if_neg hc, he]; exact ⟨_, x, rfl⟩

/-- An answer changes its mailbox, the doorbells that wait, the count of completion events owed and the MSI-X table alone. -/
theorem answer_frame (n op f : Nat) (tag : Word) (r : Reply) (d : Dev) :
    ∃ b w v x, answer n op f tag r d = { d with host.mbx := b, host.rung := w, host.evt := v, host.msix := x } :=
  ⟨_, _, owed_frame n rfl⟩

/-- A frame with no word in error, at a checker with no injection armed, passes it unreported. -/
theorem checkLinkWords_clean {d : Dev} (h : (tget d.flt.sources 0x0D0).inj = none) : checkLinkWords [] d = (false, d) := by
  have hi : injSymbols 0x0D0 d = [] := by simp [injSymbols, h]
  have hc : injectedOutcome [] [] = .clean := rfl
  simp [checkLinkWords, hi, hc, checkerReport]

/-- A link frame that is acted on delivers its message (R455). -/
theorem receiveFrame_taken {h : LinkHdr} {f : Dev → Dev} {s : State} (hf : FrameTaken h s.dev) :
    onDev (receiveFrame h f) s = .next (withDev s (f (frameTaken h s.dev))) := by
  obtain ⟨h1, h2, h3, h4⟩ := hf
  have hk := checkLinkWords_clean (d := { s.dev with twn.heardAt := s.dev.up }) h3
  simp only [onDev, receiveFrame, h1, h2, hk, h4, frameTaken, withDev, Bool.not_true, Bool.false_eq_true, if_false, false_or,
    ne_eq, not_true_eq_false]

/-- What runs a host command: the queue stands, and HBM changes by the command's own stores alone. -/
theorem hostCommand_pending (c : CmdSpec) (f : Nat) (r : Req) (s : State) : (hostCommand c f r s).pending = s.pending := by
  unfold hostCommand; split <;> rfl

theorem hostCommand_hbm {c : CmdSpec} (h : c.store = fun _ _ => []) (f : Nat) (r : Req) (s : State) :
    (hostCommand c f r s).hbm = s.hbm := by
  unfold hostCommand
  split
  · simp only [withStore_hbm, runCommand, h]
    split
    · rfl
    · split <;> rfl
  · rfl

/-- A staged request leaves HBM and the queue alone. -/
theorem hostStaged_pending (b op f : Nat) (r : Req) (s : State) : (hostStaged b op f r s).pending = s.pending := by
  unfold hostStaged; split <;> rfl

theorem hostStaged_hbm (b op f : Nat) (r : Req) (s : State) : (hostStaged b op f r s).hbm = s.hbm := by
  unfold hostStaged; split <;> rfl

/-- A command answered at an instant of its own leaves HBM and the queue alone. -/
theorem hostLater_pending (c : CmdSpec) (f : Nat) (r : Req) (s : State) : (hostLater c f r s).pending = s.pending := by
  unfold hostLater; repeat' split
  all_goals rfl

theorem hostLater_hbm (c : CmdSpec) (f : Nat) (r : Req) (s : State) : (hostLater c f r s).hbm = s.hbm := by
  unfold hostLater; repeat' split
  all_goals rfl

/-- The acceptance of a request leaves the queue alone. -/
theorem acceptRequest_pending (n : Nat) (s : State) : (acceptRequest n s).pending = s.pending := by
  unfold acceptRequest
  dsimp only
  by_cases h1 : u32 (requestBytes n 0 16 s.dev) 4 ≠ (mailbox n s.dev).tag.toNat
  · rw [if_pos h1]
  rw [if_neg h1]
  by_cases h2 : 4080 < u32 (requestBytes n 0 16 s.dev) 8
  · rw [if_pos h2]
  rw [if_neg h2]
  by_cases h3 : u16 (requestBytes n 0 16 s.dev) 2 % 2 ^ 13 ≠ 0
  · rw [if_pos h3]
  rw [if_neg h3]
  by_cases h4 : u32 (requestBytes n 0 16 s.dev) 12 ≠ 0
  · rw [if_pos h4]
  rw [if_neg h4]
  cases command (u16 (requestBytes n 0 16 s.dev) 0) with
  | none => rfl
  | some c =>
    simp only
    cases c.len (requestBytes n 16 (u32 (requestBytes n 0 16 s.dev) 8) s.dev) with
    | false => rfl
    | true =>
      simp only [Bool.not_true, Bool.false_eq_true, if_false]
      by_cases h5 : bitOf (u16 (requestBytes n 0 16 s.dev) 2) 15 = true
      · rw [if_pos h5]
        cases c.stageable with
        | true => exact hostStaged_pending ..
        | false => rfl
      · rw [if_neg h5]
        by_cases h6 : u16 (requestBytes n 0 16 s.dev) 0 = 0x0F05 ∨ u16 (requestBytes n 0 16 s.dev) 0 = 0x0D07
        · rw [if_pos h6]; exact hostLater_pending ..
        · rw [if_neg h6]; exact hostCommand_pending ..

end Sys2Proof.Machine
end

