-- ==== Sys2Proof/Laws/Pictures.lean ====
section
/-! SUPPORT. The operations that store pictures in HBM, and the copy of a retiring pseudo-channel's granules: each keeps the
memory's canonical form. -/

namespace Sys2Proof.Machine

/-- A fold each of whose steps keeps the canonical form keeps it. -/
theorem Mem.wf_foldl {α : Type} (f : Mem → α → Mem) (hf : ∀ m x, m.wf = true → (f m x).wf = true) :
    ∀ (l : List α) {m : Mem}, m.wf = true → (l.foldl f m).wf = true
  | [], _, h => h
  | x :: l, m, h => Mem.wf_foldl f hf l (hf m x h)

/-- A row of a picture is stored. -/
theorem writeRow_wf (r : Nat) (x : Stream) (s : Slot) (p y : Nat) (row : List Nat) {m : Mem} (h : m.wf = true) :
    (writeRow r x s p y row m).wf = true := by
  unfold writeRow
  split
  split
  · exact h
  · exact Mem.wf_foldl _ (fun _ _ hm => Mem.wf_writeN _ _ hm) _ h

/-- A picture is stored. -/
theorem writePicture_wf (r : Nat) (x : Stream) (s : Slot) (pic : Planes) {m : Mem} (h : m.wf = true) :
    (writePicture r x s pic m).wf = true :=
  Mem.wf_foldl _ (fun _ _ hm => Mem.wf_foldl _ (fun _ _ hn => writeRow_wf _ _ _ _ _ _ hn) _ hm) _ h

/-- A slot's ancillary records are stored. -/
theorem writeAnc_wf (r : Nat) (x : Stream) (s : Slot) {m : Mem} (h : m.wf = true) : (writeAnc r x s m).wf = true :=
  Mem.wf_foldl _ (fun _ _ hm => Mem.wf_writeN _ _ hm) _ h

/-- A producer's frame is stored. -/
theorem writeFrame_wf (r : Nat) (d : Dev) {m : Mem} (h : m.wf = true) : (writeFrame r d m).wf = true := by
  unfold writeFrame
  dsimp only
  split
  · exact h
  · apply writeAnc_wf
    split
    · exact h
    · exact writePicture_wf _ _ _ _ h

/-- An engine's picture is stored. -/
theorem putPicture_wf (e j q : Nat) (pic : Planes) (d : Dev) {m : Mem} (h : m.wf = true) :
    (putPicture e j q pic d m).wf = true := by
  unfold putPicture
  split
  · exact h
  · dsimp only
    split
    · exact h
    · exact Mem.wf_foldl _ (fun _ _ hm => Mem.wf_foldl _ (fun _ _ hn => writeRow_wf _ _ _ _ _ _ hn) _ hm) _ h

/-- The picture that an engine composes is stored. -/
theorem composePicture_wf (e j q : Nat) {s : State} (h : s.hbm.wf = true) : (composePicture e j q s).hbm.wf = true :=
  putPicture_wf _ _ _ _ _ h

/-- An engine composes its picture again, or leaves it. -/
theorem recompose_wf (e : Nat) {s : State} (h : s.hbm.wf = true) : (recompose e s).hbm.wf = true := by
  unfold recompose
  dsimp only
  split
  · exact h
  · split
    · exact h
    · exact putPicture_wf _ _ _ _ _ h

theorem recomposeAll_wf {s : State} (h : s.hbm.wf = true) : (recomposeAll s).hbm.wf = true := by
  unfold recomposeAll
  generalize conversions s.dev = l
  induction l generalizing s with
  | nil => exact h
  | cons e l ih => exact ih (recompose_wf e h)

/-- Composing a picture again leaves the queue alone. -/
theorem recompose_pending (e : Nat) (s : State) : (recompose e s).pending = s.pending := by
  unfold recompose
  dsimp only
  split
  · rfl
  · split <;> rfl

theorem recomposeAll_pending (s : State) : (recomposeAll s).pending = s.pending := by
  unfold recomposeAll
  generalize conversions s.dev = l
  induction l generalizing s with
  | nil => rfl
  | cons e l ih => exact (ih _).trans (recompose_pending e s)

/-- The granules of a retiring pseudo-channel are copied. -/
theorem copyGranules_wf (l : List (Nat × Nat)) {m : Mem} (h : m.wf = true) : (copyGranules l m).wf = true := by
  unfold copyGranules
  refine Mem.wf_foldl _ (fun n c hn => ?_) _ (Mem.wf_foldl _ (fun _ _ hm => Mem.wf_write hm _ _) _ h)
  split
  · exact Mem.wf_write hn _ _
  · exact hn

end Sys2Proof.Machine
end

