-- ==== Sys2Proof/Tests/Slice0.lean ====
section
/-! SUPPORT. Tests: ill-formed commands are refused, every statement's hypotheses can be met, and small checks of values the
spec prints. -/

set_option Elab.async false
set_option linter.unusedVariables false

namespace Sys2Proof.Tests

open Sys2Proof Sys2Proof.Machine Sys2Proof.Safety

/-- A device in service, 1 s after power-on. -/
def live : State := { State.reset with dev := { State.reset.dev with
  mode := SOLO, host.perbyUp := true, host.linkUp := true, host.bar2Ready := true, up := sec, house := sec } }

/-- `live` with its device changed. -/
def at_ (f : Dev → Dev) : State := { live with dev := f live.dev }

/-- A payload with a field of `f.2.1` bytes at offset `f.1` set. -/
def put (p : List Byte) (f : Nat × Nat × Nat) : List Byte := p.take f.1 ++ le f.2.1 f.2.2 ++ p.drop (f.1 + f.2.1)

/-- A payload of `n` bytes: zeros but for the fields given. -/
def pay (n : Nat) (l : List (Nat × Nat × Nat)) : List Byte := l.foldl put (List.replicate n 0)

/-- A request at mailbox 0 with tag 0. -/
def rq (n : Nat) (l : List (Nat × Nat × Nat)) : Req := { mbx := 0, tag := 0, payload := pay n l }

def eth0 : EthFrame := ⟨64, none, 0, [], none, none, 0, none, true, [], 0, 0, []⟩
def meas0 : SdiMeasure := ⟨0x35, 1, 0, none, false, 0, true⟩
def anc0 : AncPacket := ⟨true, 9, 0, false, 0, 0, false, 0, 0, 0, [], 0⟩
def sub0 : Subframe := ⟨0, 0⟩

theorem taken_of {c : CmdSpec} {q : Req} {s : State}
    (h : (serves q.mbx s.dev && (refusal c (argsOf q s) s.dev).isNone && decide (s.dev.host.evt.owed < 256)) = true) :
    Taken c q s := by
  simp only [Bool.and_eq_true, decide_eq_true_eq, Option.isNone_iff_eq_none] at h
  exact ⟨h.1.1, h.1.2, h.2⟩

theorem capacity_cases : extentLimit = 6080 ∨ extentLimit = 4032 := by
  unfold extentLimit; split <;> simp

theorem window_edge (n : Nat) (h : n ≤ 8) :
    windowShows (pcBytes - n) n (masterBump 3 xACCESSES 1 (granted 21 3
      (at_ (fun d => { d with memc.winEn := true })).dev)) = true := by
  have hp : 8 ≤ pcBytes := by unfold pcBytes; omega
  have hw : (masterBump 3 xACCESSES 1 (granted 21 3 (at_ (fun d => { d with memc.winEn := true })).dev)).memc.winEn = true := by
    decide +kernel
  simp only [windowShows, hw, Bool.true_and, decide_eq_true_eq]
  omega

theorem memory_word (n : Nat) (h : n + 1 = pcBytes / 32) : ∃ (_ : State) (k : Nat) (q : MemReq),
    k < 64 ∧ q.requester < 66 ∧ q.word < pcBytes / 32 :=
  ⟨live, 63, ⟨65, false, n, 0, false⟩, by decide, Nat.lt_succ_self 65, by show n < _; omega⟩

theorem memory_edge : ∃ (_ : State) (k : Nat) (q : MemReq), k < 64 ∧ q.requester < 66 ∧ q.word < pcBytes / 32 := by
  have : 32 ≤ pcBytes := by unfold pcBytes; omega
  exact memory_word (pcBytes / 32 - 1) (by omega)

theorem holiday_begins : ∃ (s : State) (k : Nat) (r : Bool), nextHoliday s.dev = some (k, r) ∧ holidayLength r + 1000 ≤ tolMin s.dev
    ∧ noHoliday s.dev = true ∧ (∀ t, s.dev.memc.lastHoliday = some t → t + 10000 ≤ s.dev.up) :=
  ⟨at_ (updPc 63 (fun x => { x with state := 2, due := some 0 })), 63, false, by decide +kernel, by decide +kernel, by decide +kernel,
    by intro t h; cases h⟩

/-- A ring whose layout names no in-service set moves to the set in force. -/
def mover : State :=
  at_ fun d => updStream 1151 (fun x => { x with n := 1 }) { d with memc.set := List.range 64, memc.migPar := 1 }

theorem ring_moves : ∃ (s : State) (r : Nat), blocksRun s.dev = true ∧ (migrating s.dev).length < s.dev.memc.migPar
    ∧ canMigrate r s.dev = true ∧ ((rings s.dev).all fun q => decide (r ≤ q) || !canMigrate q s.dev) = true := by
  have key : canMigrate 1151 mover.dev = true := by
    rcases capacity_cases with h | h <;>
      (simp only [canMigrate, migrate, allocLayout, h]; decide +kernel)
  refine ⟨mover, 1151, by decide +kernel, by decide +kernel, key, by decide +kernel⟩

/-- Where a byte of the staging region's first 131,072 lies, above the data regions. -/
def spot (o : Nat) : Nat := o / 2048 * 1073741824 + o % 2048

theorem sysCopies_length (pcs : List Nat) (d : Dev) : (sysCopies pcs d).length ≤ 131072 :=
  (List.length_filterMap_le _ _).trans ((List.length_filter_le _ _).trans (le_of_eq (List.length_range)))

/-- Pseudo-channel 0 retires since release, and the copy of every granule that there is has had its time. -/
theorem copy_done : ∃ (s : State) (r : Retire), s.dev.memc.retire = some r ∧ r.copied = false ∧ perbyServes s.dev = true
    ∧ r.since + copyTime (sysCopies r.pcs s.dev).length ≤ s.dev.up := by
  refine ⟨at_ fun d => { d with up := 1073741824, memc.retire := some ⟨[0], false, false, 0, 0, 0⟩ }, ⟨[0], false, false, 0, 0, 0⟩,
    rfl, rfl, by decide +kernel, ?_⟩
  have h (d : Dev) : ((sysCopies [0] d).length : Rat) ≤ 131072 := by exact_mod_cast sysCopies_length [0] d
  have := h (at_ fun d => { d with up := 1073741824, memc.retire := some ⟨[0], false, false, 0, 0, 0⟩ }).dev
  show (0 : Rat) + (_ : Rat) * 8192 ≤ 1073741824
  linarith

/-- Bytes of the staging region, each with its offset, as HBM holds them after initialisation. -/
def cells (l : List (Nat × Byte)) : Mem := l.map fun x => (spot x.1 + dataGranules * 2048, x.2)

/-- `live` with bytes of the staging region. -/
def staged (l : List (Nat × Byte)) : State := { live with hbm := cells l }

theorem read_cells (l : List (Nat × Byte)) (a : Nat) :
    Mem.read (cells l) (a + dataGranules * 2048) = Mem.read (l.map fun x => (spot x.1, x.2)) a := by
  induction l with
  | nil => simp [cells, Mem.read]
  | cons x l ih =>
    simp only [cells, List.map_cons, Mem.read, Nat.add_right_cancel_iff] at ih ⊢
    rw [ih]

theorem spot_addr (o : Nat) (h : o < 131072) : sysAddr o live.dev = spot o + dataGranules * 2048 := by
  have hp : sysPlace (o / 2048) live.dev = (o / 2048 % 64, o / 2048 / 64) := rfl
  simp only [sysAddr, hp, spot]
  omega

theorem staged_read (l : List (Nat × Byte)) (n : Nat) (h : n ≤ 131072) :
    stagingRead (cells l) live.dev 0 n = (List.range n).map fun i => Mem.read (l.map fun x => (spot x.1, x.2)) (spot i) := by
  unfold stagingRead
  apply List.map_congr_left
  intro i hi
  have hi : i < n := List.mem_range.mp hi
  rw [Nat.zero_add, spot_addr i (by omega), read_cells]

theorem taken_check {c : CmdSpec} {q : Req} {s : State} (hc : c.check (argsOf q s) s.dev = none)
    (h : (serves q.mbx s.dev && c.len q.payload && !loaderServes s.dev && (badField (c.fields q.payload) q.payload).isNone
      && decide (s.dev.mode = SOLO ∧ roleMode s.dev = SOLO ∧ almOrder s.dev = [] ∧ s.dev.host.evt.owed < 256)
      && c.disables.isNone) = true) : Taken c q s := by
  simp only [Bool.and_eq_true, decide_eq_true_eq, Option.isNone_iff_eq_none, Bool.not_eq_true'] at h
  obtain ⟨⟨⟨⟨⟨hs, hl⟩, hd⟩, hf⟩, hm, hr, ha, ho⟩, hx⟩ := h
  refine ⟨hs, ?_, ho⟩
  have h1 : SOLO ≠ SAFE := by decide
  have h2 : SOLO ≠ SHADOW := by decide
  have h3 : SOLO ≠ LEAD := by decide
  have hl' : c.len (argsOf q s).payload = true := hl
  have hf' : badField (c.fields (argsOf q s).payload) (argsOf q s).payload = none := hf
  simp [refusal, refuseIf, firstOf, checkSpec, conflict, hl', hd, hf', hm, hr, ha, hx, hc, h1, h2, h3]

/-- A coefficient bank whose every phase sums to 4,096. -/
def flatBank : List (Nat × Byte) := (List.range 256).map fun i => (16 * i + 1, 0x10#8)

theorem read_flat (l : List Nat) (f : Nat → Nat) (v : Byte) (a : Nat) :
    Mem.read (l.map fun k => (f k, v)) a = if a ∈ l.map f then v else 0 := by
  induction l with
  | nil => simp [Mem.read, Mem.unlisted]
  | cons k l ih =>
    simp only [List.map_cons, Mem.read, ih, List.mem_cons]
    by_cases h : f k = a
    · simp [h]
    · simp [h, Ne.symm h]

theorem flat_byte (i : Nat) (h : i < 4096) :
    Mem.read (flatBank.map fun x => (spot x.1, x.2)) (spot i) = if i % 16 = 1 then 0x10 else 0 := by
  have e : (flatBank.map fun x => (spot x.1, x.2)) = (List.range 256).map fun k => (spot (16 * k + 1), 0x10#8) := by
    simp [flatBank]
  rw [e, read_flat]
  congr 1
  simp only [List.mem_map, List.mem_range, spot, eq_iff_iff]
  constructor
  · rintro ⟨k, hk, hs⟩; omega
  · intro hi; exact ⟨i / 16, by omega, by omega⟩

theorem u16_map (g : Nat → Byte) (n o : Nat) (h : o + 2 ≤ n) :
    u16 ((List.range n).map g) o = (g o).toNat + 256 * (g (o + 1)).toNat := by
  have e : (((List.range n).map g).drop o).take 2 = [g o, g (o + 1)] := by
    apply List.ext_getElem
    · simp; omega
    · intro k h1 h2
      have : k = 0 ∨ k = 1 := by simp at h2; omega
      rcases this with rfl | rfl <;> simp
  simp [u16, un, e, leNat]

theorem flat_ok : bankOk ((List.range 4096).map fun i => Mem.read (flatBank.map fun x => (spot x.1, x.2)) (spot i)) = true := by
  have tap (o : Nat) (h : o + 2 ≤ 4096) : i16 ((List.range 4096).map fun i =>
      Mem.read (flatBank.map fun x => (spot x.1, x.2)) (spot i)) o
      = signed 16 ((if o % 16 = 1 then 0x10#8 else 0).toNat + 256 * (if (o + 1) % 16 = 1 then 0x10#8 else 0).toNat) := by
    rw [i16, u16_map _ _ _ h, flat_byte o (by omega), flat_byte (o + 1) (by omega)]; rfl
  simp only [bankOk, List.all_eq_true, List.mem_range]
  intro ph hph
  have taps : ((List.range 8).map fun t => i16 ((List.range 4096).map fun i =>
      Mem.read (flatBank.map fun x => (spot x.1, x.2)) (spot i)) (16 * ph + 2 * t)) = [4096, 0, 0, 0, 0, 0, 0, 0] := by
    have first : 16 * ph % 16 ≠ 1 ∧ (16 * ph + 1) % 16 = 1 := by omega
    have rest (t : Nat) (h : 0 < t ∧ t < 8) : i16 ((List.range 4096).map fun i =>
        Mem.read (flatBank.map fun x => (spot x.1, x.2)) (spot i)) (16 * ph + 2 * t) = 0 := by
      rw [tap _ (by omega), if_neg (by omega), if_neg (by omega)]; decide
    have zero : i16 ((List.range 4096).map fun i =>
        Mem.read (flatBank.map fun x => (spot x.1, x.2)) (spot i)) (16 * ph + 2 * 0) = 4096 := by
      rw [tap _ (by omega), if_neg (by omega), if_pos (by omega)]; decide
    have r8 : List.range 8 = [0, 1, 2, 3, 4, 5, 6, 7] := by decide
    rw [r8]
    simp only [List.map_cons, List.map_nil, zero, rest 1 (by decide), rest 2 (by decide), rest 3 (by decide),
      rest 4 (by decide), rest 5 (by decide), rest 6 (by decide), rest 7 (by decide)]
  rw [taps]
  decide

theorem takes_cmdCnvCoefLoad : ∃ q s, Taken cmdCnvCoefLoad q s := by
  refine ⟨rq 8 [(0, 1, 4)], staged flatBank, taken_check ?_ (by decide +kernel)⟩
  have o : u32 (argsOf (rq 8 [(0, 1, 4)]) (staged flatBank)).payload 4 = 0 := by decide +kernel
  have b : u8 (argsOf (rq 8 [(0, 1, 4)]) (staged flatBank)).payload 0 = 4 := by decide +kernel
  have e : bankOk (stagingRead (argsOf (rq 8 [(0, 1, 4)]) (staged flatBank)).mem (staged flatBank).dev 0 4096) = true := by
    have := staged_read flatBank 4096 (by decide)
    exact (congrArg bankOk this).trans flat_ok
  have u : bankInUse 4 (staged flatBank).dev = false := by decide +kernel
  simp [cmdCnvCoefLoad, o, b, e, u, firstOf, refuseIf, stagingBytes]

/-- An image with one empty section of commands. -/
def emptyImage : List (Nat × Byte) := [(0, 70), (1, 82), (2, 75), (3, 67), (4, 1), (6, 128), (7, 4), (10, 1), (12, 80), (60, 19), (61, 162), (62, 250), (63, 94), (64, 1), (68, 80)]

/-- Its bytes. -/
def imageBytes : List Byte :=
  [70, 82, 75, 67, 1, 0, 128, 4, 0, 0, 1, 0, 80, 0, 0, 0, 0, 0, 0, 0, 0, 0, 0, 0, 0, 0, 0, 0, 0, 0, 0, 0, 0, 0, 0, 0, 0, 0, 0, 0, 0, 0, 0, 0, 0, 0, 0, 0, 0, 0, 0, 0, 0, 0, 0, 0, 0, 0, 0, 0, 19, 162, 250, 94, 1, 0, 0, 0, 80, 0, 0, 0, 0, 0, 0, 0, 0, 0, 0, 0]

theorem image_crc : crc32 (withoutCrc imageBytes) = 0x5EFAA213 := by
  have e : withoutCrc imageBytes = ([70, 82, 75, 67, 1, 0, 128, 4] : List Byte) ++ ([0, 0, 1, 0, 80, 0, 0, 0] : List Byte) ++ ([0, 0, 0, 0, 0, 0, 0, 0] : List Byte) ++ ([0, 0, 0, 0, 0, 0, 0, 0] : List Byte) ++ ([0, 0, 0, 0, 0, 0, 0, 0] : List Byte) ++ ([0, 0, 0, 0, 0, 0, 0, 0] : List Byte) ++ ([0, 0, 0, 0, 0, 0, 0, 0] : List Byte) ++ ([0, 0, 0, 0, 0, 0, 0, 0] : List Byte) ++ ([1, 0, 0, 0, 80, 0, 0, 0] : List Byte) ++ ([0, 0, 0, 0, 0, 0, 0, 0] : List Byte) := by decide +kernel
  have s0 : List.foldl crc32Byte (0xFFFFFFFF#32) [70, 82, 75, 67, 1, 0, 128, 4] = 0x3FFBF063#32 := by decide +kernel
  have s1 : List.foldl crc32Byte (0x3FFBF063#32) [0, 0, 1, 0, 80, 0, 0, 0] = 0x666F870B#32 := by decide +kernel
  have s2 : List.foldl crc32Byte (0x666F870B#32) [0, 0, 0, 0, 0, 0, 0, 0] = 0xFF0BF748#32 := by decide +kernel
  have s3 : List.foldl crc32Byte (0xFF0BF748#32) [0, 0, 0, 0, 0, 0, 0, 0] = 0xFB02EA40#32 := by decide +kernel
  have s4 : List.foldl crc32Byte (0xFB02EA40#32) [0, 0, 0, 0, 0, 0, 0, 0] = 0xFC61FBF3#32 := by decide +kernel
  have s5 : List.foldl crc32Byte (0xFC61FBF3#32) [0, 0, 0, 0, 0, 0, 0, 0] = 0x59F11C29#32 := by decide +kernel
  have s6 : List.foldl crc32Byte (0x59F11C29#32) [0, 0, 0, 0, 0, 0, 0, 0] = 0xAD8AE8C1#32 := by decide +kernel
  have s7 : List.foldl crc32Byte (0xAD8AE8C1#32) [0, 0, 0, 0, 0, 0, 0, 0] = 0xB1DFC340#32 := by decide +kernel
  have s8 : List.foldl crc32Byte (0xB1DFC340#32) [1, 0, 0, 0, 80, 0, 0, 0] = 0x1D00C799#32 := by decide +kernel
  have s9 : List.foldl crc32Byte (0x1D00C799#32) [0, 0, 0, 0, 0, 0, 0, 0] = 0xA1055DEC#32 := by decide +kernel
  rw [crc32, e]
  simp only [List.foldl_append]
  rw [show (0xFFFFFFFF : BitVec 32) = 0xFFFFFFFF#32 from rfl, s0, s1, s2, s3, s4, s5, s6, s7, s8, s9]
  decide +kernel

theorem takes_cmdCfgImageLoad : ∃ q s, Taken cmdCfgImageLoad q s := by
  refine ⟨rq 12 [(8, 4, 80)], staged emptyImage, taken_check ?_ (by decide +kernel)⟩
  have e : imageAt (argsOf (rq 12 [(8, 4, 80)]) (staged emptyImage)) (staged emptyImage).dev = imageBytes := by
    have o : u32 (argsOf (rq 12 [(8, 4, 80)]) (staged emptyImage)).payload 4 = 0 := by decide +kernel
    have n : u32 (argsOf (rq 12 [(8, 4, 80)]) (staged emptyImage)).payload 8 = 80 := by decide +kernel
    unfold imageAt
    rw [o, n]
    exact (staged_read emptyImage 80 (by decide)).trans (by decide +kernel)
  simp only [cmdCfgImageLoad, e, imageFault, headerOk, image_crc]
  decide +kernel

theorem takes_cmdCfgSeasonStore : ∃ q s, Taken cmdCfgSeasonStore q s := by
  refine ⟨rq 12 [(0, 1, 1), (8, 4, 8)], staged [(0, 1#8)], taken_check ?_ (by decide +kernel)⟩
  have e : stagingRead (argsOf (rq 12 [(0, 1, 1), (8, 4, 8)]) (staged [(0, 1#8)])).mem (staged [(0, 1#8)]).dev
      (u32 (argsOf (rq 12 [(0, 1, 1), (8, 4, 8)]) (staged [(0, 1#8)])).payload 4) (u32 (argsOf (rq 12 [(0, 1, 1), (8, 4, 8)]) (staged [(0, 1#8)])).payload 8)
      = (List.range 8).map fun i =>
        Mem.read ([(0, 1#8)].map fun x => (spot x.1, x.2)) (spot i) :=
    staged_read [(0, 1#8)] 8 (by decide)
  simp only [cmdCfgSeasonStore, bodyAt, e]
  decide +kernel

theorem takes_cmdCfgSalvoStore : ∃ q s, Taken cmdCfgSalvoStore q s := by
  refine ⟨rq 12 [(8, 4, 28)], staged [(2, 1#8)], taken_check ?_ (by decide +kernel)⟩
  have e : stagingRead (argsOf (rq 12 [(8, 4, 28)]) (staged [(2, 1#8)])).mem (staged [(2, 1#8)]).dev
      (u32 (argsOf (rq 12 [(8, 4, 28)]) (staged [(2, 1#8)])).payload 4) (u32 (argsOf (rq 12 [(8, 4, 28)]) (staged [(2, 1#8)])).payload 8)
      = (List.range 28).map fun i =>
        Mem.read ([(2, 1#8)].map fun x => (spot x.1, x.2)) (spot i) :=
    staged_read [(2, 1#8)] 28 (by decide)
  simp only [cmdCfgSalvoStore, bodyAt, e]
  decide +kernel

theorem witness_TimeCommands :
    (∃ q s, Taken cmdTimTbConfig q s) ∧ (∃ q s, Taken cmdTimTbEnable q s) ∧ (∃ q s, Taken cmdTimTbDisable q s) ∧ (∃ q s, Taken cmdTimRestep q s) ∧ (∃ q s, Taken cmdTimRead q s) ∧ (∃ q s, Taken cmdTimPortAsymmetry q s) ∧ (∃ q s, Taken cmdRefCandConfig q s) ∧ (∃ q s, Taken cmdRefSelectManual q s) ∧ (∃ q s, Taken cmdRefSelectAuto q s) ∧ (∃ q s, Taken cmdRefLimits q s) ∧ (∃ q s, Taken cmdRefRealign q s) ∧ (∃ q s, Taken cmdPulseConfig q s) ∧ (∃ q s, Taken cmdPulseStop q s) ∧ (∃ q s, Taken cmdPllBandTable q s) ∧ (∃ q s, Taken cmdPllRestore q s) :=
  ⟨⟨rq 40 [(7, 1, 3), (16, 4, 1000), (20, 2, 10)], at_ (id), taken_of (by decide +kernel)⟩,
    ⟨rq 4 [], at_ (id), taken_of (by decide +kernel)⟩,
    ⟨rq 8 [], at_ (id), taken_of (by decide +kernel)⟩,
    ⟨rq 4 [], at_ (updTb 0 (fun b => { b with role := 0, state := 1 })), taken_of (by decide +kernel)⟩,
    ⟨rq 0 [], at_ (id), taken_of (by decide +kernel)⟩,
    ⟨rq 8 [], at_ (updOct 0 (fun x => { x with mode := 1 })), taken_of (by decide +kernel)⟩,
    ⟨rq 24 [(1, 1, 6), (8, 2, 1), (18, 2, 1), (20, 2, 100)], at_ (id), taken_of (by decide +kernel)⟩,
    ⟨rq 4 [], at_ (updCand 0 (fun c => { c with rank := 1, kind := 1, qual := true })), taken_of (by decide +kernel)⟩,
    ⟨rq 0 [], at_ (id), taken_of (by decide +kernel)⟩,
    ⟨rq 24 [(0, 4, 1), (4, 4, 100), (8, 4, 10), (20, 4, 10)], at_ (id), taken_of (by decide +kernel)⟩,
    ⟨rq 4 [], at_ (fun d => updCand 0 (fun c => { c with rank := 1, kind := 1, qual := true }) { d with mode := READY }), taken_of (by decide +kernel)⟩,
    ⟨rq 36 [(16, 8, 100), (24, 2, 1), (28, 4, 2)], at_ (id), taken_of (by decide +kernel)⟩,
    ⟨rq 8 [], at_ (id), taken_of (by decide +kernel)⟩,
    ⟨rq 4 [], at_ (id), taken_of (by decide +kernel)⟩,
    ⟨rq 4 [(0, 1, 2)], at_ (updSynth 2 (fun x => { x with locked := true })), taken_of (by decide +kernel)⟩⟩

theorem witness_LaneCommands :
    (∃ q s, Taken cmdLaneOctMode q s) ∧ (∃ q s, Taken cmdLaneEnable q s) ∧ (∃ q s, Taken cmdLaneDisable q s) ∧ (∃ q s, Taken cmdLaneTxEq q s) ∧ (∃ q s, Taken cmdLaneRxEq q s) ∧ (∃ q s, Taken cmdLaneRove q s) ∧ (∃ q s, Taken cmdLaneStatusRead q s) ∧ (∃ q s, Taken cmdLaneTest q s) ∧ (∃ q s, Taken cmdLaneRestart q s) :=
  ⟨⟨rq 4 [], at_ (id), taken_of (by decide +kernel)⟩,
    ⟨rq 8 [(2, 1, 1)], at_ (updOct 0 (fun x => { x with mode := 0 })), taken_of (by decide +kernel)⟩,
    ⟨rq 8 [(6, 1, 1)], at_ (id), taken_of (by decide +kernel)⟩,
    ⟨rq 8 [], at_ (id), taken_of (by decide +kernel)⟩,
    ⟨rq 8 [], at_ (id), taken_of (by decide +kernel)⟩,
    ⟨rq 4 [(2, 1, 1)], at_ (id), taken_of (by decide +kernel)⟩,
    ⟨rq 4 [], at_ (id), taken_of (by decide +kernel)⟩,
    ⟨rq 4 [(2, 1, 1)], at_ (id), taken_of (by decide +kernel)⟩,
    ⟨rq 4 [], at_ (id), taken_of (by decide +kernel)⟩⟩

theorem witness_SdiCommands :
    (∃ q s, Taken cmdSdiRxConfig q s) ∧ (∃ q s, Taken cmdSdiRxDisable q s) ∧ (∃ q s, Taken cmdSdiMultilink q s) ∧ (∃ q s, Taken cmdSdiAncFilter q s) ∧ (∃ q s, Taken cmdSdiAudioDeembed q s) ∧ (∃ q s, Taken cmdSdiTxConfig q s) ∧ (∃ q s, Taken cmdSdiTxDisable q s) ∧ (∃ q s, Taken cmdSdiAudioEmbed q s) ∧ (∃ q s, Taken cmdSdiCsSet q s) ∧ (∃ q s, Taken cmdSdiStatusRead q s) :=
  ⟨⟨rq 12 [(2, 1, 255), (3, 1, 255), (4, 1, 255)], at_ (fun d => updLane 0 (fun l => { l with rxEn := true }) (updOct 0 (fun x => { x with mode := 0 }) d)), taken_of (by decide +kernel)⟩,
    ⟨rq 8 [], at_ (fun d => updLane 0 (fun l => { l with rxEn := true }) (updOct 0 (fun x => { x with mode := 0 }) d)), taken_of (by decide +kernel)⟩,
    ⟨rq 16 [(1, 1, 1), (2, 1, 255)], at_ (id), taken_of (by decide +kernel)⟩,
    ⟨rq 8 [], at_ (fun d => updLane 0 (fun l => { l with rxEn := true }) (updOct 0 (fun x => { x with mode := 0 }) d)), taken_of (by decide +kernel)⟩,
    ⟨rq 8 [(3, 1, 1), (4, 1, 1), (6, 2, 65535)], at_ (fun d => updLane 0 (fun l => { l with rxEn := true }) (updOct 0 (fun x => { x with mode := 0 }) d)), taken_of (by decide +kernel)⟩,
    ⟨rq 8 [], at_ (fun d => updLane 0 (fun l => { l with txEn := true, txRate := 8 }) (updOct 0 (fun x => { x with mode := 0 }) d)), taken_of (by decide +kernel)⟩,
    ⟨rq 8 [], at_ (fun d => updLane 0 (fun l => { l with txEn := true }) (updOct 0 (fun x => { x with mode := 0 }) d)), taken_of (by decide +kernel)⟩,
    ⟨rq 8 [(3, 1, 1), (4, 1, 1), (6, 2, 65535)], at_ (fun d => updLane 0 (fun l => { l with txEn := true }) (updOct 0 (fun x => { x with mode := 0 }) d)), taken_of (by decide +kernel)⟩,
    ⟨rq 32 [(3, 1, 1)], at_ (fun d => updLane 0 (fun l => { l with txEn := true }) (updOct 0 (fun x => { x with mode := 0 }) d)), taken_of (by decide +kernel)⟩,
    ⟨rq 4 [(2, 1, 1)], at_ (fun d => updLane 0 (fun l => { l with rxEn := true, txEn := true }) (updOct 0 (fun x => { x with mode := 0 }) d)), taken_of (by decide +kernel)⟩⟩

theorem witness_MacCommands :
    (∃ q s, Taken cmdMacPortConfig q s) ∧ (∃ q s, Taken cmdMacPortEnable q s) ∧ (∃ q s, Taken cmdMacPortDisable q s) ∧ (∃ q s, Taken cmdMacQueueConfig q s) ∧ (∃ q s, Taken cmdMacQueueDisable q s) ∧ (∃ q s, Taken cmdMacFilter q s) ∧ (∃ q s, Taken cmdMacTxFrame q s) ∧ (∃ q s, Taken cmdMacRxFrame q s) ∧ (∃ q s, Taken cmdMacStatusRead q s) :=
  ⟨⟨rq 24 [(10, 2, 1), (12, 2, 64), (14, 2, 64), (16, 2, 1)], at_ (updOct 0 (fun x => { x with mode := 1 })), taken_of (by decide +kernel)⟩,
    ⟨rq 4 [], at_ (fun d => updLane 0 (fun l => { l with rxEn := true, txEn := true, rxState := 4, rate := 9, txRate := 9 }) (updOct 0 (fun x => { x with mode := 1 }) d)), taken_of (by decide +kernel)⟩,
    ⟨rq 8 [], at_ (updOct 0 (fun x => { x with mode := 1 })), taken_of (by decide +kernel)⟩,
    ⟨rq 16 [(1, 1, 1), (6, 2, 1)], at_ (updOct 0 (fun x => { x with mode := 1 })), taken_of (by decide +kernel)⟩,
    ⟨rq 8 [(5, 1, 1)], at_ (updOct 0 (fun x => { x with mode := 1 })), taken_of (by decide +kernel)⟩,
    ⟨rq 16 [], at_ (updOct 0 (fun x => { x with mode := 1 })), taken_of (by decide +kernel)⟩,
    ⟨rq 22 [(2, 2, 14)], at_ (fun d => updPort 0 (fun x => { x with link := 3 }) (updOct 0 (fun x => { x with mode := 1 }) d)), taken_of (by decide +kernel)⟩,
    ⟨rq 4 [], at_ (fun d => updMac 0 (fun m => { m with host := [⟨0, 0, 0, 0, true, ⟨64, none, 0, [], none, none, 0, none, true, [], 0, 0, []⟩⟩] }) (updOct 0 (fun x => { x with mode := 1 }) d)), taken_of (by decide +kernel)⟩,
    ⟨rq 4 [], at_ (updOct 0 (fun x => { x with mode := 1 })), taken_of (by decide +kernel)⟩⟩

theorem witness_FlowCommands :
    (∃ q s, Taken cmdFlowPortIp q s) ∧ (∃ q s, Taken cmdFlowRxConfig q s) ∧ (∃ q s, Taken cmdFlowRxPath q s) ∧ (∃ q s, Taken cmdFlowRxEnable q s) ∧ (∃ q s, Taken cmdFlowRxDisable q s) ∧ (∃ q s, Taken cmdFlowRxDelete q s) ∧ (∃ q s, Taken cmdFlowTxConfig q s) ∧ (∃ q s, Taken cmdFlowTxPath q s) ∧ (∃ q s, Taken cmdFlowTxEnable q s) ∧ (∃ q s, Taken cmdFlowTxDisable q s) ∧ (∃ q s, Taken cmdFlowRekey q s) ∧ (∃ q s, Taken cmdFlowStatusRead q s) :=
  ⟨⟨rq 12 [(1, 1, 2), (2, 1, 8), (8, 1, 50)], at_ (updOct 0 (fun x => { x with mode := 1 })), taken_of (by decide +kernel)⟩,
    ⟨rq 32 [(2, 1, 6), (7, 1, 1), (12, 2, 65535), (16, 2, 100)], at_ (id), taken_of (by decide +kernel)⟩,
    ⟨rq 16 [(12, 2, 1), (14, 2, 1)], at_ (fun d => { updPort 0 (fun x => { x with ip := 1 }) (updOct 0 (fun x => { x with mode := 1 }) d) with flows.tbl.state := 1 }), taken_of (by decide +kernel)⟩,
    ⟨rq 4 [], at_ (updRxFlow 0 (fun x => { x with type := 6 })), taken_of (by decide +kernel)⟩,
    ⟨rq 8 [], at_ (id), taken_of (by decide +kernel)⟩,
    ⟨rq 4 [], at_ (id), taken_of (by decide +kernel)⟩,
    ⟨rq 32 [(2, 1, 4), (4, 1, 53), (6, 1, 96), (7, 1, 1), (12, 2, 65535), (16, 2, 180), (25, 1, 1)], at_ (id), taken_of (by decide +kernel)⟩,
    ⟨rq 20 [(8, 2, 1), (10, 2, 1)], at_ (fun d => (updPort 0 (fun x => { x with ip := 1 }) (updOct 0 (fun x => { x with mode := 1 }) d))), taken_of (by decide +kernel)⟩,
    ⟨rq 4 [], at_ (updTxFlow 0 (fun x => { x with type := 4, format := 0x35 })), taken_of (by decide +kernel)⟩,
    ⟨rq 8 [], at_ (id), taken_of (by decide +kernel)⟩,
    ⟨rq 4 [], at_ (fun d => { d with flows.tbl.state := 1 }), taken_of (by decide +kernel)⟩,
    ⟨rq 4 [(0, 1, 1)], at_ (id), taken_of (by decide +kernel)⟩⟩

theorem witness_MemcCommands :
    (∃ q s, Taken cmdMemcRingConfig q s) ∧ (∃ q s, Taken cmdMemcRingRead q s) ∧ (∃ q s, Taken cmdMemcAdmitReport q s) ∧ (∃ q s, Taken cmdMemcPcRetire q s) ∧ (∃ q s, Taken cmdMemcErrorConfig q s) ∧ (∃ q s, Taken cmdMemcScrubConfig q s) ∧ (∃ q s, Taken cmdMemcHolidayConfig q s) ∧ (∃ q s, Taken cmdMemcStatusRead q s) ∧ (∃ q s, Taken cmdMemcWindow q s) :=
  ⟨⟨rq 8 [(2, 1, 4)], at_ (id), taken_of (by decide +kernel)⟩,
    ⟨rq 4 [], at_ (updStream 0 (fun x => { x with n := 1 })), taken_of (by decide +kernel)⟩,
    ⟨rq 4 [], at_ (id), taken_of (by decide +kernel)⟩,
    ⟨rq 4 [], at_ (fun d => updPc 0 (fun x => { x with state := 2 }) { d with memc.set := [0, 1] }), taken_of (by decide +kernel)⟩,
    ⟨rq 4 [(1, 1, 1), (2, 1, 8), (3, 1, 1)], at_ (id), taken_of (by decide +kernel)⟩,
    ⟨rq 4 [(1, 1, 1)], at_ (id), taken_of (by decide +kernel)⟩,
    ⟨rq 4 [(0, 2, 10), (2, 1, 1)], at_ (id), taken_of (by decide +kernel)⟩,
    ⟨rq 4 [], at_ (id), taken_of (by decide +kernel)⟩,
    ⟨rq 4 [], at_ (fun d => { d with mode := MAINTENANCE, host.debug := true }), taken_of (by decide +kernel)⟩⟩

theorem witness_RouteCommands :
    (∃ q s, Taken cmdRouteIngressBind q s) ∧ (∃ q s, Taken cmdRouteIngressUnbind q s) ∧ (∃ q s, Taken cmdRouteTgConfig q s) ∧ (∃ q s, Taken cmdRouteEgressBind q s) ∧ (∃ q s, Taken cmdRouteEgressUnbind q s) ∧ (∃ q s, Taken cmdRouteAlignGroup q s) ∧ (∃ q s, Taken cmdRouteTake q s) ∧ (∃ q s, Taken cmdRouteStatusRead q s) :=
  ⟨⟨rq 8 [(2, 1, 1), (3, 1, 53)], at_ (fun d => updRx 0 (fun x => { x with en := true, cfgFormat := 0x35, cfgMapping := 1, cfgSampling := 0 }) (updStream 0 (fun x => { x with n := 1, kind := 1, format := 0x35, sampling := 0 }) { d with memc.keyState := 1, memc.set := List.range 64 })), taken_of (by decide +kernel)⟩,
    ⟨rq 8 [], at_ (id), taken_of (by decide +kernel)⟩,
    ⟨rq 12 [(1, 1, 255)], at_ (id), taken_of (by decide +kernel)⟩,
    ⟨rq 8 [(4, 1, 1)], at_ (fun d => updTx 0 (fun x => { x with en := true, cfgMapping := 1, cfgSampling := 0, group := 0x3F }) { d with fab.tgs := tset d.fab.tgs 0 { (default : TimGroup) with format := 0x35 } }), taken_of (by decide +kernel)⟩,
    ⟨rq 8 [], at_ (id), taken_of (by decide +kernel)⟩,
    ⟨rq 4 [(0, 2, 48)], at_ (id), taken_of (by decide +kernel)⟩,
    ⟨rq 24 [], at_ (updRaster 0 (fun x => { x with n := 1 })), taken_of (by decide +kernel)⟩,
    ⟨rq 4 [(0, 1, 3)], at_ (id), taken_of (by decide +kernel)⟩⟩

theorem witness_ConverterCommands :
    (∃ q s, Taken cmdCnvConfig q s) ∧ (∃ q s, Taken cmdCnvEnable q s) ∧ (∃ q s, Taken cmdCnvDisable q s) ∧ (∃ q s, Taken cmdCnvSubstitute q s) ∧ (∃ q s, Taken cmdCnvSpareAuto q s) ∧ (∃ q s, Taken cmdCnvCoefLoad q s) ∧ (∃ q s, Taken cmdCnvLutLoad q s) ∧ (∃ q s, Taken cmdCnvStatusRead q s) :=
  ⟨⟨rq 88 [(1, 1, 1), (4, 1, 1), (11, 1, 1)], at_ (fun d => updStream 0 (fun x => { x with n := 1, bound := true, kind := 1, format := 0x35 }) { d with memc.rings := tset d.memc.rings 0 { depth := 16 }, fab.tgs := tset d.fab.tgs 0 { (default : TimGroup) with format := 0x35 } }), taken_of (by decide +kernel)⟩,
    ⟨rq 4 [], at_ (fun d => updEngine 0 (fun x => { x with conf := pay 88 [(1, 1, 1), (4, 1, 1), (11, 1, 1)] }) ((fun d => updStream 0 (fun x => { x with n := 1, bound := true, kind := 1, format := 0x35 }) { d with memc.rings := tset d.memc.rings 0 { depth := 16 }, fab.tgs := tset d.fab.tgs 0 { (default : TimGroup) with format := 0x35 } }) d)), taken_of (by decide +kernel)⟩,
    ⟨rq 8 [], at_ (id), taken_of (by decide +kernel)⟩,
    ⟨rq 4 [(1, 1, 1)], at_ (fun d => updEngine 0 (fun x => { x with conf := pay 88 [(1, 1, 1), (4, 1, 1), (11, 1, 1)] }) ((fun d => updStream 0 (fun x => { x with n := 1, bound := true, kind := 1, format := 0x35 }) { d with memc.rings := tset d.memc.rings 0 { depth := 16 }, fab.tgs := tset d.fab.tgs 0 { (default : TimGroup) with format := 0x35 } }) d)), taken_of (by decide +kernel)⟩,
    ⟨rq 4 [], at_ (id), taken_of (by decide +kernel)⟩,
    takes_cmdCnvCoefLoad,
    ⟨rq 8 [(0, 1, 5)], at_ (id), taken_of (by decide +kernel)⟩,
    ⟨rq 4 [], at_ (id), taken_of (by decide +kernel)⟩⟩

theorem witness_OutputCommands :
    (∃ q s, Taken cmdOutRasterConfig q s) ∧ (∃ q s, Taken cmdOutGlyphLoad q s) ∧ (∃ q s, Taken cmdOutMarker q s) ∧ (∃ q s, Taken cmdOutPalette q s) ∧ (∃ q s, Taken cmdOutStatusRead q s) :=
  ⟨⟨rq 12 [], at_ (updRaster 0 (fun x => { x with n := 1 })), taken_of (by decide +kernel)⟩,
    ⟨rq 2052 [], at_ (id), taken_of (by decide +kernel)⟩,
    ⟨rq 16 [(10, 1, 1)], at_ (updRaster 0 (fun x => { x with n := 1 })), taken_of (by decide +kernel)⟩,
    ⟨rq 12 [(3, 1, 1)], at_ (updRaster 0 (fun x => { x with n := 1 })), taken_of (by decide +kernel)⟩,
    ⟨rq 4 [], at_ (updRaster 0 (fun x => { x with n := 1 })), taken_of (by decide +kernel)⟩⟩

theorem witness_AudioCommands :
    (∃ q s, Taken cmdAudConfig q s) ∧ (∃ q s, Taken cmdAudDepth q s) ∧ (∃ q s, Taken cmdAudCells q s) ∧ (∃ q s, Taken cmdAudCellsRead q s) ∧ (∃ q s, Taken cmdAudDestEnable q s) ∧ (∃ q s, Taken cmdAudDestDisable q s) ∧ (∃ q s, Taken cmdAprtAesIn q s) ∧ (∃ q s, Taken cmdAprtAesOut q s) ∧ (∃ q s, Taken cmdAprtTdm q s) ∧ (∃ q s, Taken cmdAprtWclk q s) ∧ (∃ q s, Taken cmdAprtDisable q s) ∧ (∃ q s, Taken cmdAudCsRead q s) ∧ (∃ q s, Taken cmdAprtCsSet q s) ∧ (∃ q s, Taken cmdAudStatusRead q s) :=
  ⟨⟨rq 8 [(2, 2, 1)], at_ (id), taken_of (by decide +kernel)⟩,
    ⟨rq 8 [(2, 2, 1)], at_ (id), taken_of (by decide +kernel)⟩,
    ⟨rq 12 [(0, 2, 1), (7, 1, 1)], at_ (id), taken_of (by decide +kernel)⟩,
    ⟨rq 4 [], at_ (id), taken_of (by decide +kernel)⟩,
    ⟨rq 4 [(2, 2, 1)], at_ (id), taken_of (by decide +kernel)⟩,
    ⟨rq 8 [(6, 2, 1)], at_ (id), taken_of (by decide +kernel)⟩,
    ⟨rq 12 [(2, 1, 2), (4, 2, 65535), (6, 2, 1), (8, 2, 10)], at_ (id), taken_of (by decide +kernel)⟩,
    ⟨rq 4 [], at_ (id), taken_of (by decide +kernel)⟩,
    ⟨rq 12 [(4, 1, 1), (6, 2, 65535), (8, 2, 65535), (10, 2, 10)], at_ (id), taken_of (by decide +kernel)⟩,
    ⟨rq 4 [], at_ (id), taken_of (by decide +kernel)⟩,
    ⟨rq 8 [(4, 1, 1)], at_ (id), taken_of (by decide +kernel)⟩,
    ⟨rq 4 [], at_ (id), taken_of (by decide +kernel)⟩,
    ⟨rq 28 [], at_ (id), taken_of (by decide +kernel)⟩,
    ⟨rq 4 [(0, 1, 1)], at_ (id), taken_of (by decide +kernel)⟩⟩

theorem witness_ControlCommands :
    (∃ q s, Taken cmdMbxNop q s) ∧ (∃ q s, Taken cmdRegRead q s) ∧ (∃ q s, Taken cmdRegWrite q s) ∧ (∃ q s, Taken cmdRegRmw q s) ∧ (∃ q s, Taken cmdRegSnapshot q s) ∧ (∃ q s, Taken cmdXbrStatusRead q s) ∧ (∃ q s, Taken cmdXbrQos q s) ∧ (∃ q s, Taken cmdMbxEventConfig q s) ∧ (∃ q s, Taken cmdDbgChallenge q s) ∧ (∃ q s, Taken cmdDbgUnlock q s) ∧ (∃ q s, Taken cmdDbgLock q s) :=
  ⟨⟨rq 0 [], at_ (id), taken_of (by decide +kernel)⟩,
    ⟨rq 8 [(4, 2, 1)], at_ (id), taken_of (by decide +kernel)⟩,
    ⟨rq 12 [(4, 2, 1)], at_ (fun d => { d with mode := MAINTENANCE, host.debug := true }), taken_of (by decide +kernel)⟩,
    ⟨rq 12 [], at_ (fun d => { d with mode := MAINTENANCE, host.debug := true }), taken_of (by decide +kernel)⟩,
    ⟨rq 8 [(0, 2, 1)], at_ (id), taken_of (by decide +kernel)⟩,
    ⟨rq 4 [], at_ (id), taken_of (by decide +kernel)⟩,
    ⟨rq 4 [(1, 1, 1)], at_ (id), taken_of (by decide +kernel)⟩,
    ⟨rq 4 [(0, 2, 1)], at_ (id), taken_of (by decide +kernel)⟩,
    ⟨rq 0 [], at_ (fun d => { d with mode := MAINTENANCE, host.debug := true }), taken_of (by decide +kernel)⟩,
    ⟨rq 64 [], at_ (fun d => { d with mode := MAINTENANCE, host.challenge := some (0, d.up) }), taken_of (by decide +kernel)⟩,
    ⟨rq 0 [], at_ (id), taken_of (by decide +kernel)⟩⟩

theorem witness_ConfigurationCommands :
    (∃ q s, Taken cmdCfgBankOpen q s) ∧ (∃ q s, Taken cmdCfgBankSeal q s) ∧ (∃ q s, Taken cmdCfgBankCheck q s) ∧ (∃ q s, Taken cmdCfgBankTruncate q s) ∧ (∃ q s, Taken cmdCfgBankAbandon q s) ∧ (∃ q s, Taken cmdCfgBankRead q s) ∧ (∃ q s, Taken cmdCfgSchedule q s) ∧ (∃ q s, Taken cmdCfgCancel q s) ∧ (∃ q s, Taken cmdCfgImageLoad q s) ∧ (∃ q s, Taken cmdCfgImageSave q s) ∧ (∃ q s, Taken cmdCfgSeasonStore q s) ∧ (∃ q s, Taken cmdCfgSeasonSwitch q s) ∧ (∃ q s, Taken cmdCfgSalvoStore q s) ∧ (∃ q s, Taken cmdCfgSalvoFire q s) ∧ (∃ q s, Taken cmdCfgStatusRead q s) :=
  ⟨⟨rq 4 [], at_ (id), taken_of (by decide +kernel)⟩,
    ⟨rq 4 [], at_ (updBank 0 (fun x => { x with state := 1 })), taken_of (by decide +kernel)⟩,
    ⟨rq 4 [], at_ (updBank 0 (fun x => { x with state := 1 })), taken_of (by decide +kernel)⟩,
    ⟨rq 8 [], at_ (updBank 0 (fun x => { x with state := 1 })), taken_of (by decide +kernel)⟩,
    ⟨rq 4 [], at_ (updBank 0 (fun x => { x with state := 1 })), taken_of (by decide +kernel)⟩,
    ⟨rq 8 [], at_ (id), taken_of (by decide +kernel)⟩,
    ⟨rq 28 [(1, 1, 1)], at_ (id), taken_of (by decide +kernel)⟩,
    ⟨rq 4 [], at_ (updAlm 0 (fun x => { x with state := 1 })), taken_of (by decide +kernel)⟩,
    takes_cmdCfgImageLoad,
    ⟨rq 4 [], at_ (id), taken_of (by decide +kernel)⟩,
    takes_cmdCfgSeasonStore,
    ⟨rq 4 [], at_ (id), taken_of (by decide +kernel)⟩,
    takes_cmdCfgSalvoStore,
    ⟨rq 4 [], at_ (fun d => { d with cfg.salvos := tset d.cfg.salvos 0 [List.replicate 24 0] }), taken_of (by decide +kernel)⟩,
    ⟨rq 0 [], at_ (id), taken_of (by decide +kernel)⟩⟩

theorem witness_TwinCommands :
    (∃ q s, Taken cmdTwnConfig q s) ∧ (∃ q s, Taken cmdTwnPair q s) ∧ (∃ q s, Taken cmdTwnUnpair q s) ∧ (∃ q s, Taken cmdTwnHandover q s) ∧ (∃ q s, Taken cmdTwnStatusRead q s) ∧ (∃ q s, Taken cmdTwnHealthRead q s) ∧ (∃ q s, Taken cmdTwnEpochSet q s) :=
  ⟨⟨rq 16 [(2, 1, 1), (4, 2, 100), (6, 1, 1), (7, 1, 1)], at_ (id), taken_of (by decide +kernel)⟩,
    ⟨rq 4 [], at_ (fun d => { d with twn.unit := 1, twn.link := 3 }), taken_of (by decide +kernel)⟩,
    ⟨rq 4 [], at_ (fun d => { d with mode := SHADOW, twn.pair := 2 }), taken_of (by decide +kernel)⟩,
    ⟨rq 16 [(6, 6, 100)], at_ (fun d => { d with mode := LEAD, twn.pair := 2, twn.link := 3, twn.partnerFit := true }), taken_of (by decide +kernel)⟩,
    ⟨rq 0 [], at_ (id), taken_of (by decide +kernel)⟩,
    ⟨rq 0 [], at_ (id), taken_of (by decide +kernel)⟩,
    ⟨rq 4 [], at_ (fun d => { d with mode := READY }), taken_of (by decide +kernel)⟩⟩

theorem witness_FaultCommands :
    (∃ q s, Taken cmdFltStatusRead q s) ∧ (∃ q s, Taken cmdFltClear q s) ∧ (∃ q s, Taken cmdFltSeverity q s) ∧ (∃ q s, Taken cmdFltSourceRead q s) ∧ (∃ q s, Taken cmdFltInject q s) ∧ (∃ q s, Taken cmdFltWindow q s) ∧ (∃ q s, Taken cmdFltAudit q s) ∧ (∃ q s, Taken cmdRstBlock q s) ∧ (∃ q s, Taken cmdRstRelease q s) ∧ (∃ q s, Taken cmdRstDevice q s) ∧ (∃ q s, Taken cmdRstStatusRead q s) ∧ (∃ q s, Taken cmdMonConfig q s) ∧ (∃ q s, Taken cmdMonRead q s) :=
  ⟨⟨rq 0 [], at_ (id), taken_of (by decide +kernel)⟩,
    ⟨rq 0 [], at_ (id), taken_of (by decide +kernel)⟩,
    ⟨rq 5 [(2, 2, 1), (4, 1, 65)], at_ (id), taken_of (by decide +kernel)⟩,
    ⟨rq 4 [], at_ (id), taken_of (by decide +kernel)⟩,
    ⟨rq 16 [(2, 1, 1), (8, 2, 1)], at_ (id), taken_of (by decide +kernel)⟩,
    ⟨rq 4 [(0, 1, 1), (1, 1, 1)], at_ (id), taken_of (by decide +kernel)⟩,
    ⟨rq 4 [(0, 1, 1)], at_ (id), taken_of (by decide +kernel)⟩,
    ⟨rq 4 [(0, 1, 1)], at_ (id), taken_of (by decide +kernel)⟩,
    ⟨rq 4 [(0, 1, 1)], at_ (fun d => { d with flt.quarantine := [(1, 0)] }), taken_of (by decide +kernel)⟩,
    ⟨rq 4 [(0, 4, 1381192772)], at_ (id), taken_of (by decide +kernel)⟩,
    ⟨rq 0 [], at_ (id), taken_of (by decide +kernel)⟩,
    ⟨rq 8 [(2, 2, 1), (4, 2, 2)], at_ (id), taken_of (by decide +kernel)⟩,
    ⟨rq 0 [], at_ (id), taken_of (by decide +kernel)⟩⟩

theorem witness_DeviceCommands :
    (∃ q s, Taken cmdDevModeRequest q s) ∧ (∃ q s, Taken cmdDevRemove q s) ∧ (∃ q s, Taken cmdDevStatusRead q s) ∧ (∃ q s, Taken cmdUpdBegin q s) ∧ (∃ q s, Taken cmdUpdBlock q s) ∧ (∃ q s, Taken cmdUpdVerify q s) ∧ (∃ q s, Taken cmdUpdPlace q s) ∧ (∃ q s, Taken cmdUpdActivate q s) ∧ (∃ q s, Taken cmdUpdCancel q s) ∧ (∃ q s, Taken cmdUpdStatusRead q s) :=
  ⟨⟨rq 8 [(4, 1, 4)], at_ (id), taken_of (by decide +kernel)⟩,
    ⟨rq 4 [], at_ (id), taken_of (by decide +kernel)⟩,
    ⟨rq 0 [], at_ (id), taken_of (by decide +kernel)⟩,
    ⟨rq 8 [(0, 4, 4096)], at_ (id), taken_of (by decide +kernel)⟩,
    ⟨rq 16 [], at_ (fun d => { d with upd.state := 1, upd.total := 4096 }), taken_of (by decide +kernel)⟩,
    ⟨rq 0 [], at_ (fun d => { d with upd.state := 1, upd.total := 4096, upd.granules := [0] }), taken_of (by decide +kernel)⟩,
    ⟨rq 0 [], at_ (fun d => { d with upd.state := 3 }), taken_of (by decide +kernel)⟩,
    ⟨rq 16 [(6, 6, 100)], at_ (fun d => { d with upd.state := 5 }), taken_of (by decide +kernel)⟩,
    ⟨rq 0 [], at_ (fun d => { d with upd.state := 1 }), taken_of (by decide +kernel)⟩,
    ⟨rq 0 [], at_ (id), taken_of (by decide +kernel)⟩⟩

theorem witness_MailboxAccesses :
    (∃ (s : State) (n : Nat) (tag : Word), n < 16 ∧ s.dev.host.linkUp = true)
    ∧ (∃ (s : State) (n : Nat), acceptsNext n s.dev = true)
    ∧ (∃ (s : State) (n off : Nat) (bytes : List Byte), n < 16 ∧ off < 0x2000 ∧ s.dev.host.linkUp = true)
    ∧ (∃ (s : State) (n : Nat) (v : Word), n < 16 ∧ s.dev.host.linkUp = true)
    ∧ (∃ (s : State) (v : Word), s.dev.host.linkUp = true)
    ∧ (∃ (s : State) (v : Nat), v < 64 ∧ s.dev.host.linkUp = true) :=
  ⟨⟨at_ (id), 15, 0, by decide +kernel⟩,
    ⟨at_ (fun d => updMbx 15 (fun m => { m with state := 1 }) d), 15, by decide +kernel⟩,
    ⟨at_ (id), 15, 0x1FFF, [0], by decide +kernel⟩,
    ⟨at_ (id), 15, 0, by decide +kernel⟩,
    ⟨at_ (id), 0, by decide +kernel⟩,
    ⟨at_ (id), 63, by decide +kernel⟩⟩

theorem witness_BusAccesses :
    (∃ (s : State) (a len : Nat) (bytes : List Byte), s.dev.host.linkUp = true ∧ s.dev.host.bar2Ready = true ∧ a + bytes.length ≤ stagingBytes)
    ∧ (∃ (s : State) (a len : Nat) (bytes : List Byte), s.dev.host.linkUp = true ∧ s.dev.host.bar2Ready = true ∧ a + len ≤ stagingBytes)
    ∧ (∃ (s : State) (w : Bool) (x : Nat) (v : Word), s.dev.host.linkUp = true ∧ x < 0x800000 ∧ x % 4 = 0)
    ∧ (∃ (s : State) (a len : Nat), s.dev.host.linkUp = true)
    ∧ (∃ (s : State) (m b len : Nat) (bytes : List Byte), s.dev.mode ≠ HELD ∧ m < 9 ∧ reaches m 21 s.dev = true ∧ windowShows b bytes.length (masterBump m xACCESSES 1 (granted 21 m s.dev)) = true)
    ∧ (∃ (s : State) (m b len : Nat) (bytes : List Byte), s.dev.mode ≠ HELD ∧ m < 9 ∧ reaches m 21 s.dev = true ∧ windowShows b len (masterBump m xACCESSES 1 (granted 21 m s.dev)) = true)
    ∧ (∃ (s : State) (t : Nat) (reqs : List XReq), s.dev.mode ≠ HELD ∧ reqs.all (waitsAt t s.dev) = true ∧ reqs ≠ [] ∧ lockSpent t s.dev = false)
    ∧ (∃ (s : State) (t : Nat) (reqs : List XReq), s.dev.mode ≠ HELD ∧ reqs.all (waitsAt t s.dev) = true ∧ lockSpent t s.dev = true)
    ∧ (∃ (s : State) (t : Nat) (q : XReq), s.dev.mode ≠ HELD ∧ q.master < 9 ∧ q.addr % 4 = 0 ∧ targetOf q.addr = none ∧ lockSpent t (strayBurst q s.dev) = false)
    ∧ (∃ (s : State) (t a : Nat) (w : Bool), targetOf a = some t ∧ a % 4 = 0 ∧ lockSpent t s.dev = true)
    ∧ (∃ (s : State) (a : Nat) (v : Word), s.dev.host.linkUp = true ∧ a % 4 = 0 ∧ 0x8000 ≤ a ∧ a < 0x8400)
    ∧ (∃ (s : State) (v : Word), s.dev.host.debug = true ∧ s.dev.host.linkUp = true)
    ∧ (∃ (s : State) (a : Nat) (v : Word), s.dev.host.debug = true ∧ s.dev.host.linkUp = true ∧ s.dev.mode = MAINTENANCE ∧ 0x1000000 ≤ a ∧ a < 2 ^ 32 ∧ a % 4 = 0) :=
  ⟨⟨live, stagingBytes - 1, 1, [0], by decide +kernel, by decide +kernel, by simp [stagingBytes]⟩,
    ⟨live, stagingBytes - 32, 32, [], by decide +kernel, by decide +kernel, by simp [stagingBytes]⟩,
    ⟨at_ (id), true, 0x7FFFFC, 0, by decide +kernel⟩,
    ⟨at_ (id), 0, 8, by decide +kernel⟩,
    ⟨at_ (fun d => { d with memc.winEn := true }), 3, pcBytes - 1, 0, [0], by decide +kernel, by decide +kernel, by decide +kernel, window_edge 1 (by decide)⟩,
    ⟨at_ (fun d => { d with memc.winEn := true }), 3, pcBytes - 8, 8, [], by decide +kernel, by decide +kernel, by decide +kernel, window_edge 8 (by decide)⟩,
    ⟨at_ (id), 20, [⟨8, 0xA0000000, false, [], 1, false⟩], by decide +kernel⟩,
    ⟨at_ (fun d => updTarget 20 (fun x => { x with lock := some 8 }) d), 20, [⟨8, 0xA0000000, false, [], 8, false⟩], by decide +kernel⟩,
    ⟨at_ (id), 21, ⟨8, 0x0FFFFFFC, true, [0], 1, false⟩, by decide +kernel⟩,
    ⟨at_ (fun d => updTarget 21 (fun x => { x with lock := some 8 }) d), 21, 0xC0000000, true, by decide +kernel⟩,
    ⟨at_ (id), 0x83FC, 0, by decide +kernel⟩,
    ⟨at_ (fun d => { d with host.debug := true }), 0, by decide +kernel⟩,
    ⟨at_ (fun d => { d with mode := MAINTENANCE, host.debug := true }), 0xFFFFFFFC, 0, by decide +kernel⟩⟩

theorem witness_StopsAndAudits :
    (∃ (s : State) (f : Func) (x : Drain), drainOf f s.dev = some x ∧ unitDone x s.dev = true)
    ∧ (∃ (s : State) (f : Func) (x : Drain), drainOf f s.dev = some x ∧ unitDone x s.dev = false ∧ x.deadline ≤ s.dev.up)
    ∧ (∃ (s : State) (a : Auditor), s.dev.mode ≠ HELD ∧ auditorExists a = true ∧ auditDue a s.dev = true) :=
  ⟨⟨at_ (fun d => { d with drains := [⟨.txFlow 0, [], 0, 0, []⟩] }), .txFlow 0, ⟨.txFlow 0, [], 0, 0, []⟩, by decide +kernel⟩,
    ⟨at_ (fun d => updRaster 0 (fun x => { x with tg := 0 }) { { d with fab.tgs := tset d.fab.tgs 0 { (default : TimGroup) with format := 0x35 } } with drains := [⟨.raster 0, [], d.up, d.house, []⟩] }), .raster 0, ⟨.raster 0, [], sec, sec, []⟩, by decide +kernel⟩,
    ⟨at_ (id), .cnv 47, by decide +kernel⟩⟩

theorem witness_SelectorEvents :
    (∃ (s : State), selectorRuns s.dev = true ∧ newMs s.dev.tim.ref.lastNco s.dev = true)
    ∧ (∃ (s : State), s.dev.tim.ref.state = 2 ∧ timerPast s.dev.tim.ref.nearSince sec s.dev.up = true)
    ∧ (∃ (s : State), LOADER ≤ s.dev.mode ∧ newMs s.dev.tim.ref.lastLoad s.dev = true)
    ∧ (∃ (s : State) (port : Nat) (m : PtpMsg), blocksRun s.dev = true)
    ∧ (∃ (s : State) (port n : Nat) (k : PtpKind), tbOfPort port s.dev = some n ∧ (blocksRun s.dev && perbyServes s.dev && ptpDue (tget s.dev.tim.tbs n) port k s.dev) = true)
    ∧ (∃ (s : State) (tb : Nat), (tget s.dev.tim.tbs tb).role = 0 ∧ ((tget s.dev.tim.tbs tb).state = 2 ∨ (tget s.dev.tim.tbs tb).state = 3) ∧ heardMasters (tget s.dev.tim.tbs tb) s.dev.up = [])
    ∧ (∃ (s : State) (tb : Nat), (tget s.dev.tim.tbs tb).role = 0 ∧ ((tget s.dev.tim.tbs tb).state = 2 ∨ (tget s.dev.tim.tbs tb).state = 3) ∧ (tget s.dev.tim.tbs tb).lastSync + 8 * logInterval (tget s.dev.tim.tbs tb).logSync ≤ s.dev.up ∧ (tget s.dev.tim.tbs tb).lastSync + 250 * ms ≤ s.dev.up)
    ∧ (∃ (s : State) (kind source : Nat) (phase : Time) (edge : Nat), selectorRuns s.dev = true ∧ (kind = 2 ∨ kind = 4 ∨ kind = 5))
    ∧ (∃ (s : State) (n : Nat) (ppb : Time), selectorRuns s.dev = true ∧ n < 16 ∧ (cand n s.dev).rank ≠ 0 ∧ presenceHeld (cand n s.dev) s.dev = true)
    ∧ (∃ (s : State) (n : Nat), selectorRuns s.dev = true ∧ n < 16 ∧ (cand n s.dev).rank ≠ 0 ∧ (cand n s.dev).qual = false ∧ presenceHeld (cand n s.dev) s.dev = true ∧ timerPast (cand n s.dev).since (((cand n s.dev).holdoff : Rat) * ms) s.dev.up = true)
    ∧ (∃ (s : State) (n : Nat), selectorRuns s.dev = true ∧ n < 16 ∧ (cand n s.dev).rank ≠ 0 ∧ ((cand n s.dev).present = true ∨ (cand n s.dev).qual = true) ∧ (if (cand n s.dev).kind = 2 ∨ (cand n s.dev).kind = 4 ∨ (cand n s.dev).kind = 5 then edgesAbsent (cand n s.dev) s.dev else !presenceHeld (cand n s.dev) s.dev) = true)
    ∧ (∃ (s : State), s.dev.tim.ref.conflict = true ∧ timerPast s.dev.tim.ref.agreeSince (2 * sec) s.dev.up = true)
    ∧ (∃ (s : State), s.dev.tim.ref.state = 0 ∧ s.dev.tim.ref.initDone = false ∧ timerPast s.dev.tim.ref.initFrom ((s.dev.tim.ref.initMs : Rat) * ms) s.dev.up = true) :=
  ⟨⟨at_ (id), by decide +kernel⟩,
    ⟨at_ (fun d => updRef (fun r => { r with state := 2, nearSince := some 0 }) d), by decide +kernel⟩,
    ⟨at_ (id), by decide +kernel⟩,
    ⟨at_ (id), 0, ⟨0, 0, 0, 0, false, false, .delayReq, 0⟩, by decide +kernel⟩,
    ⟨at_ (fun d => updTb 3 (fun b => { b with state := 6, role := 1, ports := [127] }) d), 127, 3, .announce, by decide +kernel⟩,
    ⟨at_ (fun d => updTb 3 (fun b => { b with state := 3, role := 0 }) d), 3, by decide +kernel⟩,
    ⟨at_ (fun d => updTb 3 (fun b => { b with state := 2, role := 0 }) d), 3, by decide +kernel⟩,
    ⟨at_ (id), 2, 0, 0, 2, by decide +kernel⟩,
    ⟨at_ (fun d => updCand 15 (fun c => { c with rank := 1, kind := 2, present := true }) d), 15, 0, by decide +kernel⟩,
    ⟨at_ (fun d => updCand 15 (fun c => { c with rank := 1, kind := 2, present := true, holdoff := 1000, since := some 0 }) d), 15, by decide +kernel⟩,
    ⟨at_ (fun d => updCand 15 (fun c => { c with rank := 1, kind := 1, present := true }) d), 15, by decide +kernel⟩,
    ⟨at_ (fun d => updRef (fun r => { r with conflict := true, agreeSince := some 0 }) { d with up := 2 * sec }), by decide +kernel⟩,
    ⟨at_ (fun d => updRef (fun r => { r with state := 0, initDone := false, initFrom := some 0, initMs := 1000 }) d), by decide +kernel⟩⟩

theorem witness_ClockEvents :
    (∃ (s : State) (pin : Nat), LOADER ≤ s.dev.mode ∧ s.dev.mode ≠ SAFE)
    ∧ (∃ (s : State) (n : Nat), n < 12 ∧ s.dev.mode ≠ HELD ∧ (tget s.dev.tim.synths n).locked = false ∧ (tget s.dev.tim.synths n).bypass = false ∧ (n = 11 ∨ selectionMade (tget s.dev.tim.synths n) s.dev.up = true))
    ∧ (∃ (s : State) (n : Nat), n < 11 ∧ s.dev.mode ≠ HELD ∧ (tget s.dev.tim.synths n).select = 1 ∧ (tget s.dev.tim.synths n).locked = false ∧ (tget s.dev.tim.synths n).searchFrom + 200 * us ≤ s.dev.up)
    ∧ (∃ (s : State) (n : Nat), n < 12 ∧ s.dev.mode ≠ HELD ∧ (tget s.dev.tim.synths n).locked = true)
    ∧ (∃ (s : State) (n : Nat), n < 11 ∧ (tget s.dev.tim.synths n).bypass = true ∧ (tget s.dev.tim.synths n).locked = false ∧ (tget s.dev.tim.synths n).searches < 3 ∧ (tget s.dev.tim.synths n).searchFrom + 10 * ms ≤ s.dev.up)
    ∧ (∃ (s : State) (n : Nat), n < 11 ∧ (tget s.dev.tim.synths n).bypass = true ∧ (tget s.dev.tim.synths n).locked = false ∧ selectionMade (tget s.dev.tim.synths n) s.dev.up = true)
    ∧ (∃ (s : State) (o : Nat) (osb : Bool), oscRuns o osb s.dev = true ∧ (osc o osb s.dev).locked = true)
    ∧ (∃ (s : State) (o : Nat) (osb : Bool), oscRuns o osb s.dev = true ∧ (osc o osb s.dev).locked = false ∧ (osc o osb s.dev).searchFrom + 10 * ms ≤ s.dev.up)
    ∧ (∃ (s : State) (o : Nat) (osb : Bool), oscRuns o osb s.dev = true ∧ (osc o osb s.dev).locked = false ∧ (osc o osb s.dev).searching = true ∧ (osc o osb s.dev).searchFrom + 100 * us ≤ s.dev.up) :=
  ⟨⟨at_ (id), 0, by decide +kernel⟩,
    ⟨at_ (fun d => updSynth 11 (fun x => { x with locked := false, bypass := false }) d), 11, by decide +kernel⟩,
    ⟨at_ (fun d => updSynth 10 (fun x => { x with locked := false, select := 1 }) d), 10, by decide +kernel⟩,
    ⟨at_ (fun d => updSynth 11 (fun x => { x with locked := true }) d), 11, by decide +kernel⟩,
    ⟨at_ (fun d => updSynth 10 (fun x => { x with locked := false, bypass := true, searches := 2 }) d), 10, by decide +kernel⟩,
    ⟨at_ (fun d => updSynth 10 (fun x => { x with locked := false, bypass := true, searches := 1, select := 2 }) d), 10, by decide +kernel⟩,
    ⟨at_ (fun d => updOsc 23 true (fun x => { x with locked := true }) (updOct 23 (fun x => { x with mode := 0 }) d)), 23, true, by decide +kernel⟩,
    ⟨at_ (fun d => updOct 23 (fun x => { x with mode := 0 }) d), 23, true, by decide +kernel⟩,
    ⟨at_ (fun d => updOsc 24 false (fun x => { x with searching := true }) d), 24, false, by decide +kernel⟩⟩

theorem witness_LaneEvents :
    (∃ (s : State) (n : Nat) (peak : Nat), LOADER ≤ s.dev.mode ∧ n < 196 ∧ peak < losThreshold (lane n s.dev) ∧ (lane n s.dev).los = false)
    ∧ (∃ (s : State) (n : Nat) (least : Nat), LOADER ≤ s.dev.mode ∧ n < 196 ∧ losThreshold (lane n s.dev) + 20 ≤ least ∧ (lane n s.dev).los = true)
    ∧ (∃ (s : State) (n : Nat) (v : Int) (errs : Nat) (start : Nat), n < 196 ∧ (lane n s.dev).rxEn = true ∧ (lane n s.dev).los = false ∧ (lane n s.dev).rxState ≠ 6)
    ∧ (∃ (s : State) (n : Nat), n < 192 ∧ (lane n s.dev).rate = 0xE ∧ (lane n s.dev).rxState = 1 ∧ (lane n s.dev).rxEn = true ∧ (lane n s.dev).lol = true ∧ (lane n s.dev).los = false ∧ (lane n s.dev).stepAt + ms ≤ s.dev.up)
    ∧ (∃ (s : State) (n : Nat), n < 196 ∧ (lane n s.dev).rxState = 1 ∧ (lane n s.dev).rxEn = true ∧ (lane n s.dev).los = false ∧ oscLocked (octetOf n) (lane n s.dev).rateNow s.dev = true ∧ ((lane n s.dev).rate ≠ 0xE ∨ (lane n s.dev).lol = false) ∧ (lane n s.dev).acqAt + 10 * us ≤ s.dev.up)
    ∧ (∃ (s : State) (n : Nat), n < 196 ∧ (lane n s.dev).rxState = 2 ∧ (lane n s.dev).adapted = false ∧ (lane n s.dev).stepAt + (if (lane n s.dev).rateNow = 0xA then 5 * ms else 2 * ms) ≤ s.dev.up)
    ∧ (∃ (s : State) (n : Nat) (comp : Bool) (identity : Nat), n < 192)
    ∧ (∃ (s : State) (n : Nat), n < 196 ∧ (lane n s.dev).rxState = 3 ∧ (lane n s.dev).stepAt + 2 * ms ≤ s.dev.up)
    ∧ (∃ (s : State) (o m : Nat), o ≤ 24 ∧ (tget s.dev.octets o).stage = 0 ∧ (tget s.dev.octets o).roveEn = true ∧ (tget s.dev.octets o).spare = true ∧ octIdle o s.dev = false ∧ ((tget s.dev.octets o).osa.locked = true ∧ ((tget s.dev.octets o).osb.locked = true ∨ oscRuns o true s.dev = false)) ∧ (tget s.dev.octets o).lastVisit + ((tget s.dev.octets o).dwell : Rat) * sec ≤ s.dev.up ∧ nextVisit o s.dev = some m)
    ∧ (∃ (s : State) (o : Nat) (mism : Nat), o ≤ 24 ∧ (tget s.dev.octets o).stage = 1 ∧ (tget s.dev.octets o).visitAt + 21100 * us ≤ s.dev.up)
    ∧ (∃ (s : State) (n laneNo : Nat) (allUp : Bool), 192 ≤ n ∧ n < 196 ∧ (lane n s.dev).rxState = 3) :=
  ⟨⟨at_ (fun d => updLane 195 (fun l => { l with los := false }) d), 195, 29, by decide +kernel⟩,
    ⟨at_ (fun d => updLane 195 (fun l => { l with los := true }) d), 195, 80, by decide +kernel⟩,
    ⟨at_ (fun d => updLane 195 (fun l => { l with rxEn := true, los := false }) d), 195, 0, 0, 0, by decide +kernel⟩,
    ⟨at_ (fun d => updLane 191 (fun l => { l with rate := 0xE, rxState := 1, rxEn := true, lol := true, los := false }) d), 191, by decide +kernel⟩,
    ⟨at_ (fun d => updLane 195 (fun l => { l with rate := 10, rateNow := 10, rxState := 1, rxEn := true, los := false }) (updOct 24 (fun x => { x with osa := { locked := true }, osb := { locked := true } }) d)), 195, by decide +kernel⟩,
    ⟨at_ (fun d => updLane 195 (fun l => { l with rxState := 2, adapted := false }) d), 195, by decide +kernel⟩,
    ⟨at_ (id), 191, true, 0, by decide +kernel⟩,
    ⟨at_ (fun d => updLane 195 (fun l => { l with rxState := 3 }) d), 195, by decide +kernel⟩,
    ⟨at_ (fun d => updLane 1 (fun l => { l with rxEn := true, rxState := 4 }) (updOct 0 (fun x => { x with mode := 0, stage := 0, roveEn := true, spare := true, osa := { locked := true }, osb := { locked := true }, dwell := 1 }) d)), 0, 1, by decide +kernel⟩,
    ⟨at_ (fun d => updOct 24 (fun x => { x with stage := 1 }) d), 24, 0, by decide +kernel⟩,
    ⟨at_ (fun d => updLane 195 (fun l => { l with rxState := 3 }) d), 195, 3, true, by decide +kernel⟩⟩

theorem witness_SdiEvents :
    (∃ (s : State) (n stream pos : Nat) (coded : List Bool), wordsArrive n s.dev = true)
    ∧ (∃ (s : State) (n stream : Nat), n < 192 ∧ (rx n s.dev).en = true)
    ∧ (∃ (s : State) (n stream : Nat) (y c : List Nat) (eav : List (Nat × Nat)) (buf : List WordErr), n < 192 ∧ (rx n s.dev).en = true)
    ∧ (∃ (s : State) (n : Nat) (m : SdiMeasure), n < 256 ∧ blocksRun s.dev = true ∧ (rx n s.dev).en = true ∧ 2 ≤ (rx n s.dev).state ∧ (n < 192 ∨ (rx n s.dev).wire.edge = 1))
    ∧ (∃ (s : State) (n : Nat) (p : AncPacket), n < 192 ∧ (rx n s.dev).en = true)
    ∧ (∃ (s : State) (n : Nat) (p : AudioPacket), n < 192 ∧ (rx n s.dev).en = true)
    ∧ (∃ (s : State) (n k : Nat) (buf : List WordErr), n < 256) :=
  ⟨⟨at_ (fun d => updRx 191 (fun r => { r with en := true }) (updLane 191 (fun l => { l with rxState := 4 }) (updOct 23 (fun x => { x with mode := 0 }) d))), 191, 0, 0, [], by decide +kernel⟩,
    ⟨at_ (fun d => updRx 191 (fun r => { r with en := true }) d), 191, 0, by decide +kernel⟩,
    ⟨at_ (fun d => updRx 191 (fun r => { r with en := true }) d), 191, 0, [], [], [], [], by decide +kernel⟩,
    ⟨at_ (fun d => updRx 255 (fun r => { r with en := true, state := 2, wire := { r.wire with edge := 1 } }) d), 255, meas0, by decide +kernel⟩,
    ⟨at_ (fun d => updRx 191 (fun r => { r with en := true }) d), 191, anc0, by decide +kernel⟩,
    ⟨at_ (fun d => updRx 191 (fun r => { r with en := true }) d), 191, ⟨0, 0, true, [], []⟩, by decide +kernel⟩,
    ⟨at_ (id), 255, 0, [], by decide +kernel⟩⟩

theorem witness_EthernetEvents :
    (∃ (s : State) (p : Nat), portExists p s.dev = true ∧ portLink p s.dev = 2 ∧ (port p s.dev).aligned = false)
    ∧ (∃ (s : State) (p : Nat), portExists p s.dev = true ∧ (port p s.dev).link = 2 ∧ (port p s.dev).alignedAt + 10 * ms ≤ s.dev.up ∧ (port p s.dev).aligned = true ∧ (port p s.dev).rf = false)
    ∧ (∃ (s : State) (p : Nat) (lockLost : Bool) (symErrs badHeaders : Nat), portExists p s.dev = true ∧ (port p s.dev).link ≠ 0 ∧ (port p s.dev).aligned = true ∧ (lockLost = true ∨ highSer p symErrs badHeaders s.dev = true))
    ∧ (∃ (s : State) (p : Nat), portExists p s.dev = true ∧ ((port p s.dev).link = 3 ∨ ((port p s.dev).link = 2 ∧ (port p s.dev).aligned = true)))
    ∧ (∃ (s : State) (p : Nat), portExists p s.dev = true ∧ (port p s.dev).link = 4)
    ∧ (∃ (s : State) (p : Nat) (f : EthFrame), blocksRun s.dev = true ∧ portExists p s.dev = true ∧ (port p s.dev).link = 3)
    ∧ (∃ (s : State) (p q : Nat) (t : _), (queueOf p 2 q s.dev).paused = some t ∧ q ≤ 5 ∧ t ≤ s.dev.up)
    ∧ (∃ (s : State) (p q : Nat), portExists p s.dev = true ∧ (port p s.dev).link = 3 ∧ (port p s.dev).fc ≠ 0 ∧ (queueOf p 1 q s.dev).above = true ∧ atXon p q s.dev = false ∧ (queueOf p 1 q s.dev).pauseAt + ((port p s.dev).pauseTime : Rat) * 256 / (portGbps p s.dev : Rat) ≤ s.dev.up)
    ∧ (∃ (s : State) (p : Nat), blocksRun s.dev = true ∧ portExists p s.dev = true ∧ (port p s.dev).link = 3)
    ∧ (∃ (s : State) (mac : Nat) (ptp : Bool), blocksRun s.dev = true ∧ mac < 16) :=
  ⟨⟨at_ (fun d => updPort 0 (fun x => { x with link := 2 }) (updOct 0 (fun x => { x with mode := 1 }) d)), 0, by decide +kernel⟩,
    ⟨at_ (fun d => updPort 0 (fun x => { x with link := 2, aligned := true }) (updOct 0 (fun x => { x with mode := 1 }) d)), 0, by decide +kernel⟩,
    ⟨at_ (fun d => updPort 0 (fun x => { x with link := 3, aligned := true }) (updOct 0 (fun x => { x with mode := 1 }) d)), 0, false, 5561, 0, by decide +kernel⟩,
    ⟨at_ (fun d => updPort 0 (fun x => { x with link := 3 }) (updOct 0 (fun x => { x with mode := 1 }) d)), 0, by decide +kernel⟩,
    ⟨at_ (fun d => updPort 0 (fun x => { x with link := 4 }) (updOct 0 (fun x => { x with mode := 1 }) d)), 0, by decide +kernel⟩,
    ⟨at_ (fun d => updPort 0 (fun x => { x with link := 3 }) (updOct 0 (fun x => { x with mode := 1 }) d)), 0, eth0, by decide +kernel⟩,
    ⟨at_ (fun d => updQueue 0 2 5 (fun q => { q with paused := some 0 }) d), 0, 5, 0, by decide +kernel⟩,
    ⟨at_ (fun d => updQueue 0 1 0 (fun q => { q with above := true, cfg := some ⟨32, 1024, true, false, 64, 0, 0, 0⟩, rx := [⟨0, 0, 0, 0, true, eth0⟩] }) (updPort 0 (fun x => { x with link := 3, fc := 1 }) (updOct 0 (fun x => { x with mode := 1 }) d))), 0, 0, by decide +kernel⟩,
    ⟨at_ (fun d => updPort 0 (fun x => { x with link := 3 }) (updOct 0 (fun x => { x with mode := 1 }) d)), 0, by decide +kernel⟩,
    ⟨at_ (id), 15, true, by decide +kernel⟩⟩

theorem witness_FlowEvents :
    (∃ (s : State) (p : Nat) (table : List WordErr) (window : SymErr), blocksRun s.dev = true ∧ p < 128)
    ∧ (∃ (s : State) (n : Nat), blocksRun s.dev = true ∧ (rxFlow n s.dev).upA = true ∧ (rxFlow n s.dev).lastA + 10 * ms ≤ s.dev.up)
    ∧ (∃ (s : State) (n : Nat), blocksRun s.dev = true ∧ (rxFlow n s.dev).upB = true ∧ (rxFlow n s.dev).lastB + 10 * ms ≤ s.dev.up)
    ∧ (∃ (s : State) (n : Nat), n < 8192 ∧ blocksRun s.dev = true ∧ ((rxFlow n s.dev).frames.any fun f => frameDue (rxFlow n s.dev) f s.dev.up) = true)
    ∧ (∃ (s : State), perbyServes s.dev = true ∧ s.dev.flows.tbl.state = 2 ∧ s.dev.flows.tbl.placed = false)
    ∧ (∃ (s : State), s.dev.flows.tbl.state = 2 ∧ s.dev.flows.tbl.placed = true ∧ s.dev.flows.tbl.switched = none ∧ (∀ t, s.dev.flows.tbl.switchAt = some t → t ≤ s.dev.house))
    ∧ (∃ (s : State) (t : _), s.dev.flows.tbl.switched = some t ∧ s.dev.flows.tbl.state = 2 ∧ t + ms ≤ s.dev.up)
    ∧ (∃ (s : State) (memc healthy : Bool), s.dev.mode ≠ HELD)
    ∧ (∃ (s : State) (n seq k : Nat), outputsRun s.dev = true ∧ n < 8192 ∧ sendsNow n s.dev = true ∧ firstInTurn n s.dev = true ∧ packetIs n seq k s.dev = true)
    ∧ (∃ (s : State) (p group : Nat), blocksRun s.dev = true ∧ perbyServes s.dev = true ∧ portExists p s.dev = true ∧ queriedGroups p group s.dev ≠ [])
    ∧ (∃ (s : State) (p ip : Nat), blocksRun s.dev = true ∧ perbyServes s.dev = true ∧ portExists p s.dev = true ∧ (port p s.dev).ip ≠ 0 ∧ (port p s.dev).ip = ip) :=
  ⟨⟨at_ (id), 127, [], [], by decide +kernel⟩,
    ⟨at_ (fun d => updRxFlow 8191 (fun x => { x with upA := true }) d), 8191, by decide +kernel⟩,
    ⟨at_ (fun d => updRxFlow 8191 (fun x => { x with upB := true }) d), 8191, by decide +kernel⟩,
    ⟨at_ (fun d => updRxFlow 8191 (fun x => { x with type := 1, frames := [{ ts := 0, first := 0, prev := none, later := some (1, 0) }] }) d), 8191, by decide +kernel⟩,
    ⟨at_ (fun d => { d with flows.tbl.state := 2 }), by decide +kernel⟩,
    ⟨at_ (fun d => { d with flows.tbl.state := 2, flows.tbl.placed := true, flows.tbl.switchAt := some 0 }), by decide, by decide, by decide, by intro t h; cases h; decide +kernel⟩,
    ⟨at_ (fun d => { d with flows.tbl.state := 2, flows.tbl.switched := some 0 }), 0, by decide +kernel⟩,
    ⟨at_ (id), true, true, by decide +kernel⟩,
    ⟨at_ (fun d => updTxFlow 8191 (fun x => { x with en := true, type := 2 }) d), 8191, 0, 0, by decide +kernel⟩,
    ⟨at_ (fun d => updPort 0 (fun x => { x with link := 3 }) (updOct 0 (fun x => { x with mode := 1 }) { d with flows.groups := [⟨0, 14 * 2 ^ 28, 0⟩] })), 0, 0, by decide +kernel⟩,
    ⟨at_ (fun d => updPort 0 (fun x => { x with ip := 1 }) (updOct 0 (fun x => { x with mode := 1 }) d)), 0, 1, by decide +kernel⟩⟩

theorem witness_MemoryEvents :
    (∃ (s : State) (k : Nat) (q : MemReq), k < 64 ∧ q.requester < 66 ∧ q.word < pcBytes / 32)
    ∧ (∃ (s : State) (k : Nat), k < 64 ∧ ((pc k s.dev).state = 2 ∨ (pc k s.dev).state = 3) ∧ (pc k s.dev).holiday.isNone = true ∧ (chooseBurst (pc k s.dev) s.dev).isSome = true)
    ∧ (∃ (s : State) (k : Nat) (errs fabric : SymErr), k < 64 ∧ ((pc k s.dev).state = 2 ∨ (pc k s.dev).state = 3) ∧ (pc k s.dev).issued ≠ [])
    ∧ (∃ (s : State) (k : Nat), k < 64 ∧ ((pc k s.dev).state = 2 ∨ (pc k s.dev).state = 3) ∧ (pc k s.dev).due = none)
    ∧ (∃ (s : State) (k : Nat), k < 64 ∧ ((pc k s.dev).state = 2 ∨ (pc k s.dev).state = 3) ∧ (pc k s.dev).dueRetrain = none ∧ retrainDue k s.dev = true)
    ∧ (∃ (s : State) (k : Nat) (r : Bool), nextHoliday s.dev = some (k, r) ∧ holidayLength r + 1000 ≤ tolMin s.dev ∧ noHoliday s.dev = true ∧ (∀ t, s.dev.memc.lastHoliday = some t → t + 10000 ≤ s.dev.up))
    ∧ (∃ (s : State) (k : Nat), k < 64 ∧ ((pc k s.dev).state = 2 ∨ (pc k s.dev).state = 3) ∧ noHoliday s.dev = true ∧ ((pc k s.dev).due.isSome = true ∨ timerPast (pc k s.dev).dueRetrain sec s.dev.up = true))
    ∧ (∃ (s : State) (k : Nat) (r : Bool) (t : Rat), (pc k s.dev).holiday = some (r, t) ∧ t ≤ s.dev.up)
    ∧ (∃ (s : State) (k : Nat) (errs : SymErr), k < 64 ∧ ((pc k s.dev).state = 2 ∨ (pc k s.dev).state = 3) ∧ (pc k s.dev).holiday.isNone = true ∧ ((pc k s.dev).targets ≠ [] ∨ patrolDue (pc k s.dev) s.dev = true) ∧ canTag (pc k s.dev) 65 = true)
    ∧ (∃ (s : State) (k : Nat), k < 64 ∧ ((pc k s.dev).state = 2 ∨ (pc k s.dev).state = 3) ∧ (pc k s.dev).winAt + sec ≤ s.dev.house)
    ∧ (∃ (s : State) (k : Nat), k < 64 ∧ ((pc k s.dev).state = 2 ∨ (pc k s.dev).state = 3) ∧ (pc k s.dev).holiday.isNone = true ∧ ((pc k s.dev).issued.any fun t => !t.req.write && decide (t.issued + 10 * us ≤ s.dev.up)) = true)
    ∧ (∃ (s : State) (k : Nat), k < 64 ∧ (pc k s.dev).state = 1 ∧ (6, k) ∈ s.dev.flt.inReset)
    ∧ (∃ (s : State) (r : Nat), blocksRun s.dev = true ∧ (migrating s.dev).length < s.dev.memc.migPar ∧ canMigrate r s.dev = true ∧ ((rings s.dev).all fun q => decide (r ≤ q) || !canMigrate q s.dev) = true)
    ∧ (∃ (s : State) (r : Nat), (stream r s.dev).old.isSome = true ∧ ((stream r s.dev).slots.all fun s => decide (s.state = 0) || !s.old) = true)
    ∧ (∃ (s : State) (r : Retire), s.dev.memc.retire = some r ∧ r.copied = false ∧ perbyServes s.dev = true ∧ r.since + copyTime (sysCopies r.pcs s.dev).length ≤ s.dev.up)
    ∧ (∃ (s : State) (r : _), s.dev.memc.retire = some r ∧ r.copied = true ∧ migrationsDone s.dev = true) :=
  ⟨memory_edge,
    ⟨at_ (fun d => updPc 63 (fun x => { x with state := 2, queue := [{ req := ⟨65, false, 0, 0, false⟩ }] }) d), 63, by decide +kernel⟩,
    ⟨at_ (fun d => updPc 63 (fun x => { x with state := 3, issued := [{ req := ⟨65, false, 0, 0, false⟩ }] }) d), 63, [], [], by decide +kernel⟩,
    ⟨at_ (fun d => updPc 63 (fun x => { x with state := 2, due := none }) d), 63, by decide +kernel⟩,
    ⟨at_ (fun d => updPc 63 (fun x => { x with state := 2, dueRetrain := none }) d), 63, by decide +kernel⟩,
    holiday_begins,
    ⟨at_ (fun d => updPc 63 (fun x => { x with state := 2, due := some 0 }) d), 63, by decide +kernel⟩,
    ⟨at_ (fun d => updPc 63 (fun x => { x with holiday := some (true, 0) }) d), 63, true, 0, by decide +kernel⟩,
    ⟨at_ (fun d => updPc 63 (fun x => { x with state := 2 }) { d with memc.scrubEn := true }), 63, [], by decide +kernel⟩,
    ⟨at_ (fun d => updPc 63 (fun x => { x with state := 2 }) d), 63, by decide +kernel⟩,
    ⟨at_ (fun d => updPc 63 (fun x => { x with state := 2, issued := [{ req := ⟨65, false, 0, 0, false⟩ }] }) d), 63, by decide +kernel⟩,
    ⟨at_ (fun d => updPc 63 (fun x => { x with state := 1 }) { d with flt.inReset := [(6, 63)] }), 63, by decide +kernel⟩,
    ring_moves,
    ⟨at_ (fun d => updStream 1151 (fun x => { x with old := some default }) d), 1151, by decide +kernel⟩,
    copy_done,
    ⟨at_ (fun d => { d with memc.retire := some ⟨[0], false, true, 0, 0, 0⟩ }), ⟨[0], false, true, 0, 0, 0⟩, by decide +kernel⟩⟩

theorem witness_FabricEvents :
    (∃ (s : State) (r : Nat) (start : Time), producerRuns r s.dev = true ∧ frameAtHand r start s.dev = true ∧ (drainOf (.ingress r) s.dev).isNone = true)
    ∧ (∃ (s : State) (r n : Nat) (fabric : List WordErr), writingFrame r false (recomposeAll s).dev = some n ∧ writeEnds r (recomposeAll s).dev = true)
    ∧ (∃ (s : State) (tg k : Nat), blocksRun s.dev = true ∧ tg < 64 ∧ definedFormat (timGroup tg s.dev).format ∧ 1 ≤ k ∧ (timGroup tg s.dev).plannedK < k ∧ tgTime (timGroup tg s.dev) (k - 1) ≤ s.dev.house ∧ s.dev.house < confTime (timGroup tg s.dev) k)
    ∧ (∃ (s : State) (tg k : Nat), blocksRun s.dev = true ∧ tg < 64 ∧ definedFormat (timGroup tg s.dev).format ∧ (timGroup tg s.dev).plannedK = k ∧ (timGroup tg s.dev).confK < k ∧ confTime (timGroup tg s.dev) k ≤ s.dev.house)
    ∧ (∃ (s : State) (tg k : Nat) (buf : List (Nat × WordErr)), boundaryDue tg k s.dev = true)
    ∧ (∃ (s : State) (dst : Nat) (sp : _), (audDst dst s.dev).splice = some sp ∧ sp.begun = false ∧ sp.n ≤ s.dev.aud.block)
    ∧ (∃ (s : State) (dst : Nat) (sp : _), (audDst dst s.dev).splice = some sp ∧ sp.begun = true ∧ sp.n + 16 ≤ s.dev.aud.block)
    ∧ (∃ (s : State) (e j q : Nat) (buf : List WordErr), e < 48 ∧ pictureDue e j q s.dev = true)
    ∧ (∃ (s : State) (e j q : Nat), ledgerLead s.dev = true ∧ (engine e s.dev).en = true ∧ q < (if byField (timGroup (cvTg (engine e s.dev).conf) s.dev).format then 2 else 1) ∧ pictureStart (timGroup (cvTg (engine e s.dev).conf) s.dev) j q - 500 * us ≤ s.dev.house ∧ s.dev.house < pictureStart (timGroup (cvTg (engine e s.dev).conf) s.dev) j q ∧ (∀ j' q' l, (engine e s.dev).sent = some (j', q', l) → j' < j ∨ (j' = j ∧ q' < q)))
    ∧ (∃ (s : State) (e line sample lateWords : Nat), rasterReads e s.dev = true ∧ (raster e s.dev).shown.isSome = true ∧ outputsRun s.dev = true ∧ line < activeLines (timGroup (raster e s.dev).tg s.dev).format ∧ sample < activeWidth (timGroup (raster e s.dev).tg s.dev).format) :=
  ⟨⟨at_ (fun d => updRx 0 (fun r => { r with en := true, state := 3, format := 0x35, sampling := 0, began := true, start := 0 }) (updStream 1151 (fun x => { x with bound := true, n := 1, kind := 1, id := 0, format := 0x35, sampling := 0 }) d)), 1151, 0, by decide +kernel⟩,
    ⟨at_ (fun d => updStream 1151 (fun x => { x with slots := [{ state := 1, num := 7 }] }) d), 1151, 7, [], by decide +kernel⟩,
    ⟨at_ (fun d => { d with fab.tgs := tset d.fab.tgs 63 { (default : TimGroup) with format := 0x35 } }), 63, 26, by decide +kernel⟩,
    ⟨at_ (fun d => { d with fab.tgs := tset d.fab.tgs 63 { (default : TimGroup) with format := 0x35, plannedK := 25, confK := 24 } }), 63, 25, by decide +kernel⟩,
    ⟨at_ (fun d => { d with fab.tgs := tset d.fab.tgs 63 { (default : TimGroup) with format := 0x35 } }), 63, 25, [], by decide +kernel⟩,
    ⟨at_ (fun d => updDst 0 (fun x => { x with splice := some ⟨0, default, default, false, false⟩ }) d), 0, ⟨0, default, default, false, false⟩, by decide +kernel⟩,
    ⟨at_ (fun d => updDst 0 (fun x => { x with splice := some ⟨0, default, default, true, false⟩ }) { d with aud.block := 16 }), 0, ⟨0, default, default, true, false⟩, by decide +kernel⟩,
    ⟨at_ (fun d => updEngine 47 (fun x => { x with en := true, conf := List.replicate 88 0 }) { d with fab.tgs := tset d.fab.tgs 0 { (default : TimGroup) with format := 0x35 } }), 47, 25, 0, [], by decide +kernel⟩,
    ⟨at_ (fun d => updEngine 47 (fun x => { x with en := true, conf := List.replicate 88 0 }) { { d with fab.tgs := tset d.fab.tgs 0 { (default : TimGroup) with format := 0x35 } } with mode := LEAD, house := sec - 400 * us }), 47, 25, 0, by decide +kernel, by decide +kernel, by decide +kernel, by decide +kernel, by decide +kernel, by intro a b c h; cases h⟩,
    ⟨at_ (fun d => updRaster 1151 (fun x => { x with n := 1, tg := 0, shown := some ⟨0, [], 0⟩ }) { d with fab.tgs := tset d.fab.tgs 0 { (default : TimGroup) with format := 0x35 }, served := 0 }), 1151, 1079, 1919, 1, by decide +kernel⟩⟩

theorem witness_AudioEvents :
    (∃ (s : State) (cells : List WordErr) (samples : List (Nat × Nat × WordErr)), blockDue s.dev = true)
    ∧ (∃ (s : State) (w : Nat), blocksRun s.dev = true ∧ (s.dev.aud.badCells.any fun x => decide (x.1 = w)) = true)
    ∧ (∃ (s : State) (p : Nat) (f : Subframe), p < 32 ∧ (audPort 1 p s.dev).state ≠ 0 ∧ blocksRun s.dev = true)
    ∧ (∃ (s : State) (kind p : Nat) (tenthPpm : Int), qualifies kind p s.dev = true)
    ∧ (∃ (s : State) (kind p : Nat), qualifies kind p s.dev = true ∧ (audPort kind p s.dev).state = 1 ∧ timerPast (audPort kind p s.dev).since (((audPort kind p s.dev).holdoff : Rat) * ms) s.dev.up = true)
    ∧ (∃ (s : State) (kind p cause : Nat), qualifies kind p s.dev = true ∧ 1 ≤ (audPort kind p s.dev).state ∧ (audPort kind p s.dev).state ≤ 3 ∧ 1 ≤ cause ∧ cause ≤ 3 ∧ (cause ≠ 1 ∨ preambleAbsent (audPort kind p s.dev) s.dev.up = true) ∧ (cause ≠ 2 ∨ (audPort kind p s.dev).freq < -10000 ∨ 10000 < (audPort kind p s.dev).freq))
    ∧ (∃ (s : State) (p : Nat), blocksRun s.dev = true ∧ p < 256 ∧ (rx p s.dev).state = 3)
    ∧ (∃ (s : State) (p : Nat), blocksRun s.dev = true ∧ p < 32 ∧ (audPort 1 p s.dev).state = 2 ∧ (audPort 1 p s.dev).instant ≠ some (mediaIndex s.dev.house s.dev))
    ∧ (∃ (s : State) (p : Nat), blocksRun s.dev = true ∧ p < 8 ∧ (audPort 3 p s.dev).state = 2 ∧ (audPort 3 p s.dev).role = 1 ∧ (audPort 3 p s.dev).instant ≠ some (mediaIndex s.dev.house s.dev))
    ∧ (∃ (s : State) (p : Nat) (slots : List Word), p < 8 ∧ (audPort 3 p s.dev).set = true ∧ blocksRun s.dev = true ∧ ((audPort 3 p s.dev).role = 1 ∨ (((audPort 3 p s.dev).state ≠ 0 ∨ (audPort 4 p s.dev).state ≠ 0) ∧ (audPort 3 p s.dev).instant ≠ some (mediaIndex s.dev.house s.dev)))) :=
  ⟨⟨at_ (id), [], [], by decide +kernel⟩,
    ⟨at_ (fun d => { d with aud.badCells := [(262143, true, false)] }), 262143, by decide +kernel⟩,
    ⟨at_ (fun d => updPort' 1 31 (fun x => { x with state := 1 }) d), 31, sub0, by decide +kernel⟩,
    ⟨at_ (fun d => updPort' 1 31 (fun x => { x with state := 1 }) d), 1, 31, 0, by decide +kernel⟩,
    ⟨at_ (fun d => updPort' 1 31 (fun x => { x with state := 1, since := some 0 }) d), 1, 31, by decide +kernel⟩,
    ⟨at_ (fun d => updPort' 1 31 (fun x => { x with state := 3 }) d), 1, 31, 3, by decide +kernel⟩,
    ⟨at_ (fun d => updRx 255 (fun r => { r with state := 3 }) d), 255, by decide +kernel⟩,
    ⟨at_ (fun d => updPort' 1 31 (fun x => { x with state := 2 }) d), 31, by decide +kernel⟩,
    ⟨at_ (fun d => updPort' 3 7 (fun x => { x with state := 2, role := 1 }) d), 7, by decide +kernel⟩,
    ⟨at_ (fun d => updPort' 3 7 (fun x => { x with set := true, role := 1 }) d), 7, [], by decide +kernel⟩⟩

theorem witness_PerbyEvents :
    (∃ (s : State) (core : Nat), core < 4 ∧ s.dev.host.perbyUp = true ∧ s.dev.host.restarting = false)
    ∧ (∃ (s : State), s.dev.host.restarting = true)
    ∧ (∃ (s : State), s.dev.host.restarting = true ∧ s.dev.host.restartAt + 120 * ms ≤ s.dev.up)
    ∧ (∃ (s : State), s.dev.host.debug = true ∧ s.dev.host.unlockedAt + 3600 * sec ≤ s.dev.up)
    ∧ (∃ (s : State) (x : BitVec 256) (t : Rat), s.dev.host.challenge = some (x, t) ∧ t + 60 * sec ≤ s.dev.up)
    ∧ (∃ (s : State) (x : Snapshot), s.dev.host.snaps.find? (fun x => decide (x.t ≤ s.dev.house)) = some x ∧ (∀ a ∈ x.addrs, latched s.hbm a s.dev ≠ none) ∧ (∀ ws, x.words = some ws → ∀ w ∈ ws, w ≠ none)) :=
  ⟨⟨at_ (id), 3, by decide +kernel⟩,
    ⟨at_ (fun d => { d with host.restarting := true }), by decide +kernel⟩,
    ⟨at_ (fun d => { d with host.restarting := true }), by decide +kernel⟩,
    ⟨at_ (fun d => { d with host.debug := true, up := 3600 * sec }), by decide +kernel⟩,
    ⟨at_ (fun d => { d with host.challenge := some (0, 0), up := 60 * sec }), 0, 0, by decide +kernel⟩,
    ⟨at_ (fun d => { d with host.snaps := [⟨0, 0, 0, [0x10000000], 0, none⟩] }), ⟨0, 0, 0, [0x10000000], 0, none⟩, by decide +kernel⟩⟩

theorem witness_CommitEvents :
    (∃ (s : State) (b : Nat), b < 4 ∧ perbyServes s.dev = true)
    ∧ (∃ (s : State) (e : Nat), e < 256 ∧ (almEntry e s.dev).state = 1 ∧ (almEntry e s.dev).instant - 500 * ms ≤ s.dev.house ∧ s.dev.mode ≠ SAFE ∧ perbyServes s.dev = true)
    ∧ (∃ (s : State) (e : Nat), e < 256 ∧ (almEntry e s.dev).state = 2 ∧ (almEntry e s.dev).handed = false ∧ s.dev.house ≤ (almEntry e s.dev).instant - 250 * ms ∧ perbyServes s.dev = true)
    ∧ (∃ (s : State) (e : Nat), e < 256 ∧ (almEntry e s.dev).state = 2 ∧ (almEntry e s.dev).handed = false ∧ (almEntry e s.dev).instant - 250 * ms ≤ s.dev.house)
    ∧ (∃ (s : State) (e : Nat), e < 256 ∧ (almEntry e s.dev).state = 1 ∧ (almEntry e s.dev).instant - 250 * ms ≤ s.dev.house)
    ∧ (∃ (s : State) (e : Nat) (l : List Nat), strobeDue s.dev = e :: l)
    ∧ (∃ (s : State) (e : Nat), (almOrder (settle s.dev)).find? (fun e => (almEntry e (settle s.dev)).strobed) = some e ∧ (((almOrder (settle s.dev)).filter fun a => decide ((almEntry a (settle s.dev)).instant = (almEntry e (settle s.dev)).instant) && (almEntry a (settle s.dev)).handed).all fun a => entryApplied a (settle s.dev)) = true)
    ∧ (∃ (s : State) (b : Nat) (w : Waiting) (l : List Waiting), ((s.dev.cfg.waiting.filter (rearmable b s.dev)).filter fun w => pointPassed w.point s.dev) = w :: l)
    ∧ (∃ (s : State) (b : Nat), ((s.dev.cfg.waiting.filter (rearmable b s.dev)).filter fun w => pointPassed w.point s.dev) = []) :=
  ⟨⟨at_ (id), 3, by decide +kernel⟩,
    ⟨at_ (fun d => updAlm 255 (fun x => { x with state := 1 }) d), 255, by decide +kernel⟩,
    ⟨at_ (fun d => updAlm 255 (fun x => { x with state := 2, instant := 2 * sec }) d), 255, by decide +kernel⟩,
    ⟨at_ (fun d => updAlm 255 (fun x => { x with state := 2 }) d), 255, by decide +kernel⟩,
    ⟨at_ (fun d => updAlm 255 (fun x => { x with state := 1 }) d), 255, by decide +kernel⟩,
    ⟨at_ (fun d => updAlm 255 (fun x => { x with state := 2, handed := true }) d), 255, [], by decide +kernel⟩,
    ⟨at_ (fun d => updAlm 255 (fun x => { x with state := 2, handed := true, strobed := true }) d), 255, by decide +kernel⟩,
    ⟨at_ (fun d => { d with cfg.waiting := [⟨.now, ⟨0x0601, le 8 0⟩, some 255, true⟩] }), blockOfChange ⟨0x0601, le 8 0⟩, ⟨.now, ⟨0x0601, le 8 0⟩, some 255, true⟩, [], by decide +kernel⟩,
    ⟨at_ (id), 255, by decide +kernel⟩⟩

theorem witness_TwinMessages :
    (∃ (s : State) (h : LinkHdr) (m : HelloMsg), FrameTaken h s.dev)
    ∧ (∃ (s : State) (h : LinkHdr) (m : HeartbeatMsg), FrameTaken h s.dev)
    ∧ (∃ (s : State), twinUp s.dev = true ∧ s.dev.twn.lastHbSent + 100 * us ≤ s.dev.up)
    ∧ (∃ (s : State) (h : LinkHdr) (leftS : Nat) (leftNs : Time) (cameS : Nat) (cameNs : Time), FrameTaken h s.dev)
    ∧ (∃ (s : State), twinUp s.dev = true ∧ s.dev.twn.lastTimeSent + ms ≤ s.dev.up)
    ∧ (∃ (s : State) (h : LinkHdr) (fk pk : BitVec 128) (at_ : Time), FrameTaken h s.dev)
    ∧ (∃ (s : State) (h : LinkHdr) (l : List (BitVec 256)), FrameTaken h s.dev)
    ∧ (∃ (s : State) (h : LinkHdr) (m : DigestMsg), FrameTaken h s.dev)
    ∧ (∃ (s : State) (h : LinkHdr) (m : MirrorMsg), FrameTaken h s.dev)
    ∧ (∃ (s : State) (h : LinkHdr) (instant : Time) (epoch : Nat), FrameTaken h s.dev ∧ inPairRole (frameTaken h s.dev) = true ∧ roleMode (frameTaken h s.dev) = SHADOW)
    ∧ (∃ (s : State) (h : LinkHdr) (reason : Nat), FrameTaken h s.dev ∧ (frameTaken h s.dev).twn.pair ≠ 0)
    ∧ (∃ (s : State) (h : LinkHdr) (lo hi : Word) (pass : Bool), FrameTaken h s.dev)
    ∧ (∃ (s : State) (h : LinkHdr) (l : List (Nat × Nat)), FrameTaken h s.dev) :=
  ⟨⟨at_ (fun d => { d with twn.link := 3 }), ⟨0, 0, []⟩, ⟨0, 0, 0, 0, 0, 0, 0, true, 0⟩, by unfold FrameTaken; decide +kernel⟩,
    ⟨at_ (fun d => { d with twn.link := 3 }), ⟨0, 0, []⟩, ⟨0, 0, 0, 0, 0, 0, false, 0⟩, by unfold FrameTaken; decide +kernel⟩,
    ⟨at_ (fun d => { d with twn.link := 3 }), by decide +kernel⟩,
    ⟨at_ (fun d => { d with twn.link := 3 }), ⟨0, 0, []⟩, 0, 0, 0, 0, by unfold FrameTaken; decide +kernel⟩,
    ⟨at_ (fun d => { d with twn.link := 3 }), by decide +kernel⟩,
    ⟨at_ (fun d => { d with twn.link := 3 }), ⟨0, 0, []⟩, 0, 0, 0, by unfold FrameTaken; decide +kernel⟩,
    ⟨at_ (fun d => { d with twn.link := 3 }), ⟨0, 0, []⟩, [], by unfold FrameTaken; decide +kernel⟩,
    ⟨at_ (fun d => { d with twn.link := 3 }), ⟨0, 0, []⟩, ⟨[], []⟩, by unfold FrameTaken; decide +kernel⟩,
    ⟨at_ (fun d => { d with twn.link := 3 }), ⟨0, 0, []⟩, ⟨0, none, 0, 0, [], 0, false⟩, by unfold FrameTaken; decide +kernel⟩,
    ⟨at_ (fun d => { d with mode := SHADOW, twn.link := 3, twn.pair := 2 }), ⟨0, 0, []⟩, 0, 0, by unfold FrameTaken; decide +kernel⟩,
    ⟨at_ (fun d => { d with twn.link := 3, twn.pair := 2 }), ⟨0, 0, []⟩, 3, by unfold FrameTaken; decide +kernel⟩,
    ⟨at_ (fun d => { d with twn.link := 3 }), ⟨0, 0, []⟩, 0, 0, true, by unfold FrameTaken; decide +kernel⟩,
    ⟨at_ (fun d => { d with twn.link := 3 }), ⟨0, 0, []⟩, [], by unfold FrameTaken; decide +kernel⟩⟩

theorem witness_TwinEvents :
    (∃ (s : State), twinUp s.dev = true ∧ s.dev.twn.replay ≠ [] ∧ s.dev.twn.ackAt + 10 * us ≤ s.dev.up)
    ∧ (∃ (s : State), twinUp s.dev = true ∧ s.dev.twn.heardAt + 100 * us ≤ s.dev.up)
    ∧ (∃ (s : State), blocksRun s.dev = true ∧ twinUp s.dev = false ∧ twinLanesUp s.dev = true ∧ s.dev.twn.peerUp = true ∧ (0x0A, 0) ∉ s.dev.flt.inReset ∧ (0x0A, 0) ∉ s.dev.flt.quarantine)
    ∧ (∃ (s : State) (pins : List PinTrace), blocksRun s.dev = true ∧ s.dev.twn.ackSampled + 100 * us ≤ s.dev.up)
    ∧ (∃ (s : State) (t : _), s.dev.twn.suppress = false ∧ s.dev.mode = HANDOVER ∧ s.dev.twn.takenAt = some t ∧ (claimFrame t s.dev).1 + 2 * (claimFrame t s.dev).2 ≤ s.dev.house)
    ∧ (∃ (s : State), s.dev.twn.beat = true ∧ s.dev.twn.lastBeat + (s.dev.twn.hb : Rat) * ms / 2 ≤ s.dev.up)
    ∧ (∃ (s : State), s.dev.mode = HANDOVER ∧ s.dev.twn.judgedAt + 100 * us ≤ s.dev.up)
    ∧ (∃ (s : State) (t : _), (s.dev.twn.pair = 1 ∨ s.dev.twn.resync = true) ∧ s.dev.twn.step = 4 ∧ s.dev.twn.tm = some t ∧ t ≤ s.dev.house)
    ∧ (∃ (s : State) (t : _), s.dev.twn.pair = 1 ∧ s.dev.twn.step = 5 ∧ blocksRun s.dev = true ∧ s.dev.twn.ts = some t ∧ t ≤ s.dev.house)
    ∧ (∃ (s : State) (tg : Nat) (p : HandoverPlan), s.dev.twn.plan = some p ∧ inPairRole s.dev = true ∧ p.t ≤ s.dev.house ∧ (p.t ≤ tgBoundary tg s.dev ∨ rasters s.dev = []))
    ∧ (∃ (s : State) (t : _), vigilRuns s.dev = true ∧ s.dev.twn.fit = false ∧ s.dev.twn.passSince = some t ∧ t + (s.dev.twn.settle : Rat) * sec ≤ s.dev.up) :=
  ⟨⟨at_ (fun d => { d with twn.link := 3, twn.replay := [⟨.keys 0 0 0, 0, 0⟩] }), by decide +kernel⟩,
    ⟨at_ (fun d => { d with twn.link := 3 }), by decide +kernel⟩,
    ⟨at_ (fun d => updLane 192 (fun l => { l with rxState := 4, order := 0 }) (updLane 193 (fun l => { l with rxState := 4, order := 1 }) (updLane 194 (fun l => { l with rxState := 4, order := 2 }) (updLane 195 (fun l => { l with rxState := 4, order := 3 }) { d with twn.peerUp := true })))), by decide +kernel⟩,
    ⟨at_ (id), [], by decide +kernel⟩,
    ⟨at_ (fun d => { d with mode := HANDOVER, twn.suppress := false, twn.takenAt := some 0 }), 0, by decide +kernel⟩,
    ⟨at_ (fun d => { d with twn.beat := true, twn.lastBeat := 0, twn.hb := 10 }), by decide +kernel⟩,
    ⟨at_ (fun d => { d with mode := HANDOVER }), by decide +kernel⟩,
    ⟨at_ (fun d => { d with twn.pair := 1, twn.step := 4, twn.tm := some 0 }), 0, by decide +kernel⟩,
    ⟨at_ (fun d => { d with twn.pair := 1, twn.step := 5, twn.ts := some 0 }), 0, by decide +kernel⟩,
    ⟨at_ (fun d => { d with mode := SHADOW, twn.pair := 2, twn.plan := some ⟨0, 0, none⟩ }), 63, ⟨0, 0, none⟩, by decide +kernel⟩,
    ⟨at_ (fun d => { d with mode := SHADOW, twn.pair := 2, twn.link := 3, twn.passSince := some 0, twn.settle := 1 }), 0, by decide +kernel⟩⟩

theorem witness_FaultEvents :
    (∃ (s : State) (r : Report), s.dev.mode ≠ HELD)
    ∧ (∃ (s : State) (src : Nat), s.dev.mode ≠ HELD)
    ∧ (∃ (s : State), s.dev.mode ≠ HELD ∧ (∀ t, s.dev.flt.lastCheck = some t → t + 10 * ms ≤ s.dev.up))
    ∧ (∃ (s : State) (src : Nat) (t : _), s.dev.mode ≠ HELD ∧ implemented src = true ∧ s.dev.flt.lastCheck = some t ∧ t + 100 * us ≤ s.dev.up)
    ∧ (∃ (s : State) (src : Nat), s.dev.mode ≠ HELD ∧ implemented src = true)
    ∧ (∃ (s : State) (domain inst : Nat), (domain ≠ 6 ∨ (pc inst s.dev).state ≠ 1) ∧ (domain, inst) ∈ s.dev.flt.inReset)
    ∧ (∃ (s : State) (domain inst : Nat) (w : Window), s.dev.flt.windows.find? (fun w => decide (w.domain = domain ∧ w.inst = inst ∧ w.closeAt ≤ s.dev.up)) = some w)
    ∧ (∃ (s : State) (i : Nat) (value : Int), i < 98 ∧ sampleDue i s.dev = true ∧ (s.dev.mode ≠ HELD ∨ (s.dev.rst.trip = true ∧ i < 16)))
    ∧ (∃ (s : State), tripDue s.dev = true) :=
  ⟨⟨at_ (id), ⟨0x0D0, true, 0, 0, 0, false, false, false⟩, by decide +kernel⟩,
    ⟨at_ (id), 0x0D0, by decide +kernel⟩,
    ⟨live, by decide, by intro t h; cases h⟩,
    ⟨at_ (fun d => { d with flt.lastCheck := some 0 }), 0x0D0, 0, by decide +kernel⟩,
    ⟨at_ (id), 0x0D0, by decide +kernel⟩,
    ⟨at_ (fun d => { d with flt.inReset := [(1, 0)] }), 1, 0, by decide +kernel⟩,
    ⟨at_ (fun d => { d with flt.windows := [⟨1, 0, 0, 0⟩] }), 1, 0, ⟨1, 0, 0, 0⟩, by decide +kernel⟩,
    ⟨at_ (id), 97, 0, by decide +kernel⟩,
    ⟨at_ (fun d => { d with rst.mons := tset d.rst.mons 15 { (default : Monitor) with runTrip := 4 } }), by decide +kernel⟩⟩

theorem witness_BootEvents :
    (∃ (s : State), s.dev.mode = HELD)
    ∧ (∃ (s : State) (copy0 copy1 : Bool), s.dev.mode = TRIM)
    ∧ (∃ (s : State), s.dev.mode = LOADER ∧ s.dev.boot.records = false ∧ clocksRun s.dev = true)
    ∧ (∃ (s : State) (answers : Bool), s.dev.mode = LOADER ∧ s.dev.boot.records = true ∧ s.dev.boot.stage = 2 ∧ s.dev.boot.loaded = false ∧ storesRead answers s.dev = true)
    ∧ (∃ (s : State) (failed : List Nat), s.dev.mode = LOADER ∧ s.dev.boot.records = true ∧ s.dev.boot.trained = false ∧ s.dev.boot.recordsAt + trainTime ≤ s.dev.up)
    ∧ (∃ (s : State), s.dev.mode = LOADER ∧ s.dev.boot.trained = true ∧ s.dev.boot.loaded = true ∧ s.dev.host.perbyUp = false)
    ∧ (∃ (s : State), s.dev.mode ≠ HELD)
    ∧ (∃ (s : State), s.dev.mode ≠ HELD ∧ (tget s.dev.tim.synths 11).locked = true)
    ∧ (∃ (s : State), s.dev.upd.state = 2)
    ∧ (∃ (s : State) (ok : Bool), s.dev.upd.state = 4)
    ∧ (∃ (s : State), s.dev.upd.state = 6 ∧ s.dev.upd.instant - 500 * ms ≤ s.dev.house ∧ s.dev.upd.prepared = false)
    ∧ (∃ (s : State), s.dev.upd.state = 6 ∧ s.dev.upd.instant ≤ s.dev.house ∧ s.dev.upd.prepared = true)
    ∧ (∃ (s : State), s.dev.upd.state = 7)
    ∧ (∃ (s : State) (o : Nat) (ok : Bool), o ≤ 24 ∧ (tget s.dev.octets o).stage = 2 ∧ (tget s.dev.octets o).visitAt + 26100 * us ≤ s.dev.up)
    ∧ (∃ (s : State) (t : _), s.dev.upd.laneIdle = some t ∧ t + ms ≤ s.dev.up)
    ∧ (∃ (s : State) (mac : Nat), blocksRun s.dev = true ∧ perbyServes s.dev = true ∧ mac < 16)
    ∧ (∃ (s : State) (n : Nat), 192 ≤ n ∧ n < 196 ∧ (lane n s.dev).rxState = 3) :=
  ⟨⟨at_ (fun d => { d with mode := HELD }), by decide +kernel⟩,
    ⟨at_ (fun d => { d with mode := TRIM }), true, true, by decide +kernel⟩,
    ⟨at_ (fun d => (List.range 11).foldl (fun d n => updSynth n (fun x => { x with bypass := true }) d) { d with mode := LOADER, boot.records := false }), by decide +kernel⟩,
    ⟨at_ (fun d => { d with mode := LOADER, boot.records := true, boot.stage := 2, boot.loaded := false }), true, by decide +kernel⟩,
    ⟨at_ (fun d => { d with mode := LOADER, boot.records := true, boot.trained := false }), [63], by decide, by decide, by decide, by unfold trainTime; split <;> decide +kernel⟩,
    ⟨at_ (fun d => { d with mode := LOADER, boot.loaded := true, boot.trained := true, host.perbyUp := false }), by decide +kernel⟩,
    ⟨at_ (id), by decide +kernel⟩,
    ⟨at_ (fun d => updSynth 11 (fun x => { x with locked := true }) d), by decide +kernel⟩,
    ⟨at_ (fun d => { d with upd.state := 2 }), by decide +kernel⟩,
    ⟨at_ (fun d => { d with upd.state := 4 }), true, by decide +kernel⟩,
    ⟨at_ (fun d => { d with upd.state := 6, upd.prepared := false }), by decide +kernel⟩,
    ⟨at_ (fun d => { d with upd.state := 6, upd.prepared := true }), by decide +kernel⟩,
    ⟨at_ (fun d => { d with upd.state := 7 }), by decide +kernel⟩,
    ⟨at_ (fun d => updOct 24 (fun x => { x with stage := 2 }) d), 24, true, by decide +kernel⟩,
    ⟨at_ (fun d => { d with upd.laneIdle := some 0 }), 0, by decide +kernel⟩,
    ⟨at_ (id), 15, by decide +kernel⟩,
    ⟨at_ (fun d => updLane 195 (fun l => { l with rxState := 3 }) d), 195, by decide +kernel⟩⟩

/-- The hypotheses of the statement on staged requests. -/
def stagesAt (b op : Nat) (q : Req) (s : State) (c : CmdSpec) : Prop :=
  b < 4 ∧ serves q.mbx s.dev = true ∧ famSpec op = some c ∧ c.len q.payload = true ∧ c.stageable = true
    ∧ s.dev.mode ≠ SAFE ∧ roleMode s.dev ≠ SHADOW ∧ (roleMode s.dev = LEAD → s.dev.twn.plan = none) ∧ loaderServes s.dev = false
    ∧ badField (c.fields q.payload) q.payload = none

theorem timing_group_stages (f : Dev → Dev) (h : serves 0 (at_ f).dev = true ∧ (at_ f).dev.mode ≠ SAFE ∧ roleMode (at_ f).dev ≠ SHADOW
    ∧ (roleMode (at_ f).dev = LEAD → (at_ f).dev.twn.plan = none) ∧ loaderServes (at_ f).dev = false) :
    stagesAt 3 0x0703 (rq 12 [(1, 1, 0xFF)]) (at_ f) cmdRouteTgConfig :=
  ⟨by decide, h.1, rfl, by decide +kernel, rfl, h.2.1, h.2.2.1, h.2.2.2.1, h.2.2.2.2, by decide +kernel⟩

theorem full_bank (l : List Change) (h : l.length = 65536) :
    bankRoom (bank 3 (at_ (updBank 3 fun x => { x with state := 1, changes := l })).dev).changes
      (stagedChanges 0x0703 (rq 12 [(1, 1, 0xFF)]).payload) = false := by
  have e : (bank 3 (at_ (updBank 3 fun x => { x with state := 1, changes := l })).dev).changes = l := rfl
  have n : (stagedChanges 0x0703 (rq 12 [(1, 1, 0xFF)]).payload).length = 1 := rfl
  rw [e, bankRoom, h, n]
  rfl

theorem witness_StagedRequests :
    (∃ b op q s c, stagesAt b op q s c ∧ (bank b s.dev).state ≠ 1)
    ∧ (∃ b op q s c, stagesAt b op q s c ∧ (bank b s.dev).state = 1
        ∧ bankRoom (bank b s.dev).changes (stagedChanges op q.payload) = false)
    ∧ (∃ b op q s c, stagesAt b op q s c ∧ (bank b s.dev).state = 1
        ∧ bankRoom (bank b s.dev).changes (stagedChanges op q.payload) = true) := by
  refine ⟨⟨_, _, _, _, _, timing_group_stages id (by decide +kernel), by decide +kernel⟩,
    ⟨_, _, _, _, _, timing_group_stages (updBank 3 fun x => { x with state := 1, changes := List.replicate 65536 ⟨0x0703, []⟩ })
      (by decide +kernel), by decide +kernel, ?_⟩,
    ⟨_, _, _, _, _, timing_group_stages (updBank 3 fun x => { x with state := 1 }) (by decide +kernel), by decide +kernel,
      by decide +kernel⟩⟩
  exact full_bank _ (List.length_replicate ..)

theorem witness_StepRunsFront : (∃ (s : State) (i : Instr) (l : List Instr), s.pending = i :: l) ∧ ∃ s : State, s.pending = [] :=
  ⟨⟨{ live with pending := [.jtagTrstN] }, .jtagTrstN, [], rfl⟩, live, rfl⟩

theorem witness_StepKeepsCanonical : ∃ s t, Canonical s ∧ step s = .next t :=
  ⟨{ live with pending := [.jtagTrstN] }, _, by unfold Canonical; decide, rfl⟩

theorem witness_HbmFrame : ∃ i s t, writesHbm i = false ∧ exec i s = .next t := ⟨.jtagTrstN, live, _, rfl, rfl⟩

theorem witness_StagingAccess :
    (∃ (s : State) (a : Nat) (bytes : List Byte), Canonical s ∧ s.dev.host.linkUp = true
      ∧ s.dev.host.bar2Ready = true ∧ a + bytes.length ≤ stagingBytes ∧ bytes = [0]
      ∧ pcBad (pc (sysAddr a s.dev / 2 ^ 30) s.dev) = false)
    ∧ (∃ (s : State) (a len : Nat), s.dev.host.linkUp = true ∧ s.dev.host.bar2Ready = true
      ∧ a + len ≤ stagingBytes ∧ ∀ w ∈ stagingWords a len s.dev, wordBad w.1 w.2.1 s.dev = false) := by
  refine ⟨⟨live, stagingBytes - 1, [0], by unfold Canonical; decide, by decide, by decide, by simp [stagingBytes], rfl, ?_⟩,
    ⟨live, stagingBytes - 32, 32, by decide, by decide, by simp [stagingBytes], ?_⟩⟩
  · simp only [pcBad, show ∀ k, pc k live.dev = {} from fun _ => rfl]
    decide
  · intro w _
    rfl

theorem witness_KeyedPlacement :
    (∃ (i j : Nat) (l : Layout), l.set.Nodup ∧ (∀ x ∈ l.extents, x < 8192) ∧ i < j ∧ j < l.set.length)
    ∧ (∃ (t u w v : Nat) (l : Layout), l.set.Nodup ∧ l.extents.Nodup ∧ (∀ x ∈ l.extents, x < 8192) ∧ 0 < l.set.length
      ∧ l.depth * layoutQ l ≤ 64 * l.extents.length ∧ t < l.depth ∧ u < l.depth ∧ w < 64 * l.g ∧ v < 64 * l.g
      ∧ slotAddr l (layoutPi 1151 l) t w = slotAddr l (layoutPi 1151 l) u v) :=
  ⟨⟨0, 1, { set := [0, 63], extents := [8191] }, by decide⟩,
    ⟨3, 3, 4095, 4095, { set := [0, 63], extents := [8191, 0], depth := 4, g := 64 }, by decide, by decide, by decide, by decide,
      by decide, by decide, by decide, by decide, by decide, rfl⟩⟩

theorem witness_PictureWords : (∃ (b n : Nat) (codes : List Nat), codes.length = n ∧ b * n ≤ 256)
    ∧ ledgerFits (.route 2047 (2 ^ 48 - 1) 0 true false (-2 ^ 31)) ∧ ledgerFits (.converter 63 0 1 0 0 127 true true)
    ∧ ledgerFits (.alignment 7 8191 0) ∧ ledgerFits (.rateConverter 32767 0 (2 ^ 40 - 1) 0) :=
  ⟨⟨16, 16, List.replicate 16 0xFFFF, by decide⟩, by unfold ledgerFits; decide, by unfold ledgerFits; decide,
    by unfold ledgerFits; decide, by unfold ledgerFits; decide⟩

/-- An engine with a frame in ring 1151's slot. -/
def writes : State := at_ fun d => updEngine 47 (fun x => { x with frames := [(5, 1151, 7)], lastJ := some 5 })
  (updStream 1151 (fun x => { x with slots := [{ state := 1, num := 7 }] }) d)

theorem witness_PictureStores :
    (∃ (r n : Nat) (x : Slot) (s : State), Canonical (recomposeAll s) ∧ writingFrame r false (recomposeAll s).dev = some n
      ∧ writeEnds r (recomposeAll s).dev = true ∧ slotOf (stream r (recomposeAll s).dev) n = some x)
    ∧ (∃ (e j r n : Nat) (x : Slot) (s : State), Canonical s ∧ (engine e s.dev).lastJ = some j
      ∧ ((engine e s.dev).frames.find? fun f => decide (f.1 = j)) = some (j, r, n) ∧ slotOf (stream r s.dev) n = some x) :=
  ⟨⟨1151, 7, { state := 1, num := 7 }, at_ (updStream 1151 (fun x => { x with slots := [{ state := 1, num := 7 }] })),
      by unfold Canonical; decide +kernel⟩,
   ⟨47, 5, 1151, 7, { state := 1, num := 7 }, writes, by unfold Canonical; decide +kernel⟩⟩

theorem witness_MailboxWindows : ∃ (n : Nat) (s r : State) (off : Nat) (bytes : List Byte), n < 16 ∧ s.dev.host.linkUp = true
    ∧ r.dev.host.linkUp = true ∧ (mailbox n s.dev).state = 1 ∧ (mailbox n r.dev).state ≠ 1 ∧ off < 0x1000 ∧ bytes ≠ []
    ∧ 0x1000 ≤ 0x1FFF ∧ 0x1FFF < 0x2000 :=
  ⟨15, at_ (updMbx 15 fun m => { m with state := 1 }), live, 0xFFF, [0, 0], by decide, by decide, by decide, by decide, by decide,
    by decide, by decide, by decide, by decide⟩

theorem witness_DoorbellStates : ∃ (n : Nat) (s r : State), n < 16 ∧ s.dev.host.linkUp = true ∧ r.dev.host.linkUp = true
    ∧ (mailbox n s.dev).state ≠ 1 ∧ (mailbox n r.dev).state ≠ 1 ∧ mailboxServed n s.dev = true ∧ mailboxServed n r.dev = false :=
  ⟨15, live, at_ (fun d => { d with mode := LOADER, host.perbyUp := false }), by decide, by decide, by decide, by decide,
    by decide, by decide, by decide⟩

/-- A request that no rule of the interface refuses but the mode. -/
def noOp : Req := rq 0 []

theorem witness_CommandRefusals :
    (∃ (q : Req) (s : State), serves q.mbx s.dev = false)
    ∧ (∃ (c : CmdSpec) (q : Req) (s : State), serves q.mbx s.dev = true ∧ c.len q.payload = false)
    ∧ (∃ (c : CmdSpec) (q : Req) (s : State), serves q.mbx s.dev = true ∧ c.len q.payload = true ∧ loaderServes s.dev = false
        ∧ s.dev.mode = SAFE ∧ c.safe = false)
    ∧ (∃ (c : CmdSpec) (q : Req) (s : State), serves q.mbx s.dev = true ∧ c.len q.payload = true ∧ loaderServes s.dev = false
        ∧ s.dev.mode ≠ SAFE ∧ roleMode s.dev = SHADOW ∧ mirrored c = true)
    ∧ (∃ (c : CmdSpec) (q : Req) (s : State) (o : Nat), serves q.mbx s.dev = true ∧ c.len q.payload = true
        ∧ loaderServes s.dev = false ∧ s.dev.mode ≠ SAFE ∧ roleMode s.dev ≠ SHADOW
        ∧ badField (c.fields q.payload) q.payload = some o)
    ∧ (∃ (c : CmdSpec) (q : Req) (s : State), serves q.mbx s.dev = true ∧ refusal c (argsOf q s) s.dev = none
        ∧ (accept c (argsOf q s) s.dev).1.status = 1 ∧ 256 ≤ s.dev.host.evt.owed) :=
  ⟨⟨{ noOp with mbx := 16 }, live, by decide⟩,
    ⟨cmdRouteTgConfig, noOp, live, by decide, by decide⟩,
    ⟨cmdRouteTgConfig, rq 12 [], at_ (fun d => { d with mode := SAFE }), by decide, by decide, by decide, by decide, rfl⟩,
    ⟨cmdRouteTgConfig, rq 12 [], at_ (fun d => { d with mode := SHADOW }), by decide, by decide, by decide, by decide, by decide,
      by decide⟩,
    ⟨cmdRouteTgConfig, rq 12 [], live, 1, by decide, by decide, by decide, by decide, by decide, by decide +kernel⟩,
    ⟨cmdCfgBankCheck, rq 4 [],
      at_ (fun d => updBank 0 (fun x => { x with state := 1 }) { d with host.evt := { d.host.evt with owed := 256 } }),
      by decide, by decide +kernel, by decide +kernel, by decide⟩⟩

theorem witness_CounterWrap : tget (tset ([] : Ctrs) 3 (BitVec.allOnes 48)) 3 = BitVec.allOnes 48 := by decide

/-- Errors at distinct symbols of a word. -/
def distinctErrs (e : SymErr) : Prop := (e.map (·.1)).Nodup ∧ ∀ x ∈ e, x.1 < 36 ∧ x.2 ≠ 0

theorem witness_CheckerSymbols : ∃ e0 e1 e2 e3 : SymErr, distinctErrs e0 ∧ distinctErrs e1 ∧ distinctErrs e2 ∧ distinctErrs e3
    ∧ e0.length = 0 ∧ e1.length = 1 ∧ e2.length = 2 ∧ e3.length = 3 :=
  ⟨[], [(35, 0xFF)], [(0, 1), (35, 0xFF)], [(0, 1), (1, 0x80), (35, 0xFF)], by unfold distinctErrs; decide⟩

/-- An event of class `c`. -/
def eventOf (c : Nat) : EventEntry := { (default : EventEntry) with code := 256 * c }

theorem witness_EventRing :
    (∃ (e : EventEntry) (d : Dev), e.code / 256 % 16 ≠ 0 ∧ d.host.evt.enabled.getLsbD (e.code / 256 % 16) = false)
    ∧ (∃ (e : EventEntry) (d : Dev), e.code / 256 % 16 ≠ 0 ∧ d.host.evt.enabled.getLsbD (e.code / 256 % 16) = true
        ∧ 8192 - d.host.evt.present < 257)
    ∧ (∃ (e : EventEntry), e.code / 256 % 16 = 0)
    ∧ (∃ (e : EventEntry) (d : Dev), d.host.evt.enabled.getLsbD (e.code / 256 % 16) = true ∧ 257 ≤ 8192 - d.host.evt.present) :=
  ⟨⟨eventOf 15, { live.dev with host.evt.enabled := 0 }, by decide⟩,
    ⟨eventOf 15, { live.dev with host.evt := { live.dev.host.evt with enabled := 0xFFFF, prod := 7936, cons := 0 } }, by decide⟩,
    ⟨eventOf 0, by decide⟩,
    ⟨eventOf 15, { live.dev with host.evt := { live.dev.host.evt with enabled := 0xFFFF, prod := 7935, cons := 0 } }, by decide⟩⟩

theorem witness_VectorArming :
    (∃ (v : Nat) (d e : Dev), v < 64 ∧ d.host.msix.masked.getLsbD v = false ∧ e.host.msix.masked.getLsbD v = true)
    ∧ (∃ (e : EventEntry) (d b : Dev), d.host.evt.armed.getLsbD (e.code / 256 % 16) = true
      ∧ b.host.evt.armed.getLsbD (e.code / 256 % 16) = false)
    ∧ (∃ (i k : Nat) (d : Dev), i < 16384 ∧ (i + 16384 - d.host.evt.cons) % 16384 ≤ d.host.evt.present
      ∧ (evtCons i d).host.evt.present = 0 ∧ k < 16384 ∧ (k + 16384 - d.host.evt.cons) % 16384 ≤ d.host.evt.present
      ∧ (evtCons k d).host.evt.present ≠ 0) :=
  ⟨⟨63, { live.dev with host.msix.masked := 0 }, { live.dev with host.msix.masked := BitVec.allOnes 64 }, by decide⟩,
    ⟨eventOf 15, { live.dev with host.evt.armed := 0xFFFF }, { live.dev with host.evt.armed := 0 }, by decide⟩,
    ⟨1, 0, { live.dev with host.evt := { live.dev.host.evt with prod := 1, cons := 16383 } }, by decide +kernel⟩⟩

theorem witness_Formats : (0 : Time) ≤ 0 ∧ (0 : Time) < 1000000000 * 2 ^ 48
    ∧ (1000000000 * 2 ^ 48 - 1 / 65536 : Time) < 1000000000 * 2 ^ 48
    ∧ (2 ^ 96 - 1) / 2 ^ 48 * 2 ^ 48 + 999999999 * 2 ^ 16 + 65535 < 2 ^ 96
    ∧ t96Ok ((2 ^ 96 - 1) / 2 ^ 48 * 2 ^ 48 + 999999999 * 2 ^ 16 + 65535) = true := by
  refine ⟨by decide +kernel, by decide +kernel, by decide +kernel, by decide +kernel, by decide +kernel⟩

theorem witness_DecodeErrors : (targetOf 0x0FFFFFFF = none)
    ∧ (targetOf 0x10000FFC = some 0 ∧ (0 : Nat) ≠ 21 ∧ reaches 8 0 live.dev = true
        ∧ regWord 0x10000FFC (masterBump 8 xACCESSES 1 (granted 0 8 live.dev)) = none)
    ∧ (targetOf 0xDFFFFFFC = some 21 ∧ reaches 8 21 live.dev = true
        ∧ windowShows (0xDFFFFFFC - 0xC0000000) 4 (masterBump 8 xACCESSES 1 (granted 21 8 live.dev)) = false) := by decide +kernel

theorem witness_AccessDenied : ∃ (s : State) (m : Nat), s.dev.mode ≠ HELD ∧ m < 9 ∧ reaches m 21 s.dev = false :=
  ⟨live, 7, by decide, by decide, by decide⟩

theorem witness_DebugWindow : ∃ (s r : State) (x : Nat), s.dev.host.linkUp = true ∧ r.dev.host.linkUp = true ∧ x < 0x800000
    ∧ x % 4 = 0 ∧ s.dev.host.debug = true ∧ r.dev.host.debug = false :=
  ⟨at_ (fun d => { d with host.debug := true }), live, 0x7FFFFC, by decide⟩

theorem witness_FaultReactions : ∃ (r : Report) (i : SrcInfo) (d e : Dev), d.flt.valid = true ∧ e.flt.valid = false
    ∧ d.flt.fatal = true ∧ e.flt.fatal = false ∧ e.mode ≠ SAFE ∧ (i.domain, domainInst r.src r.inst) ∈ d.flt.inReset
    ∧ (i.domain, domainInst r.src r.inst) ∈ d.flt.quarantine := by
  have h : ∃ i, srcInfo 0x0D0 = some i := Option.isSome_iff_exists.mp (by decide +kernel)
  obtain ⟨i, _⟩ := h
  refine ⟨⟨0x0D0, true, 0, 0, 0, false, false, false⟩, i, { live.dev with
    flt.valid := true, flt.fatal := true, flt.inReset := [(i.domain, domainInst 0x0D0 0)],
    flt.quarantine := [(i.domain, domainInst 0x0D0 0)] }, live.dev, rfl, rfl, rfl, rfl, by decide, ?_, ?_⟩ <;> simp

theorem witness_DeviceReset : ∃ cause : Nat, cause ≠ 1 := ⟨3, by decide⟩

theorem witness_ConfigurationEpoch : ∃ c ∈ commandTable, c.stageable = false := by
  have h : (commandTable.any fun c => !c.stageable) = true := by decide +kernel
  simpa [List.any_eq_true] using h

/-! ### Ill-formed commands -/

/-- One command for each check of form, each wrong in that point only. -/
theorem ill_formed_interface : (([.mbxNop { noOp with mbx := 16 }, .mbxNop { noOp with payload := List.replicate 4081 0 }, .stagedRequest 4 0 noOp,
   .stagedRequest 0 65536 noOp, .mbxDb 16 0, .mbxStateWrite 16 0, .mailboxRequestAccept 16, .mailboxWindowWrite 16 0 [],
   .mailboxWindowWrite 0 0x1FFF [0, 0], .msixVectorUnmask 64, .bar2Access true 0 1 [], .bar2Access false 0 1 [0],
   .bar2Access false 0 0 [], .debugWindowAccess false 2 0, .debugWindowAccess false 0x800000 0, .bar0WideAccess 0 8,
   .controlWindowAccess 9 false 0 4 [], .controlWindowAccess 0 false 0x1FFFFFFD 4 [], .crossbarAccess 22 [],
   .crossbarAccess 0 [⟨9, 0, false, [], 1, false⟩], .crossbarAccess 0 [⟨0, 0, false, [], 0, false⟩],
   .crossbarAccess 0 [⟨0, 0, true, [], 1, false⟩], .crossbarAccess 0 [⟨0, 2 ^ 32, false, [], 1, false⟩], .lockBreak 22 0 false,
   .lockBreak 0 (2 ^ 32) false, .registerWrite (2 ^ 32) 0, .smbusBlockRead 256] : List Instr).all fun i => !i.wellFormed) = true := by decide +kernel

/-- One command for each check of form, each wrong in that point only. -/
theorem ill_formed_clock_and_lane : (([.gracefulStopComplete (.laneRx 196), .gracefulStopComplete (.sdiTx 256), .gracefulDeadline (.port 128),
   .gracefulDeadline (.queue 0 2 0), .gracefulDeadline (.rxFlow 8192), .gracefulDeadline (.engine 48),
   .gracefulDeadline (.raster 1152), .gracefulDeadline (.dests 0 0), .gracefulDeadline (.dests 32768 1),
   .gracefulDeadline (.audioPort 4 0), .gracefulDeadline (.pulse 16), .gracefulDeadline (.timeBase 4), .auditPoint (.mac 16),
   .auditPoint (.memc 64), .auditPoint (.cnv 48), .ptpMessageReceive 128 ⟨0, 0, 0, 0, false, false, .delayReq, 0⟩, .announceReceiptTimeout 4,
   .referenceEdge 3 0 0 0, .frequencyGate 16 0, .candidateQualify 16, .pulseEdge 16, .pllLock 12, .octetSynthLossOfLock 25 false,
   .losAssert 196 0, .laneFrequencyGate 196 0 0 0, .alignmentMarker 192 true 0, .roveSubstitution 25 0, .twinTrainingMarker 191 0 true,
   .twinTrainingMarker 192 4 true] : List Instr).all fun i => !i.wellFormed) = true := by decide +kernel

/-- One command for each check of form, each wrong in that point only. -/
theorem ill_formed_essence_and_memory : (([.sdiTrs 256 0 0 [], .sdiTrsAbsent 256 0, .sdiLine 256 0 [] [] [] [], .sdiLine 0 0 [1024] [] [] [], .sdiLine 0 0 [] [] [(0, 1024)] [], .sdiFrameBoundary 0 ⟨256, 1, 0, none, false, 0, true⟩,
   .sdiFrameBoundary 0 ⟨0x35, 1, 0, none, false, 5, true⟩, .sdiAncPacket 0 { anc0 with did := 1024 },
   .sdiAncPacket 0 { anc0 with udw := [1024] }, .sdiAudioPacket 0 ⟨0, 0, true, [], [⟨5, 0, false, false, false, false, false⟩]⟩,
   .macPcsAligned 128, .ethFrameReceive 0 { eth0 with dst := [0] }, .ethFrameReceive 0 { eth0 with tag := some (4096, 0) },
   .ethFrameReceive 0 { eth0 with pause := some (65536, []) }, .pauseTimerExpiry 0 8, .ringCopy 16 true, .flowPathDown 0 2,
   .ipFrameClose 8192, .packetScheduled 8192 0 0, .igmpQuery 0 (2 ^ 32), .arpRequest 0 (2 ^ 32),
   .memoryRequest 64 ⟨0, false, 0, 0, false⟩, .memoryRequest 0 ⟨66, false, 0, 0, false⟩, .burstIssue 64, .burstComplete 0 [(36, 1)] [],
   .burstComplete 0 [] [(36, 1)], .scrubRead 64 [], .holidayDue 64 true, .ringMigrationStart 1152, .producerFrameStart 0 (-1),
   .planPoint 64 0, .spliceStart 32768, .converterPictureStart 48 0 0 [], .converterPictureStart 0 0 2 [], .rasterUnderrun 1152 0 0 0,
   .matrixWordRewrite 262144] : List Instr).all fun i => !i.wellFormed) = true := by decide +kernel

/-- One command for each check of form, each wrong in that point only. -/
theorem ill_formed_fabric_and_twin : (([.aes3Subframe 32 sub0, .inputRateGate 4 0 0, .inputQualify 4 0, .inputLost 0 0 4, .tdmFrame 8 [], .tdmFrame 0 (List.replicate 33 0),
   .watchdogMiss 4, .bankCheckComplete 4, .adventStart 256, .blockRearm 256, .leave ⟨2 ^ 32, 0, []⟩ 0, .leave ⟨0, 0, []⟩ 256,
   .mirror ⟨0, 0, []⟩ ⟨0, some 4, 0, 0, [], 0, false⟩, .mirror ⟨0, 0, []⟩ ⟨0, none, 65536, 0, [], 0, false⟩, .seq ⟨0, 0, []⟩ [(8192, 0)],
   .time ⟨0, 2 ^ 32, []⟩ 0 0 0 0, .time ⟨0, 0, []⟩ 0 1000000000 0 0, .keys ⟨0, 2 ^ 32, []⟩ 0 0 0, .handover ⟨0, 2 ^ 32, []⟩ 0 0,
   .claimAckDecode (List.replicate 17 ⟨true, 0⟩), .handoverBoundary 64, .injectedReport 1024,
   .faultReport ⟨1024, true, 0, 0, 0, false, false, false⟩, .domainResetRelease 256 0, .monitorSample 98 0,
   .hbmTrainingComplete [64], .controlPlaneRingFrame 16, .twinReceiverInvertToggle 191, .twinReceiverInvertToggle 196] : List Instr).all fun i => !i.wellFormed) = true := by decide +kernel

/-- Boundary values that the checks of form let pass. -/
theorem edges_well_formed : (([.mbxNop { noOp with mbx := 15, payload := List.replicate 4080 0 }, .stagedRequest 3 65535 noOp, .mailboxWindowWrite 15 0x1FFF [0],
   .bar2Access true 0 1 [0], .bar2Access false 0 1 [], .debugWindowAccess false 0x7FFFFC 0, .bar0WideAccess 0 9,
   .controlWindowAccess 8 false 0x1FFFFFFC 4 [], .crossbarAccess 21 [⟨8, 2 ^ 32 - 1, true, [0], 1, true⟩], .smbusBlockRead 255,
   .gracefulDeadline (.dests 32767 1), .auditPoint (.cnv 47), .twinTrainingMarker 195 3 true, .burstComplete 63 [(0, 1), (35, 255)] [],
   .matrixWordRewrite 262143, .monitorSample 97 0] : List Instr).all (·.wellFormed)) = true := by decide +kernel

/-! ### Values the spec prints -/

/-- No row of the table gives bits. -/
theorem test_no_word_decodes : decodeTableWord 32 0 = none ∧ live.withFetchWord 32 0 = live := ⟨rfl, rfl⟩

/-- Chapter 4: 1080i59.94 is 0x36, 625i50 is 0x15, 1080psf25 is 0x42; chapter 11's example: the period of 0x36 is 33.366 667 ms. -/
theorem test_formats : definedFormat 0x36 = true ∧ definedFormat 0x15 = true ∧ definedFormat 0x42 = true
    ∧ definedFormat 0x00 = false ∧ framePeriod 0x36 = 1001000000 / 30 := by decide +kernel

/-- Chapter 11's example: boundaries 17,983 and 17,984 of TG03. -/
theorem test_boundaries :
    ns48 (tgTime { (default : TimGroup) with format := 0x36 } 17983) = 600032766666
    ∧ tgNext { (default : TimGroup) with format := 0x36 } (600000230000 : Time) = 17983 := by decide +kernel

/-- Chapter 6's examples: 1080p60 4:4:4 RGB 12-bit is 2 SU, 2160p120 4:2:2 10-bit is 8 SU. -/
theorem test_stream_units : streamUnits 0x57 5 = 2 ∧ streamUnits 0x6A 0 = 8 := by decide +kernel

/-- Chapter 10's example: cells written at 500.000 010 s mix from block 4,000,001; at 500.002 6 s, from block 4,000,022. -/
theorem test_cell_block : cellBlock { live.dev with house := 500000010000 } = 4000001
    ∧ cellBlock { live.dev with house := 500002600000 } = 4000022 := by decide +kernel

/-- Chapter 5's example: a frame of 9,216 bytes takes 36 cells, and a port alone reserves 2,496. -/
theorem test_cells : cellsOf 9216 = 36 ∧ cellsOf 64 = 1 := by decide

/-- Chapter 4's example: claim 0x0003_C002 of a lead at epoch 3 with unit number 2. -/
theorem test_claim : claimSupplied { live.dev with mode := LEAD, twn.pair := 2, twn.e := 3, twn.unit := 2 }
    = 0x0003C002 := by decide +kernel

/-- Chapter 12 and R443: the CRC-32 of 802.3 of no bytes is 0. -/
theorem test_crc : crc32 [] = 0 := by decide

/-- R23: 1, α, α² and α³ are the roots of the generator polynomial whose coefficients `rsStep` uses. -/
theorem test_generator : ([1, 2, 4, 8] : List Byte).all (fun a =>
    gfMul (gfMul (gfMul (gfMul 1 a ^^^ 0x0F) a ^^^ 0x36) a ^^^ 0x78) a ^^^ 0x40 = 0) = true := by decide

/-- R24 and R233: an error in symbol 35, in symbols 0 and 17, in three; the poison signature. -/
theorem test_checker : checkOutcome [(35, 0x80)] = .corrected ∧ correctedSymbol [(35, 0x80)] = 35
    ∧ checkOutcome [(0, 1), (17, 0xFF)] = .poisoned ∧ checkOutcome [(3, 7), (4, 7), (5, 7)] = .poisoned
    ∧ wordOutcome poisonSig = .clean := by decide +kernel

/-- Chapter 4's example: UDW2 to UDW5 of claim 0x0003_C002 are sent as 0x200, 0x203, 0x2C0 and 0x102. -/
theorem test_claim_words : (((claimUdw 0 0x0003C002 0).drop 2).take 4).map parityWord = [0x200, 0x203, 0x2C0, 0x102] := by
  decide +kernel

/-- Chapter 6's example: 1080p50 4:2:2 10-bit with 1,200-byte payloads is 225,000 packets per second. -/
theorem test_packet_rate : packetRate 1 0x55 0 1200 0 = 225000 / 1000000000 := by decide +kernel

/-- R467: a route entry's bits, by the table of ledger entries: SLOT from 241, K from 193, START from 145, TAKE 144, D from 111. -/
theorem test_ledger_word : ledgerWord (.route 5 7 9 true false (-1))
    = BitVec.ofNat 256 (2 ^ 252 + 5 * 2 ^ 241 + 7 * 2 ^ 193 + 9 * 2 ^ 145 + 2 ^ 144 + (2 ^ 32 - 1) * 2 ^ 111) := by decide +kernel

/-- R453: one bit through x^58 + x^39 + 1 comes again 39 and 58 bits later. -/
theorem test_scrambler : (scramble72 0 1).1 = BitVec.ofNat 72 (1 + 2 ^ 39 + 2 ^ 58) := by decide +kernel

/-- R511: reset leaves the block HELD, with nothing waiting. -/
theorem test_reset : State.reset.dev.mode = HELD ∧ State.reset.pending = [] ∧ State.reset.hbm = [] := by decide

end Sys2Proof.Tests
end

/-! Counters (R9), multi-byte fields (R10) and the 96-bit time format (R11). -/

namespace Sys2Proof.Machine

/-! ### Counters (R9) -/

theorem toNat_tget_bump_same (c : Ctrs) (k : Nat) :
    (tget (bump c k) k).toNat = ((tget c k).toNat + 1) % 2 ^ 48 := by
  simp [bump, tget_bumpBy, BitVec.toNat_add]

theorem tget_bump_same_of_allOnes (c : Ctrs) (k : Nat) (h : tget c k = BitVec.allOnes 48) :
    tget (bump c k) k = 0 := by
  apply BitVec.eq_of_toNat_eq
  rw [toNat_tget_bump_same, h]
  decide

theorem tget_bump_ne (c : Ctrs) {j k : Nat} (h : j ≠ k) : tget (bump c k) j = tget c j := by
  rw [bump, tget_bumpBy, if_neg h]

/-- Settles O49, by what `tget_bumpBy` says a bump leaves in each entry. -/
theorem counterWrap : Obligations.CounterWrap := fun c k =>
  ⟨toNat_tget_bump_same c k, tget_bump_same_of_allOnes c k, fun _ h => tget_bump_ne c h⟩

/-! ### Byte strings, little-endian (R10) -/

@[simp] theorem length_le (n v : Nat) : (le n v).length = n := by
  induction n generalizing v with
  | zero => rfl
  | succ n ih => simp [le, ih]

/-- Bytes taken from a number spell it, as far as they reach. -/
theorem leNat_le (n v : Nat) : leNat (le n v) = v % 256 ^ n := by
  induction n generalizing v with
  | zero => simp [le, leNat, Nat.mod_one]
  | succ n ih =>
    have hlow : (BitVec.ofNat 8 (v % 256)).toNat = v % 256 := by
      rw [BitVec.toNat_ofNat, Nat.mod_mod]
    rw [le, leNat, hlow, ih, Nat.pow_succ', Nat.mod_mul]

theorem getElem?_le (n v i : Nat) (h : i < n) :
    (le n v)[i]? = some (BitVec.ofNat 8 (v / 256 ^ i % 256)) := by
  induction n generalizing v i with
  | zero => omega
  | succ n ih =>
    cases i with
    | zero => simp [le]
    | succ i => rw [le, List.getElem?_cons_succ, ih _ _ (by omega), Nat.div_div_eq_div_mul, ← Nat.pow_succ']

/-- Writing the bytes of the number that a byte string spells gives the string back. -/
theorem le_leNat (bytes : List Byte) : le bytes.length (leNat bytes) = bytes := by
  induction bytes with
  | nil => rfl
  | cons b bytes ih =>
    have hlow : (b.toNat + 256 * leNat bytes) % 256 = b.toNat := by omega
    have hhigh : (b.toNat + 256 * leNat bytes) / 256 = leNat bytes := by omega
    rw [List.length_cons, leNat, le, hlow, hhigh, ih, BitVec.ofNat_toNat, BitVec.setWidth_eq]

/-! ### The 96-bit time format (R11) -/

/-- The 96-bit form of `n` whole nanoseconds and `q` units of 2^-16 ns. -/
def packT96 (n q : Nat) : Nat := q + 2 ^ 16 * (n % 1000000000) + 2 ^ 48 * (n / 1000000000)

/-- The units of 2^-16 ns in the fraction of a time, truncated. -/
def unitsOf (t : Time) : Nat := ((t - (t.floor : Rat)) * 65536).floor.toNat

theorem nsOf_eq_floor (t : Time) : nsOf t = ⌊t⌋₊ := rfl

theorem unitsPastNs_nonneg {t : Time} (h : 0 ≤ t) : 0 ≤ (t - nsOf t) * 65536 :=
  mul_nonneg (sub_nonneg.2 (Nat.floor_le h)) (by norm_num)

theorem unitsOf_eq_floor {t : Time} (h : 0 ≤ t) : unitsOf t = ⌊(t - nsOf t) * 65536⌋₊ := by
  have hns : (t.floor : Rat) = (nsOf t : Rat) := by
    rw [nsOf_eq_floor, natCast_floor_eq_intCast_floor h]; rfl
  rw [unitsOf, hns]; rfl

theorem t96_eq_packT96 (t : Time) : t96 t = packT96 (nsOf t) (unitsOf t) := rfl

section
variable {n q : Nat} (hq : q < 65536)
include hq

theorem packT96_lt (hn : n < 1000000000 * 2 ^ 48) : packT96 n q < 2 ^ 96 := by
  unfold packT96; omega

theorem bits_units_packT96 : bits (packT96 n q) 15 0 = q := by
  simp only [bits, packT96]; omega

theorem bits_ns_packT96 : bits (packT96 n q) 47 16 = n % 1000000000 := by
  simp only [bits, packT96]; omega

theorem bits_sec_packT96 (hn : n < 1000000000 * 2 ^ 48) : bits (packT96 n q) 95 48 = n / 1000000000 := by
  simp only [bits, packT96]; omega

theorem t96Ok_packT96 : t96Ok (packT96 n q) = true := by
  rw [t96Ok, bits_ns_packT96 hq, decide_eq_true_iff]
  exact Nat.mod_lt _ (by decide)

theorem ofT96_packT96 (hn : n < 1000000000 * 2 ^ 48) : ofT96 (packT96 n q) = (n : Rat) + (q : Rat) / 65536 := by
  rw [ofT96, bits_units_packT96 hq, bits_ns_packT96 hq, bits_sec_packT96 hq hn, Nat.div_add_mod']

theorem nsOf_ns_add_units : nsOf ((n : Rat) + (q : Rat) / 65536) = n := by
  have hq' : (q : Rat) < 65536 := by exact_mod_cast hq
  rw [nsOf_eq_floor, Nat.floor_eq_iff (by positivity)]
  constructor
  · exact le_add_of_nonneg_right (by positivity)
  · linarith

theorem unitsOf_ns_add_units : unitsOf ((n : Rat) + (q : Rat) / 65536) = q := by
  have hunits : ((n : Rat) + (q : Rat) / 65536 - n) * 65536 = q := by ring
  rw [unitsOf_eq_floor (by positivity), nsOf_ns_add_units hq, hunits, Nat.floor_natCast]

/-- A time that is a whole number of units is truncated to itself. -/
theorem t96_ns_add_units : t96 ((n : Rat) + (q : Rat) / 65536) = packT96 n q := by
  rw [t96_eq_packT96, nsOf_ns_add_units hq, unitsOf_ns_add_units hq]

end

/-- Every legal form is the form of its own nanoseconds and units. -/
theorem exists_packT96 {v : Nat} (hv : v < 2 ^ 96) (hok : t96Ok v = true) :
    ∃ n q, n < 1000000000 * 2 ^ 48 ∧ q < 65536 ∧ v = packT96 n q := by
  rw [t96Ok, decide_eq_true_iff] at hok
  refine ⟨bits v 95 48 * 1000000000 + bits v 47 16, bits v 15 0, ?_⟩
  simp only [bits, packT96] at hok ⊢
  omega

/-- A time from 0 lies in the unit that its form truncates it to. -/
theorem units_le_and_lt {t : Time} (h : 0 ≤ t) :
    (nsOf t : Rat) + (unitsOf t : Rat) / 65536 ≤ t ∧ t < (nsOf t : Rat) + (unitsOf t : Rat) / 65536 + 1 / 65536 := by
  have hle := Nat.floor_le (unitsPastNs_nonneg h)
  have hlt := Nat.lt_floor_add_one ((t - nsOf t) * 65536)
  rw [← unitsOf_eq_floor h] at hle hlt
  constructor <;> linarith

theorem unitsOf_lt {t : Time} (h : 0 ≤ t) : unitsOf t < 65536 := by
  have hlt : t < nsOf t + 1 := by rw [nsOf_eq_floor]; exact Nat.lt_floor_add_one t
  rw [unitsOf_eq_floor h, Nat.floor_lt (unitsPastNs_nonneg h)]
  push_cast
  linarith

/-- The nanoseconds of a time before the seconds field ends. -/
theorem nsOf_lt {t : Time} (h : 0 ≤ t) (ht : t < 1000000000 * 2 ^ 48) : nsOf t < 1000000000 * 2 ^ 48 := by
  rw [nsOf_eq_floor, Nat.floor_lt h]
  exact_mod_cast ht

/-- The form of a time is legal, and truncates it by less than a unit. -/
theorem t96_truncates {t : Time} (h : 0 ≤ t) (ht : t < 1000000000 * 2 ^ 48) :
    t96 t < 2 ^ 96 ∧ t96Ok (t96 t) = true ∧ ofT96 (t96 t) ≤ t ∧ t < ofT96 (t96 t) + 1 / 65536 := by
  have hq := unitsOf_lt h
  have hn := nsOf_lt h ht
  rw [t96_eq_packT96, ofT96_packT96 hq hn]
  exact ⟨packT96_lt hq hn, t96Ok_packT96 hq, units_le_and_lt h⟩

/-- A legal form is the form of the time that it stands for. -/
theorem t96_ofT96 {v : Nat} (hv : v < 2 ^ 96) (hok : t96Ok v = true) : t96 (ofT96 v) = v := by
  obtain ⟨n, q, hn, hq, rfl⟩ := exists_packT96 hv hok
  rw [ofT96_packT96 hq hn, t96_ns_add_units hq]

/-- Settles O53: bytes by induction on their number; a time through its whole nanoseconds and units of 2^-16 ns, which
its form packs and unpacks without loss. -/
theorem formats : Obligations.Formats :=
  ⟨fun n v => ⟨length_le n v, leNat_le n v, getElem?_le n v⟩, le_leNat, fun _ => t96_truncates, fun _ => t96_ofT96⟩

end Sys2Proof.Machine

/-! The RS(36,32) checker (R23, R24). A byte is read as an element of any field of characteristic 2 in which the polynomial of
R23 has a root α; that the reading is injective rests on α's order of 255 alone. There a remainder's syndromes are power sums
of the errors, and the code's minimum distance of 5 is the argument of Lagrange's polynomials. -/

namespace Sys2Proof.Machine

/-! ### Multiplication by x has order 255 on the bytes -/

theorem alphaPow_eq_iterate (p : Nat) : alphaPow p = gfX^[p] 1 := by
  induction p with
  | zero => rfl
  | succ p ih => rw [alphaPow, ih, Function.iterate_succ_apply']

theorem isPeriodicPt_gfX_one : Function.IsPeriodicPt gfX 255 1 := by
  unfold Function.IsPeriodicPt Function.IsFixedPt
  decide +kernel

theorem minimalPeriod_gfX_one : Function.minimalPeriod gfX 1 = 255 := by
  have hret : ∀ n ∈ Nat.properDivisors 255, gfX^[n] 1 ≠ 1 := by decide +kernel
  by_contra hne
  have hdvd := isPeriodicPt_gfX_one.minimalPeriod_dvd
  refine hret _ (Nat.mem_properDivisors.2 ⟨hdvd, ?_⟩) (Function.isPeriodicPt_minimalPeriod gfX 1)
  exact lt_of_le_of_ne (Nat.le_of_dvd (by decide) hdvd) hne

theorem alphaPow_injOn : Set.InjOn alphaPow (Set.Iio 255) := by
  have h := Function.iterate_injOn_Iio_minimalPeriod (f := gfX) (x := 1)
  rw [minimalPeriod_gfX_one] at h
  exact h.congr fun p _ => (alphaPow_eq_iterate p).symm

theorem gfX_ne_zero {a : Byte} (h : a ≠ 0) : gfX a ≠ 0 := by
  revert a; decide +kernel

theorem alphaPow_ne_zero (p : Nat) : alphaPow p ≠ 0 := by
  induction p with
  | zero => decide
  | succ p ih => exact gfX_ne_zero ih

/-- There are as many powers of α as there are bytes other than 0. -/
theorem exists_alphaPow {a : Byte} (h : a ≠ 0) : ∃ p, alphaPow p = a := by
  have hmaps : Set.MapsTo (fun p => (alphaPow p).toNat) (Finset.range 255) (Finset.Ico 1 256) := fun p _ => by
    have hpos : (alphaPow p).toNat ≠ 0 := fun h0 => alphaPow_ne_zero p (BitVec.eq_of_toNat_eq h0)
    simp only [Finset.coe_Ico, Set.mem_Ico]
    omega
  have hinj : Set.InjOn (fun p => (alphaPow p).toNat) (Finset.range 255) := fun p hp q hq hpq =>
    alphaPow_injOn (by simpa using hp) (by simpa using hq) (BitVec.eq_of_toNat_eq hpq)
  have hmem : a.toNat ∈ Finset.Ico 1 256 := by
    have hpos : a.toNat ≠ 0 := fun h0 => h (BitVec.eq_of_toNat_eq h0)
    rw [Finset.mem_Ico]
    omega
  obtain ⟨p, -, hp⟩ := Finset.surjOn_of_injOn_of_card_le _ hmaps hinj (by simp) hmem
  exact ⟨p, BitVec.eq_of_toNat_eq hp⟩

/-! ### Bytes as elements of a field -/

/-- In a field of characteristic 2, a root of the polynomial of R23. -/
def IsAlpha {K : Type} [Field K] (α : K) : Prop := α ^ 8 = 1 + α ^ 2 + α ^ 3 + α ^ 4

/-- A byte as a polynomial in α: bit `i` stands for α^i. -/
def gfVal {K : Type} [Field K] (α : K) (a : Byte) : K := ∑ i ∈ Finset.range 8, if a.getLsbD i then α ^ i else 0

/-- The value of a remainder at α^j. -/
def syndrome {K : Type} [Field K] (α : K) (r : Byte × Byte × Byte × Byte) (j : Nat) : K := gfVal α (rsAt r (alphaPow j))

/-- α^0 to α^3 are roots of the generator polynomial (R23). -/
theorem generator_root : ∀ j < 4, rsAt (0x0F ^^^ alphaPow j, 0x36, 0x78, 0x40) (alphaPow j) = 0 := by decide +kernel

theorem exists_isAlpha : ∃ α : AlgebraicClosure (ZMod 2), IsAlpha α := by
  have hdeg : (.X ^ 8 - (1 + .X ^ 2 + .X ^ 3 + .X ^ 4) : Polynomial (AlgebraicClosure (ZMod 2))).degree = 8 := by
    compute_degree!
  obtain ⟨α, hα⟩ := IsAlgClosed.exists_root _ (by rw [hdeg]; decide)
  exact ⟨α, by simpa [sub_eq_zero, IsAlpha] using hα⟩

section
variable {K : Type} [Field K] {α : K}

theorem gfVal_zero : gfVal α 0#8 = 0 := by simp [gfVal]

theorem gfVal_one : gfVal α 1 = 1 := by
  rw [gfVal, Finset.sum_eq_single 0] <;> simp +contextual

theorem IsAlpha.ne_zero (hα : IsAlpha α) : α ≠ 0 := by
  rintro rfl
  simp [IsAlpha] at hα

variable [CharP K 2]

theorem gfVal_xor (a b : Byte) : gfVal α (a ^^^ b) = gfVal α a + gfVal α b := by
  rw [gfVal, gfVal, gfVal, ← Finset.sum_add_distrib]
  refine Finset.sum_congr rfl fun i _ => ?_
  rw [BitVec.getLsbD_xor]
  cases a.getLsbD i <;> cases b.getLsbD i <;> simp [CharTwo.add_self_eq_zero]

section
variable (hα : IsAlpha α)
include hα

theorem gfVal_gfX (a : Byte) : gfVal α (gfX a) = α * gfVal α a := by
  have hshift : gfVal α (a <<< 1) + (if a.getLsbD 7 then α ^ 8 else 0) = α * gfVal α a := by
    rw [gfVal, gfVal, Finset.mul_sum, Finset.sum_range_succ', Finset.sum_range_succ _ 7]
    congr 1
    · rw [if_neg (by simp), add_zero]
      refine Finset.sum_congr rfl fun i hi => ?_
      have hi' : i + 1 < 8 := Nat.succ_lt_succ (Finset.mem_range.1 hi)
      simp [hi', pow_succ', BitVec.getLsbD_eq_getElem (Nat.lt_of_succ_lt hi')]
    · simp [← pow_succ']
  have hpoly : gfVal α 0x1D = α ^ 8 := by
    rw [hα]
    simp [gfVal, Finset.sum_range_succ]
  rw [← hshift, gfX]
  split
  · rw [gfVal_xor, hpoly]
  · rw [add_zero]

theorem gfVal_gfMulFuel (f : Nat) (a b : Byte) :
    gfVal α (gfMulFuel f a b) = gfVal α a * ∑ i ∈ Finset.range f, if b.getLsbD i then α ^ i else 0 := by
  induction f generalizing a b with
  | zero => simp [gfMulFuel, gfVal_zero]
  | succ f ih =>
    rw [gfMulFuel, gfVal_xor, ih, gfVal_gfX hα, Finset.sum_range_succ', mul_add, add_comm]
    congr 1
    · rw [mul_comm α, mul_assoc, Finset.mul_sum]
      simp [BitVec.getLsbD_ushiftRight, Nat.add_comm 1, pow_succ']
    · cases b.getLsbD 0 <;> simp [gfVal_zero]

theorem gfVal_gfMul (a b : Byte) : gfVal α (gfMul a b) = gfVal α a * gfVal α b := gfVal_gfMulFuel hα 8 a b

theorem gfVal_alphaPow (p : Nat) : gfVal α (alphaPow p) = α ^ p := by
  induction p with
  | zero => rw [alphaPow, gfVal_one, pow_zero]
  | succ p ih => rw [alphaPow, gfVal_gfX hα, ih, pow_succ']

theorem gfVal_ne_zero {a : Byte} (h : a ≠ 0) : gfVal α a ≠ 0 := by
  obtain ⟨p, rfl⟩ := exists_alphaPow h
  rw [gfVal_alphaPow hα]
  exact pow_ne_zero p hα.ne_zero

theorem gfVal_injective : Function.Injective (gfVal α) := fun a b h => by
  by_contra hne
  refine gfVal_ne_zero hα (a := a ^^^ b) (mt BitVec.xor_eq_zero_iff.1 hne) ?_
  rw [gfVal_xor, h, CharTwo.add_self_eq_zero]

theorem gfVal_eq_zero_iff {a : Byte} : gfVal α a = 0 ↔ a = 0 :=
  ⟨not_imp_not.1 (gfVal_ne_zero hα), by rintro rfl; exact gfVal_zero⟩

theorem alpha_pow_inj {i j : Nat} (hi : i < 255) (hj : j < 255) (h : α ^ i = α ^ j) : i = j := by
  rw [← gfVal_alphaPow hα, ← gfVal_alphaPow hα] at h
  exact alphaPow_injOn hi hj (gfVal_injective hα h)

/-! ### Syndromes -/

theorem gfVal_rsAt (r : Byte × Byte × Byte × Byte) (x : Byte) :
    gfVal α (rsAt r x) = ((gfVal α r.1 * gfVal α x + gfVal α r.2.1) * gfVal α x + gfVal α r.2.2.1) * gfVal α x
      + gfVal α r.2.2.2 := by
  simp only [rsAt, gfVal_xor, gfVal_gfMul hα]

/-- The remainder's value at a root of the generator polynomial takes up a symbol as Horner's rule does, the symbol standing at
the fourth power. -/
theorem syndrome_rsStep (r : Byte × Byte × Byte × Byte) (s : Byte) {j : Nat} (hj : j < 4) :
    syndrome α (rsStep r s) j = α ^ j * syndrome α r j + gfVal α s * (α ^ j) ^ 4 := by
  have hroot := congrArg (gfVal α) (generator_root j hj)
  simp only [syndrome, rsStep, gfVal_rsAt hα, gfVal_xor, gfVal_gfMul hα, gfVal_alphaPow hα] at hroot ⊢
  rw [show gfVal α 0 = 0 from gfVal_zero] at hroot
  linear_combination (gfVal α s + gfVal α r.1) * hroot
    - (gfVal α s + gfVal α r.1) * (α ^ j) ^ 4 * CharTwo.two_eq_zero (R := K)

theorem syndrome_rsCheck (c : Nat → Byte) (n : Nat) {j : Nat} (hj : j < 4) :
    syndrome α (rsCheck ((List.range n).map c)) j = ∑ k ∈ Finset.range n, gfVal α (c k) * (α ^ j) ^ (n + 3 - k) := by
  induction n with
  | zero => simp [syndrome, rsCheck, gfVal_rsAt hα, gfVal_zero]
  | succ n ih =>
    have hfold : rsCheck ((List.range (n + 1)).map c) = rsStep (rsCheck ((List.range n).map c)) (c n) := by
      simp [rsCheck, List.range_succ]
    rw [hfold, syndrome_rsStep hα _ _ hj, ih, Finset.sum_range_succ, Finset.mul_sum]
    congr 1
    · refine Finset.sum_congr rfl fun k hk => ?_
      have hexp : n + 1 + 3 - k = n + 3 - k + 1 := by have := Finset.mem_range.1 hk; omega
      rw [hexp]; ring
    · congr 2; omega

/-- The syndromes are the power sums of the errors at their places: symbol `k` stands at α^(35 - k). -/
theorem syndrome_rsRemainder (c : Nat → Byte) {j : Nat} (hj : j < 4) :
    syndrome α (rsRemainder ((List.range 36).map c)) j = ∑ k ∈ Finset.range 36, gfVal α (c k) * (α ^ (35 - k)) ^ j := by
  have hcheck := syndrome_rsCheck hα c 32 hj
  have hdata : ((List.range 36).map c).take 32 = (List.range 32).map c := by simp [← List.map_take, List.take_range]
  have hsum : ∑ k ∈ Finset.range 32, gfVal α (c k) * (α ^ (35 - k)) ^ j
      = ∑ k ∈ Finset.range 32, gfVal α (c k) * (α ^ j) ^ (32 + 3 - k) := by simp only [pow_right_comm]
  have hget : ∀ k < 36, ((List.range 36).map c).getD k 0 = c k := fun k hk => by simp [hk]
  rw [Finset.sum_range_succ, Finset.sum_range_succ, Finset.sum_range_succ, Finset.sum_range_succ, hsum, ← hcheck]
  simp only [syndrome, rsRemainder, hdata, hget, gfVal_rsAt hα, gfVal_xor, gfVal_alphaPow hα, Nat.reduceSub, Nat.reduceLT]
  ring

end
end

/-! ### The minimum distance of the code -/

section
variable {K : Type} [Field K] {c x : Nat → K} {n : Nat}

/-- The power sums 0 to 3 give the sum over the values of every polynomial of degree below 4. -/
theorem sum_mul_eval_eq_zero (hsum : ∀ j < 4, ∑ k ∈ Finset.range n, c k * x k ^ j = 0) {p : Polynomial K}
    (hp : p.natDegree < 4) : ∑ k ∈ Finset.range n, c k * p.eval (x k) = 0 := by
  simp_rw [Polynomial.eval_eq_sum_range' hp, Finset.mul_sum]
  rw [Finset.sum_comm]
  refine Finset.sum_eq_zero fun j hj => ?_
  rw [← mul_zero (p.coeff j), ← hsum j (Finset.mem_range.1 hj), Finset.mul_sum]
  exact Finset.sum_congr rfl fun k _ => mul_left_comm _ _ _

/-- Values at up to four distinct places whose power sums 0 to 3 vanish are 0: the polynomial whose roots are the other places
singles out each. -/
theorem eq_zero_of_power_sums (hx : Set.InjOn x (Set.Iio n)) {T : Finset Nat} (hTn : T ⊆ Finset.range n)
    (hT : T.card ≤ 4) (hsupp : ∀ k, k ∉ T → c k = 0)
    (hsum : ∀ j < 4, ∑ k ∈ Finset.range n, c k * x k ^ j = 0) {i : Nat} (hi : i ∈ T) :
    c i = 0 := by
  have hdeg : (Lagrange.nodal (T.erase i) x).natDegree < 4 := by
    rw [Lagrange.natDegree_nodal, Finset.card_erase_of_mem hi]
    omega
  have hother : ∀ k ∈ Finset.range n, k ≠ i → c k * (Lagrange.nodal (T.erase i) x).eval (x k) = 0 := fun k _ hki => by
    by_cases hk : k ∈ T
    · rw [Lagrange.eval_nodal_at_node (Finset.mem_erase.2 ⟨hki, hk⟩), mul_zero]
    · rw [hsupp k hk, zero_mul]
  have hself : (Lagrange.nodal (T.erase i) x).eval (x i) ≠ 0 := Lagrange.eval_nodal_not_at_node fun k hk heq => by
    obtain ⟨hki, hkT⟩ := Finset.mem_erase.1 hk
    exact hki (hx (Finset.mem_range.1 (hTn hkT)) (Finset.mem_range.1 (hTn hi)) heq.symm)
  have hzero := sum_mul_eval_eq_zero hsum hdeg
  rw [Finset.sum_eq_single_of_mem i (hTn hi) hother] at hzero
  exact (mul_eq_zero.1 hzero).resolve_right hself

/-- The power sums of values at two or three places are not those of one value at one place. -/
theorem power_sums_ne_single (hx : Set.InjOn x (Set.Iio n)) {T : Finset Nat} (hTn : T ⊆ Finset.range n)
    (hT : 2 ≤ T.card ∧ T.card ≤ 3) (hsupp : ∀ k, c k ≠ 0 ↔ k ∈ T) {k : Nat} (hk : k < n) (y : K) :
    ¬ ∀ j < 4, ∑ i ∈ Finset.range n, c i * x i ^ j = y * x k ^ j := by
  intro hsum
  obtain ⟨i, hi, hik⟩ := Finset.exists_mem_ne hT.1 k
  have hcard : (insert k T).card ≤ 4 := (Finset.card_insert_le k T).trans (by omega)
  have hsub : insert k T ⊆ Finset.range n := Finset.insert_subset (Finset.mem_range.2 hk) hTn
  have hzero := eq_zero_of_power_sums (c := c - Pi.single k y) hx hsub hcard (fun m hm => ?_) (fun j hj => ?_)
    (Finset.mem_insert_of_mem hi)
  · refine (hsupp i).2 hi ?_
    simpa [hik] using hzero
  · obtain ⟨hmk, hmT⟩ := not_or.1 (mt Finset.mem_insert.2 hm)
    simpa [hmk] using not_imp_comm.1 (hsupp m).1 hmT
  · simp [sub_mul, hsum j hj, Pi.single_apply, hk]

end

/-! ### The symbols in error -/

/-- The error at symbol `k` of a word. -/
def errAt (e : SymErr) (k : Nat) : Byte := e.foldl (fun a x => if x.1 = k then a ^^^ x.2 else a) 0

theorem errVector_eq_map (e : SymErr) : errVector e = (List.range 36).map (errAt e) := rfl

theorem foldl_err_of_not_mem {e : SymErr} {k : Nat} (h : k ∉ e.map (·.1)) (a : Byte) :
    e.foldl (fun a x => if x.1 = k then a ^^^ x.2 else a) a = a := by
  induction e generalizing a with
  | nil => rfl
  | cons y e ih =>
    obtain ⟨hy, he⟩ := not_or.1 (mt List.mem_cons.2 h)
    rw [List.foldl_cons, if_neg (Ne.symm hy), ih he]

theorem errAt_of_not_mem {e : SymErr} {k : Nat} (h : k ∉ e.map (·.1)) : errAt e k = 0 := foldl_err_of_not_mem h 0

theorem errAt_of_mem {e : SymErr} (hd : (e.map (·.1)).Nodup) {x : Nat × Byte} (hx : x ∈ e) : errAt e x.1 = x.2 := by
  induction e with
  | nil => simp at hx
  | cons y e ih =>
    obtain ⟨hy, hd⟩ := List.nodup_cons.1 hd
    rcases List.mem_cons.1 hx with rfl | hx
    · rw [errAt, List.foldl_cons, if_pos rfl, foldl_err_of_not_mem hy]
      exact BitVec.zero_xor
    · have hne : y.1 ≠ x.1 := fun h => hy (List.mem_map.2 ⟨x, hx, h.symm⟩)
      rw [errAt, List.foldl_cons, if_neg hne]
      exact ih hd hx

/-- A word has no more symbols in error than its errors name. -/
theorem length_filter_errVector_le (e : SymErr) : ((errVector e).filter (· ≠ 0)).length ≤ e.length := by
  rw [errVector_eq_map, List.filter_map, List.length_map, ← List.length_map (f := (·.1)) (as := e)]
  refine ((List.nodup_range.filter _).subperm fun k hk => ?_).length_le
  by_contra hmem
  simp [errAt_of_not_mem hmem] at hk

/-- With up to three errors the checker goes by the remainder. -/
theorem checkOutcome_of_length_lt {e : SymErr} (hne : e ≠ []) (h : e.length < 4) :
    checkOutcome e = if rsRemainder (errVector e) = (0, 0, 0, 0) then .clean
      else if (rsLocate (rsRemainder (errVector e))).isSome then .corrected else .poisoned := by
  have hlen := length_filter_errVector_le e
  rw [checkOutcome, if_neg hne, if_neg (by omega)]

/-! ### What the checker finds -/

/-- An error in symbol `k` alone explains a remainder: its syndromes stand in the ratio of the symbol's place. -/
def explains (r : Byte × Byte × Byte × Byte) (k : Nat) : Bool :=
  let s (j : Nat) := rsAt r (alphaPow j)
  let a := alphaPow (35 - k)
  s 0 != 0 && s 1 == gfMul a (s 0) && s 2 == gfMul a (s 1) && s 3 == gfMul a (s 2)

theorem rsLocate_eq_find? (r : Byte × Byte × Byte × Byte) : rsLocate r = (List.range 36).find? (explains r) := rfl

/-- No symbol's error explains a remainder of zero. -/
theorem rsLocate_zero : rsLocate (0, 0, 0, 0) = none := by decide +kernel

section
variable {K : Type} [Field K] [CharP K 2] {α : K} (hα : IsAlpha α)
include hα

theorem explains_iff {r : Byte × Byte × Byte × Byte} {k : Nat} :
    explains r k = true ↔ syndrome α r 0 ≠ 0 ∧ ∀ j < 4, syndrome α r j = syndrome α r 0 * (α ^ (35 - k)) ^ j := by
  have heq : ∀ i j, rsAt r (alphaPow i) = gfMul (alphaPow (35 - k)) (rsAt r (alphaPow j))
      ↔ syndrome α r i = α ^ (35 - k) * syndrome α r j := fun i j => by
    rw [← (gfVal_injective hα).eq_iff, gfVal_gfMul hα, gfVal_alphaPow hα, syndrome, syndrome]
  simp only [explains, Bool.and_eq_true, bne_iff_ne, beq_iff_eq, heq, ne_eq, ← gfVal_eq_zero_iff hα]
  constructor
  · rintro ⟨⟨⟨h0, h1⟩, h2⟩, h3⟩
    refine ⟨h0, fun j hj => ?_⟩
    interval_cases j
    · rw [pow_zero, mul_one]
    · rw [h1]; ring
    · rw [h2, h1]; ring
    · rw [h3, h2, h1]; ring
  · rintro ⟨h0, h⟩
    refine ⟨⟨⟨h0, ?_⟩, ?_⟩, ?_⟩
    · rw [h 1 (by decide)]; ring
    · rw [h 2 (by decide), h 1 (by decide)]; ring
    · rw [h 3 (by decide), h 2 (by decide)]; ring

theorem places_injOn : Set.InjOn (fun k => α ^ (35 - k)) (Set.Iio 36) := fun i hi j hj h => by
  have hexp : 35 - i = 35 - j := alpha_pow_inj hα (by omega) (by omega) h
  have hi' : i < 36 := hi
  have hj' : j < 36 := hj
  omega

theorem syndrome_errVector (e : SymErr) {j : Nat} (hj : j < 4) :
    syndrome α (rsRemainder (errVector e)) j = ∑ k ∈ Finset.range 36, gfVal α (errAt e k) * (α ^ (35 - k)) ^ j := by
  rw [errVector_eq_map, syndrome_rsRemainder hα _ hj]

theorem syndrome_single {k : Nat} (hk : k < 36) (y : Byte) {j : Nat} (hj : j < 4) :
    syndrome α (rsRemainder (errVector [(k, y)])) j = gfVal α y * (α ^ (35 - k)) ^ j := by
  rw [syndrome_errVector hα _ hj, Finset.sum_eq_single_of_mem k (Finset.mem_range.2 hk) fun i _ hik => ?_,
    errAt_of_mem (x := (k, y)) (by simp) (by simp)]
  rw [errAt_of_not_mem (by simpa using hik), show gfVal α 0 = 0 from gfVal_zero, zero_mul]

theorem explains_single_iff {k i : Nat} (hk : k < 36) (hi : i < 36) {y : Byte} (hy : y ≠ 0) :
    explains (rsRemainder (errVector [(k, y)])) i = true ↔ i = k := by
  have hy' := gfVal_ne_zero hα hy
  have hsynd := fun j (hj : j < 4) => syndrome_single hα hk y hj
  have hfirst : syndrome α (rsRemainder (errVector [(k, y)])) 0 = gfVal α y := by simp [hsynd 0 (by decide)]
  rw [explains_iff hα, hfirst]
  constructor
  · rintro ⟨-, h⟩
    have hone := h 1 (by decide)
    rw [hsynd 1 (by decide), pow_one, pow_one] at hone
    exact (places_injOn hα hk hi (mul_left_cancel₀ hy' hone)).symm
  · rintro rfl
    exact ⟨hy', hsynd⟩

theorem rsLocate_single {k : Nat} (hk : k < 36) {y : Byte} (hy : y ≠ 0) :
    rsLocate (rsRemainder (errVector [(k, y)])) = some k := by
  rw [rsLocate_eq_find?, List.find?_range_eq_some]
  refine ⟨(explains_single_iff hα hk hk hy).2 rfl, List.mem_range.2 hk, fun i hik => ?_⟩
  rw [Bool.not_eq_true', ← Bool.not_eq_true, explains_single_iff hα hk (hik.trans hk) hy]
  exact hik.ne

/-- The syndromes of two or three errors are not those of one symbol. -/
theorem syndromes_ne_single {e : SymErr} (hd : (e.map (·.1)).Nodup) (he : ∀ x ∈ e, x.1 < 36 ∧ x.2 ≠ 0)
    (hlen : e.length = 2 ∨ e.length = 3) {k : Nat} (hk : k < 36) (y : K) :
    ¬ ∀ j < 4, syndrome α (rsRemainder (errVector e)) j = y * (α ^ (35 - k)) ^ j := by
  have hcard : (e.map (·.1)).toFinset.card = e.length := by rw [List.toFinset_card_of_nodup hd, List.length_map]
  have hsub : (e.map (·.1)).toFinset ⊆ Finset.range 36 := fun i hi => by
    obtain ⟨x, hx, rfl⟩ := List.mem_map.1 (List.mem_toFinset.1 hi)
    exact Finset.mem_range.2 (he x hx).1
  have hsupp : ∀ i, gfVal α (errAt e i) ≠ 0 ↔ i ∈ (e.map (·.1)).toFinset := fun i => by
    rw [Ne, gfVal_eq_zero_iff hα, List.mem_toFinset]
    refine ⟨not_imp_comm.1 errAt_of_not_mem, fun hi => ?_⟩
    obtain ⟨x, hx, rfl⟩ := List.mem_map.1 hi
    rw [errAt_of_mem hd hx]
    exact (he x hx).2
  intro h
  exact power_sums_ne_single (places_injOn hα) hsub (by omega) hsupp hk y fun j hj => by
    rw [← syndrome_errVector hα e hj, h j hj]

theorem rsRemainder_ne_zero {e : SymErr} (hd : (e.map (·.1)).Nodup) (he : ∀ x ∈ e, x.1 < 36 ∧ x.2 ≠ 0)
    (hlen : e.length = 2 ∨ e.length = 3) : rsRemainder (errVector e) ≠ (0, 0, 0, 0) := fun h =>
  syndromes_ne_single hα hd he hlen (k := 0) (by decide) 0 fun j _ => by
    rw [h, syndrome, gfVal_rsAt hα]
    simp [gfVal_zero]

theorem rsLocate_eq_none {e : SymErr} (hd : (e.map (·.1)).Nodup) (he : ∀ x ∈ e, x.1 < 36 ∧ x.2 ≠ 0)
    (hlen : e.length = 2 ∨ e.length = 3) : rsLocate (rsRemainder (errVector e)) = none := by
  rw [rsLocate_eq_find?, List.find?_eq_none]
  intro k hk hex
  exact syndromes_ne_single hα hd he hlen (List.mem_range.1 hk) _ ((explains_iff hα).1 hex).2

end

theorem checkOutcome_single {k : Nat} (hk : k < 36) {y : Byte} (hy : y ≠ 0) :
    checkOutcome [(k, y)] = .corrected ∧ correctedSymbol [(k, y)] = k := by
  obtain ⟨α, hα⟩ := exists_isAlpha
  have hloc := rsLocate_single hα hk hy
  have hrem : rsRemainder (errVector [(k, y)]) ≠ (0, 0, 0, 0) := fun h => by
    rw [h, rsLocate_zero] at hloc
    exact nomatch hloc
  constructor
  · rw [checkOutcome_of_length_lt (by simp) (by simp), if_neg hrem, hloc]
    rfl
  · rw [correctedSymbol, hloc]
    rfl

theorem checkOutcome_two_or_three {e : SymErr} (hd : (e.map (·.1)).Nodup) (he : ∀ x ∈ e, x.1 < 36 ∧ x.2 ≠ 0)
    (hlen : e.length = 2 ∨ e.length = 3) : checkOutcome e = .poisoned := by
  obtain ⟨α, hα⟩ := exists_isAlpha
  have hne : e ≠ [] := fun h => by simp [h] at hlen
  rw [checkOutcome_of_length_lt hne (by omega), if_neg (rsRemainder_ne_zero hα hd he hlen), rsLocate_eq_none hα hd he hlen]
  rfl

/-- Settles O50: the syndromes are power sums of the errors in a field of characteristic 2, in which four of them tell one
error's place apart and are never those of one error when there are two or three. -/
theorem checkerSymbols : Obligations.CheckerSymbols := by
  intro e hd he
  refine ⟨fun h => ?_, fun x hx => ?_, checkOutcome_two_or_three hd he⟩
  · rw [List.length_eq_zero_iff.1 h, checkOutcome, if_pos rfl]
  · subst hx
    obtain ⟨hk, hy⟩ := he x (List.mem_singleton_self x)
    exact checkOutcome_single hk hy

end Sys2Proof.Machine

/-! The ends of graceful stops and the auditors' points (R28, R30, R33, R39), and decode errors (R21, R235). -/

namespace Sys2Proof.Machine

/-! ### Graceful stops and audit points -/

theorem gracefulDone_of_unitDone {f : Func} {x : Drain} {d : Dev} (hx : drainOf f d = some x) (hu : unitDone x d = true) :
    gracefulDone f d = endDrain f ocGraceful (stopDone f d) := by
  simp [gracefulDone, hx, hu]

theorem deadlinePassed_of_deadline_le {f : Func} {x : Drain} {d : Dev} (hx : drainOf f d = some x)
    (hu : unitDone x d = false) (hd : x.deadline ≤ d.up) :
    deadlinePassed f d = endDrain f ocEscalated (stopFunc f d) := by
  simp [deadlinePassed, hx, hu, hd]

/-- Settles O18: a stop ends by its own function's case for the drain, and an audit point's condition is the conjunction
that the statement names. -/
theorem stopsAndAudits : Obligations.StopsAndAudits := fun s =>
  ⟨fun f _ hx hu => (onDev_next (gracefulDone f) s).trans (by rw [gracefulDone_of_unitDone hx hu]),
   fun f _ hx hu hd => (onDev_next (deadlinePassed f) s).trans (by rw [deadlinePassed_of_deadline_le hx hu hd]),
   fun a hm he hd => by
     change execAuditPoint a s = _
     exact onDevIf_next (by simp [hm, he, hd]),
   fun sram w => onDev_next (sramRewrite sram w) s⟩

/-! ### Decode errors -/

theorem beat_of_no_target {m a v : Nat} {w : Bool} {mem : Mem} {d : Dev} (h : targetOf a = none) :
    beat m w a v mem d = ((3, 0), decodeError m w a d) := by
  simp [beat, h]

theorem beat_of_no_register {m a v t : Nat} {w : Bool} {mem : Mem} {d : Dev} (ht : targetOf a = some t) (hne : t ≠ 21)
    (hr : reaches m t d = true) (hreg : regWord a (masterBump m xACCESSES 1 (granted t m d)) = none) :
    beat m w a v mem d = ((3, 0), decodeError m w a (masterBump m xACCESSES 1 (granted t m d))) := by
  simp [beat, ht, hne, hr, hreg]

theorem beat_of_window_shut {m a v : Nat} {w : Bool} {mem : Mem} {d : Dev} (ht : targetOf a = some 21)
    (hr : reaches m 21 d = true)
    (hw : windowShows (a - 0xC0000000) 4 (masterBump m xACCESSES 1 (granted 21 m d)) = false) :
    beat m w a v mem d = ((3, 0), decodeError m w a (masterBump m xACCESSES 1 (granted 21 m d))) := by
  simp [beat, ht, hr, hw]

/-- Only a beat on the HBM window's target stores in HBM. -/
theorem beatStore_of_targetOf_ne {m a v : Nat} {w : Bool} {d : Dev} (h : targetOf a ≠ some 21) :
    beatStore m w a v d = [] := by
  simp [beatStore, h]

theorem beatStore_of_window_shut {m a v : Nat} {w : Bool} {d : Dev} (h : windowShows (a - 0xC0000000) 4 d = false) :
    beatStore m w a v d = [] := by
  simp [beatStore, h]

/-- What the window shows does not hang on the crossbar's grants and counters. -/
theorem windowShows_granted (m b n : Nat) (d : Dev) :
    windowShows b n (masterBump m xACCESSES 1 (granted 21 m d)) = windowShows b n d := rfl

/-- Settles O55: by the three ways a beat meets no register, none of which lets it store. -/
theorem decodeErrors : Obligations.DecodeErrors := by
  intro m a v w mem d _
  refine ⟨fun ht => ⟨?_, beat_of_no_target ht⟩, fun t ht hne hr hreg => ⟨?_, beat_of_no_register ht hne hr hreg⟩,
    fun ht hr hw => ⟨?_, beat_of_window_shut ht hr hw⟩⟩
  · exact beatStore_of_targetOf_ne (by simp [ht])
  · exact beatStore_of_targetOf_ne (by simp [ht, hne])
  · exact beatStore_of_window_shut (windowShows_granted m _ _ d ▸ hw)

end Sys2Proof.Machine

/-! Time, the reference selector, PULSE_OUT and the synthesisers (chapter 2), and what a step runs. -/

namespace Sys2Proof.Machine

open Sys2Proof.Safety

/-! ### The slew law (R69) -/

/-- The update keeps the house time of the device without the candidates that are gone. -/
theorem ncoUpdate_lastNco (d : Dev) : (ncoUpdate d).tim.ref.lastNco = (dropAbsent d).house := rfl

/-- The initial selection window has ended with two candidates of rank 1 qualified that disagree (R63), so none was taken and
the house is still UNALIGNED; then the SDI receiver that one of them names loses lock, and a new millisecond begins. -/
def rivalLostDev : Dev :=
  { mode := READY
    house := ms
    tim.tbs := [(0, { state := 3, time := ms + 1000 })]
    tim.ref.initDone := true
    tim.ref.cands :=
      [(0, { kind := 3, source := 0, rank := 1, frameN := 20000000, present := true, qual := true, freq := some 5000 }),
       (1, { kind := 1, source := 0, rank := 1, present := true, qual := true, freq := some 0 })] }

/-- The time base that is left is chosen at once, and house time steps to its time of day (R68). -/
theorem house_dropAbsent_rivalLostDev : (dropAbsent rivalLostDev).house = ms + 1000 := by decide +kernel

/-- Refutes O54: dropping a candidate that is gone can align the house to another one, and the update then keeps the house
time after that step, not the house time before it. -/
theorem not_slewLaw : ¬ Obligations.SlewLaw := by
  intro h
  obtain ⟨-, -, -, -, hkept, -⟩ := h rivalLostDev
  rw [ncoUpdate_lastNco, house_dropAbsent_rivalLostDev] at hkept
  exact absurd hkept (by decide +kernel)

/-! ### The commands of family 0x0A -/

/-- A taken command that has no effect but its answer, which it reads from the state. -/
theorem hostCommand_read {c : CmdSpec} {r : Req} {s : State} (h : Taken c r s) (hd : c.disables = none)
    (ha : c.ahead = fun _ d => d) (hp : c.point = fun _ _ => .now) (he : c.apply = fun _ d => d)
    (hs : c.store = fun _ _ => []) :
    hostCommand c 0 r s = answered c r s (c.reply (argsOf r s) s.dev s.dev) s.dev := by
  have hat : atPoint c r s (c.apply (argsOf r s)) = s.dev := by rw [atPoint, hp, he]
  rw [hostCommand_reply h hd ha, hat, hs]

/-- Settles O1: each command's description says whether it disables, reads, or has an effect of its own, and the law of
that form gives the state after it. -/
theorem timeCommands : Obligations.TimeCommands := fun _ _ =>
  ⟨fun h => congrArg _ (hostCommand_done h rfl rfl rfl rfl),
   fun h => congrArg _ (hostCommand_done h rfl rfl rfl rfl),
   fun h => congrArg _ (hostCommand_disable h rfl rfl rfl rfl),
   fun h => congrArg _ ((hostCommand_done h rfl rfl rfl rfl).trans (by dsimp only [cmdTimRestep, argsOf])),
   fun h => congrArg _ (hostCommand_read h rfl rfl rfl rfl rfl),
   fun h => congrArg _ (hostCommand_done h rfl rfl rfl rfl),
   fun h => congrArg _ (hostCommand_done h rfl rfl rfl rfl),
   fun h => congrArg _ (hostCommand_done h rfl rfl rfl rfl),
   fun h => congrArg _ (hostCommand_done h rfl rfl rfl rfl),
   fun h => congrArg _ (hostCommand_done h rfl rfl rfl rfl),
   fun h => congrArg _ (hostCommand_done h rfl rfl rfl rfl),
   fun h => congrArg _ (hostCommand_done h rfl rfl rfl rfl),
   fun h => congrArg _ (hostCommand_disable h rfl rfl rfl rfl),
   fun h => congrArg _ (hostCommand_done h rfl rfl rfl rfl),
   fun h => congrArg _ (hostCommand_done h rfl rfl rfl rfl)⟩

/-! ### The events of the selector and of the clocks -/

/-- Settles O19: the conditions that the statement names are the conjuncts of each event's condition; a PTP message leaves
by the time base that carries its port. -/
theorem selectorEvents : Obligations.SelectorEvents := fun s =>
  ⟨fun hr hms => show execNcoUpdate s = _ from onDevIf_next (by simp [hr, hms]),
   fun hst ht => show execSelectorLocked s = _ from onDevIf_next (by simp [hst, ht]),
   fun hm hms => show execHouseSynthRatioLoad s = _ from onDevIf_next (by simp [hm, hms]),
   fun port m hb => show execPtpMessageReceive port m s = _ from onDevIf_next hb,
   fun port n k hn hdue => by
     change execPtpMessageTransmit port k s = _
     rw [execPtpMessageTransmit, onDev_next, ptpTransmit, hn]
     exact congrArg _ (congrArg _ (if_pos hdue)),
   fun tb hrole hst hnone => show execAnnounceReceiptTimeout tb s = _ from onDevIf_next (by simp [hrole, hst, hnone]),
   fun tb hrole hst hint h250 =>
     show execSyncAbsenceTimeout tb s = _ from onDevIf_next (by simp [hrole, hst, hint, h250]),
   fun kind source phase edge hr hk =>
     show execReferenceEdge kind source phase s edge = _ from onDevIf_next (by simp [hr, hk]),
   fun n ppb hr hn hrank hp => show execFrequencyGate n ppb s = _ from onDevIf_next (by simp [hr, hn, hrank, hp]),
   fun n hr hn hrank hq hp ht =>
     show execCandidateQualify n s = _ from onDevIf_next (by simp [hr, hn, hrank, hq, hp, ht]),
   fun n hr hn hrank hseen habs =>
     show execCandidateLost n s = _ from onDevIf_next (by simp [hr, hn, hrank, hseen, habs]),
   fun hc ht => show execConflictClear s = _ from onDevIf_next (by simp [hc, ht]),
   fun hst hi ht => show execInitialSelectionWindow s = _ from onDevIf_next (by simp [hst, hi, ht])⟩

/-- Settles O20: the conditions that the statement names are the conjuncts of each event's condition, and the loss of the
crystal has none. -/
theorem clockEvents : Obligations.ClockEvents := fun s =>
  ⟨fun pin hl hs => show execPulseEdge pin s = _ from onDevIf_next (by simp [hl, hs]),
   fun n hn hm hu hb hsel => show execPllLock n s = _ from onDevIf_next (by simp [hn, hm, hu, hb, hsel]),
   fun n hn hm hsel hu ht => show execPllTableMiss n s = _ from onDevIf_next (by simp [hn, hm, hsel, hu, ht]),
   fun n hn hm hl => show execPllLossOfLock n s = _ from onDevIf_next (by simp [hn, hm, hl]),
   fun n hn hb hu hs ht => show execPllBypassSearch n s = _ from onDevIf_next (by simp [hn, hb, hu, hs, ht]),
   fun n hn hb hu hsel => show execPllRelock n s = _ from onDevIf_next (by simp [hn, hb, hu, hsel]),
   onDev_next (major 0x000 0) s,
   fun o osb hr hl => show execOctetSynthLossOfLock o osb s = _ from onDevIf_next (by simp [hr, hl]),
   fun o osb hr hu ht => show execOctetSynthSearch o osb s = _ from onDevIf_next (by simp [hr, hu, ht]),
   fun o osb hr hu hs ht => show execOctetSynthRelock o osb s = _ from onDevIf_next (by simp [hr, hu, hs, ht])⟩

/-! ### What a step runs -/

/-- Settles O35, by the two cases of the queue. -/
theorem stepRunsFront : Obligations.StepRunsFront := by
  refine ⟨fun i rest s h => ?_, fun s h => ⟨withDev s (latchSnaps s.hbm (idle s.dev)), ?_, withDev_dev .., withDev_hbm ..,
    (withDev_pending ..).trans h⟩⟩
  · rw [step, h]
  · rw [step, h, execIdle, onDev_next]

end Sys2Proof.Machine

/-! Serial lanes and octets (chapter 3). -/

namespace Sys2Proof.Machine

/-! ### The commands of family 0x02 -/

/-- Settles O2: each command's description says whether it disables, reads, or has an effect of its own, and the law of
that form gives the state after it. -/
theorem laneCommands : Obligations.LaneCommands := fun _ _ =>
  ⟨fun h => congrArg _ (hostCommand_done h rfl rfl rfl rfl),
   fun h => congrArg _ (hostCommand_done h rfl rfl rfl rfl),
   fun h => congrArg _ (hostCommand_disable h rfl rfl rfl rfl),
   fun h => congrArg _ (hostCommand_done h rfl rfl rfl rfl),
   fun h => congrArg _ (hostCommand_done h rfl rfl rfl rfl),
   fun h => congrArg _ (hostCommand_done h rfl rfl rfl rfl),
   fun h => congrArg _ (hostCommand_read h rfl rfl rfl rfl rfl),
   fun h => congrArg _ (hostCommand_done h rfl rfl rfl rfl),
   fun h => congrArg _ (hostCommand_done h rfl rfl rfl rfl)⟩

/-! ### The events of a lane and of roving -/

/-- Settles O21: the conditions that the statement names are the conjuncts of each event's condition; a marker has none but
the lane's number. -/
theorem laneEvents : Obligations.LaneEvents := fun s =>
  ⟨fun n peak hm hn hpeak hlos => show execLosAssert n s peak = _ from onDevIf_next (by simp [hm, hn, hpeak, hlos]),
   fun n least hm hn hleast hlos => show execLosDeassert n s least = _ from onDevIf_next (by simp [hm, hn, hleast, hlos]),
   fun n v errs start hn hen hlos hst =>
     show execLaneFrequencyGate n v errs s start = _ from onDevIf_next (by simp [hn, hen, hlos, hst]),
   fun n hn hrate hst hen hlol hlos ht =>
     show execRateSearchStep n s = _ from onDevIf_next (by simp [hn, hrate, hst, hen, hlol, hlos, ht]),
   fun n hn hst hen hlos hosc hrate ht =>
     show execLaneFrequencyAcquired n s = _ from onDevIf_next (by simp [hn, hst, hen, hlos, hosc, hrate, ht]),
   fun n hn hst had ht => show execLaneAdaptEnd n s = _ from onDevIf_next (by simp [hn, hst, had, ht]),
   fun n comp identity hn => show execAlignmentMarker n comp identity s = _ from onDevIf_next (decide_eq_true hn),
   fun n hn hst ht => show execAlignTimeout n s = _ from onDevIf_next (decide_eq_true ⟨hn, hst, ht⟩),
   fun o m ho hst hen hspare hidle hosc ht hnext =>
     show execRoveVisit o m s = _ from onDevIf_next (by simp [ho, hst, hen, hspare, hidle, hosc, ht, hnext]),
   fun o mism ho hst ht => show execRoveSubstitution o s mism = _ from onDevIf_next (decide_eq_true ⟨ho, hst, ht⟩),
   fun n laneNo allUp hlo hhi hst =>
     show execTwinTrainingMarker n laneNo allUp s = _ from onDevIf_next (decide_eq_true ⟨hlo, hhi, hst⟩)⟩

end Sys2Proof.Machine

/-! SDI reception and transmission (chapter 4). -/

namespace Sys2Proof.Machine

open Sys2Proof.Safety

/-! ### Multi-link groups -/

/-- A taken SDI_MULTILINK whose point is a member's next frame boundary waits for it (R154; log entry 28). -/
theorem hostCommand_sdiMultilink_waits {q : Req} {s : State} {n : Nat} (h : Taken cmdSdiMultilink q s)
    (hp : cmdSdiMultilink.point q.payload s.dev = .laneFrame n) :
    hostCommand cmdSdiMultilink 0 q s = answered cmdSdiMultilink q s {} { s.dev with
      cfg.waiting := s.dev.cfg.waiting ++ [⟨.laneFrame n, ⟨cmdSdiMultilink.opcode, q.payload⟩, none, false⟩] } := by
  rw [hostCommand_taken h, hp]
  rfl

/-- Perby serves the mailboxes, lanes 0 to 3 of an SDI octet receive, and receiver 0 has a frame running, in VERIFY. -/
def frameRunning : State where
  hbm := []
  pending := []
  dev :=
    { mode := SOLO
      host.perbyUp := true
      octets := [(0, { mode := 0 })]
      lanes := (List.range 4).map fun n => (n, { rxEn := true, rate := 0xE })
      sdiRx := [(0, { en := true, state := 2 })] }

/-- SDI_MULTILINK: receivers 0 to 3 become receive group 0 of mapping 0x7, with a window of 1 line. -/
def joinReceivers : Req := ⟨0, 0, [0, 1, 7, 0, 1, 0, 0, 0, 0, 0, 1, 0, 2, 0, 3, 0]⟩

theorem taken_joinReceivers : Taken cmdSdiMultilink joinReceivers frameRunning := by
  unfold Taken
  decide +kernel

theorem point_joinReceivers : cmdSdiMultilink.point joinReceivers.payload frameRunning.dev = .laneFrame 0 := by
  decide +kernel

/-- Receiver 0's frame still runs: the group does not stand yet. -/
theorem group_unused_after_joinReceivers :
    (mlink 0 (hostCommand cmdSdiMultilink 0 joinReceivers frameRunning).dev).used = false := by
  rw [hostCommand_sdiMultilink_waits taken_joinReceivers point_joinReceivers]
  decide +kernel

/-- Refutes O3: SDI_MULTILINK that joins a receiver whose frame runs waits for that receiver's next frame boundary, where
the statement has the group stand at once. -/
theorem not_sdiCommands : ¬ Obligations.SdiCommands := by
  intro h
  obtain ⟨-, -, hjoin, -⟩ := h joinReceivers frameRunning
  have hstands := Host.Outcome.next.inj (hjoin taken_joinReceivers)
  have hunused := group_unused_after_joinReceivers
  rw [hstands] at hunused
  exact absurd hunused (by decide +kernel)

/-! ### The events of SDI reception and transmission -/

/-- Settles O22: the conditions that the statement names are the conjuncts of each event's condition. -/
theorem sdiEvents : Obligations.SdiEvents := fun s =>
  ⟨fun n stream pos coded hw => show execSdiTrs n stream pos coded s = _ from onDevIf_next hw,
   fun n stream hn hen => show execSdiTrsAbsent n stream s = _ from onDevIf_next (by simp [hn, hen]),
   fun n stream y c eav buf hn hen => show execSdiLine n stream y c eav buf s = _ from onDevIf_next (by simp [hn, hen]),
   fun n m hn hrun hen hst hedge =>
     show execSdiFrameBoundary n m s = _ from onDevIf_next (by simp [hn, hrun, hen, hst, hedge]),
   fun n p hn hen => show execSdiAncPacket n p s = _ from onDevIf_next (by simp [hn, hen]),
   fun n p hn hen => show execSdiAudioPacket n p s = _ from onDevIf_next (by simp [hn, hen]),
   fun n k buf hn => show execSdiTxFrameStart n k s buf = _ from onDevIf_next (decide_eq_true hn)⟩

end Sys2Proof.Machine

/-! Ethernet ports, queues and rings (chapter 5). -/

namespace Sys2Proof.Machine

open Sys2Proof.Safety

/-! ### The commands of family 0x04 -/

/-- A taken command whose effect comes at once and whose answer is read from the states before and after it. -/
theorem hostCommand_answer_now {c : CmdSpec} {r : Req} {s : State} (h : Taken c r s) (hd : c.disables = none)
    (ha : c.ahead = fun _ d => d) (hp : c.point = fun _ _ => .now) (hs : c.store = fun _ _ => []) :
    hostCommand c 0 r s =
      answered c r s (c.reply (argsOf r s) s.dev (c.apply (argsOf r s) s.dev)) (c.apply (argsOf r s) s.dev) := by
  have hat : atPoint c r s (c.apply (argsOf r s)) = c.apply (argsOf r s) s.dev := by rw [atPoint, hp]
  rw [hostCommand_reply h hd ha, hat, hs]

/-- Settles O4: each command's description says whether it disables, reads, answers with what it takes, or has an effect
alone, and the law of that form gives the state after it. -/
theorem macCommands : Obligations.MacCommands := fun _ _ =>
  ⟨fun h => congrArg _ (hostCommand_done h rfl rfl rfl rfl),
   fun h => congrArg _ (hostCommand_done h rfl rfl rfl rfl),
   fun h => congrArg _ (hostCommand_disable h rfl rfl rfl rfl),
   fun h => congrArg _ (hostCommand_done h rfl rfl rfl rfl),
   fun h => congrArg _ (hostCommand_disable h rfl rfl rfl rfl),
   fun h => congrArg _ (hostCommand_done h rfl rfl rfl rfl),
   fun h => congrArg _ (hostCommand_done h rfl rfl rfl rfl),
   fun h => congrArg _ (hostCommand_answer_now h rfl rfl rfl rfl),
   fun h => congrArg _ (hostCommand_read h rfl rfl rfl rfl rfl)⟩

/-! ### The events of ports, queues and rings -/

/-- Settles O23: the conditions that the statement names are the conjuncts of each event's condition; a pause timer's
condition reads the instant at which its queue's pause ends. -/
theorem ethernetEvents : Obligations.EthernetEvents := fun s =>
  ⟨fun p hp hl ha => show execMacPcsAligned p s = _ from onDevIf_next (by simp [hp, hl, ha]),
   fun p hp hl ht ha hrf => show execMacLinkUp p s = _ from onDevIf_next (by simp [hp, hl, ht, ha, hrf]),
   fun p lockLost symErrs badHeaders hp hl ha hbad =>
     show execMacLinkDown p lockLost s symErrs badHeaders = _ from onDevIf_next (by simp [hp, hl, ha, hbad]),
   fun p hp hl => show execRemoteFaultReceived p s = _ from onDevIf_next (by simp [hp, hl]),
   fun p hp hl => show execRemoteFaultCleared p s = _ from onDevIf_next (by simp [hp, hl]),
   fun p f hrun hp hl => show execEthFrameReceive p f s = _ from onDevIf_next (by simp [hrun, hp, hl]),
   fun p q t hpaused hq ht => show execPauseTimerExpiry p q s = _ from onDevIf_next (by simp [hpaused, hq, ht]),
   fun p q hp hl hfc habove hxon ht =>
     show execPauseRefresh p q s = _ from onDevIf_next (by simp [hp, hl, hfc, habove, hxon, ht]),
   fun p hrun hp hl => show execEthFrameTransmit p s = _ from onDevIf_next (by simp [hrun, hp, hl]),
   fun mac ptp hrun hmac => show execRingCopy mac ptp s = _ from onDevIf_next (by simp [hrun, hmac])⟩

end Sys2Proof.Machine

/-! IP media flows (chapter 6). -/

namespace Sys2Proof.Machine

open Sys2Proof.Safety

/-! ### The commands of family 0x05 -/

/-- Settles O5: each command's description says whether it disables, reads, answers with what it finds, or has an effect
alone, and the law of that form gives the state after it. -/
theorem flowCommands : Obligations.FlowCommands := fun _ _ =>
  ⟨fun h => congrArg _ (hostCommand_done h rfl rfl rfl rfl),
   fun h => congrArg _ (hostCommand_done h rfl rfl rfl rfl),
   fun h => congrArg _ (hostCommand_done h rfl rfl rfl rfl),
   fun h => congrArg _ (hostCommand_done h rfl rfl rfl rfl),
   fun h => congrArg _ (hostCommand_disable h rfl rfl rfl rfl),
   fun h => congrArg _ (hostCommand_done h rfl rfl rfl rfl),
   fun h => congrArg _ (hostCommand_done h rfl rfl rfl rfl),
   fun h => congrArg _ (hostCommand_done h rfl rfl rfl rfl),
   fun h => congrArg _ (hostCommand_done h rfl rfl rfl rfl),
   fun h => congrArg _ (hostCommand_disable h rfl rfl rfl rfl),
   fun h => congrArg _ (hostCommand_answer_now h rfl rfl rfl rfl),
   fun h => congrArg _ (hostCommand_read h rfl rfl rfl rfl rfl)⟩

/-! ### The events of flows and of the flow table -/

/-- Settles O24: the conditions that the statement names are the conjuncts of each event's condition; a re-key's switch
comes at once where no instant is set for it. -/
theorem flowEvents : Obligations.FlowEvents := fun s =>
  ⟨fun p table window hrun hp => show execFlowClassify p s table window = _ from onDevIf_next (by simp [hrun, hp]),
   fun n hrun hup ht => show execFlowPathDown n 0 s = _ from onDevIf_next (by simp [hrun, hup, ht]),
   fun n hrun hup ht => show execFlowPathDown n 1 s = _ from onDevIf_next (by simp [hrun, hup, ht]),
   fun n hn hrun hdue => show execIpFrameClose n s = _ from onDevIf_next (by simp [hn, hrun, hdue]),
   fun hserve hst hpl => show execRekeyPlacementDone s = _ from onDevIf_next (by simp [hserve, hst, hpl]),
   fun hst hpl hsw hat => show execRekeySwitch s = _ from onDevIf_next (by
     cases ho : s.dev.flows.tbl.switchAt with
     | none => simp [hst, hpl, hsw, ho]
     | some t => simp [hst, hpl, hsw, ho, hat t ho]),
   fun t hsw hst ht => show execRekeyComplete s = _ from onDevIf_next (by simp [hsw, hst, ht]),
   fun memc healthy hm => show execEntropyDrawRetry memc healthy s = _ from onDevIf_next (decide_eq_true hm),
   fun n seq k hrun hn hsend hfirst hpacket =>
     show execPacketScheduled n seq k s = _ from onDevIf_next (by simp [hrun, hn, hsend, hfirst, hpacket]),
   fun p group hrun hserve hp hq => show execIgmpQuery p group s = _ from onDevIf_next (by simp [hrun, hserve, hp, hq]),
   fun p ip hrun hserve hp hne hip =>
     show execArpRequest p ip s = _ from onDevIf_next (by simp [hrun, hserve, hp, ← hip, hne])⟩

end Sys2Proof.Machine

/-! The frame store (chapter 7): memory's canonical form (R231), which every step keeps. -/

namespace Sys2Proof.Machine

open Sys2Proof.Safety

/-! ### Operations that keep the canonical form -/

/-- Settles O38: memory after reset lists no byte. -/
theorem resetCanonical : Obligations.ResetCanonical := Mem.wf_nil

theorem canonical_of_hbm_eq {s t : State} (h : Canonical s) (ht : t.hbm = s.hbm) : Canonical t :=
  (congrArg Mem.wf ht).trans h

theorem canonical_mk {m : Mem} (h : m.wf = true) (d : Dev) (p : List Instr) : Canonical ⟨m, d, p⟩ := h

theorem canonical_withDev {s : State} (h : Canonical s) (d : Dev) : Canonical (withDev s d) := h

theorem canonical_withStore {s : State} (h : Canonical s) (d : Dev) (w : List (Nat × Byte)) : Canonical (withStore d w s) :=
  Mem.wf_foldl_write w h

theorem canonical_hostCommand {s : State} (h : Canonical s) (c : CmdSpec) (f : Nat) (r : Req) :
    Canonical (hostCommand c f r s) := by
  unfold hostCommand
  split
  · exact canonical_withStore h _ _
  · exact h

theorem canonical_hostLater {s : State} (h : Canonical s) (c : CmdSpec) (f : Nat) (r : Req) : Canonical (hostLater c f r s) :=
  canonical_of_hbm_eq h (hostLater_hbm c f r s)

theorem canonical_hostStaged {s : State} (h : Canonical s) (b op f : Nat) (r : Req) : Canonical (hostStaged b op f r s) :=
  canonical_of_hbm_eq h (hostStaged_hbm b op f r s)

theorem canonical_ite {c : Prop} [Decidable c] {s t : State} (hs : Canonical s) (ht : Canonical t) :
    Canonical (if c then s else t) := by
  split
  · exact hs
  · exact ht

/-- A request is refused with an answer alone, or runs in one of the three ways in which Perby executes a command. -/
theorem canonical_acceptRequest {s : State} (h : Canonical s) (n : Nat) : Canonical (acceptRequest n s) := by
  unfold acceptRequest
  refine canonical_ite h (canonical_ite h (canonical_ite h (canonical_ite h ?_)))
  split
  · exact h
  · exact canonical_ite h (canonical_ite (canonical_ite (canonical_hostStaged h ..) h)
      (canonical_ite (canonical_hostLater h ..) (canonical_hostCommand h ..)))

theorem canonical_recompose {s : State} (h : Canonical s) (e : Nat) : Canonical (recompose e s) := recompose_wf e h

theorem canonical_composePicture {s : State} (h : Canonical s) (e j q : Nat) : Canonical (composePicture e j q s) :=
  composePicture_wf e j q h

theorem canonical_pictureAt {s : State} (h : Canonical s) (e j q : Nat) (buf : List WordErr) :
    Canonical (pictureAt e j q buf s) := by
  unfold pictureAt
  dsimp only
  split
  · next f _ => exact canonical_withDev (canonical_recompose (canonical_withDev
      (canonical_composePicture (canonical_withDev (canonical_recompose h e) _) f j q) _) f) _
  · exact canonical_withDev (canonical_recompose h e) _

/-! ### What the commands answer -/

/-- A meaning that answers a next state answers one whose memory has its canonical form. -/
def CanonicalOut (o : Out) : Prop := ∀ t, o = .next t → Canonical t

theorem canonicalOut_next {t : State} (h : Canonical t) : CanonicalOut (.next t) := fun _ hu =>
  Host.Outcome.next.inj hu ▸ h

theorem canonicalOut_withDev {s : State} (h : Canonical s) (d : Dev) : CanonicalOut (.next (withDev s d)) :=
  canonicalOut_next h

theorem canonicalOut_ite {c : Prop} [Decidable c] {x y : Out} (hx : CanonicalOut x) (hy : CanonicalOut y) :
    CanonicalOut (if c then x else y) := by
  split
  · exact hx
  · exact hy

section
variable {s : State} (h : Canonical s)
include h

theorem canonicalOut_execCrossbarAccess (t : Nat) (reqs : List XReq) : CanonicalOut (execCrossbarAccess t reqs s) :=
  canonicalOut_ite (canonicalOut_ite (canonicalOut_withDev h _) (canonicalOut_next (canonical_withStore h _ _)))
    (canonicalOut_next h)

theorem canonicalOut_execControlWindowAccess (m : Nat) (w : Bool) (b len : Nat) (bytes : List Byte) :
    CanonicalOut (execControlWindowAccess m w b len bytes s) :=
  canonicalOut_ite (canonicalOut_next h) <| canonicalOut_ite (canonicalOut_withDev h _) <|
    canonicalOut_ite (canonicalOut_withDev h _) <| canonicalOut_ite (canonicalOut_next (canonical_withStore h _ _))
      (canonicalOut_withDev h _)

theorem canonicalOut_execDebugWindowAccess (w : Bool) (x : Nat) (v : Word) : CanonicalOut (execDebugWindowAccess w x v s) :=
  canonicalOut_ite (canonicalOut_next h) <| canonicalOut_ite (canonicalOut_withDev h _) <|
    canonicalOut_next (canonical_withStore h _ _)

theorem canonicalOut_execRegisterWrite (a : Nat) (v : Word) : CanonicalOut (execRegisterWrite a v s) :=
  canonicalOut_ite (canonicalOut_next h) <| canonicalOut_ite (canonicalOut_withDev h _) <|
    canonicalOut_ite (canonicalOut_next h) <| canonicalOut_ite (canonicalOut_withDev h _) <|
      canonicalOut_ite (canonicalOut_next (canonical_withStore h _ _)) (canonicalOut_next h)

theorem canonicalOut_execBar2Access (w : Bool) (a len : Nat) (bytes : List Byte) :
    CanonicalOut (execBar2Access w a len bytes s) :=
  canonicalOut_ite (canonicalOut_next h) <| canonicalOut_ite (canonicalOut_withDev h _) <|
    canonicalOut_ite (canonicalOut_next (canonical_withStore h _ _)) (canonicalOut_withDev h _)

theorem canonicalOut_execProducerFrameReady (r : Nat) (fabric : List WordErr) :
    CanonicalOut (execProducerFrameReady r fabric s) := by
  have hr : (recomposeAll s).hbm.wf = true := recomposeAll_wf h
  unfold execProducerFrameReady
  dsimp only
  split
  · exact canonicalOut_next hr
  · exact canonicalOut_ite (canonicalOut_next (canonical_mk (writeFrame_wf r _ hr) _ _)) (canonicalOut_next hr)

theorem canonicalOut_execRetirementSystemCopyDone : CanonicalOut (execRetirementSystemCopyDone s) := by
  unfold execRetirementSystemCopyDone
  split
  · exact canonicalOut_ite (canonicalOut_next (canonical_mk (copyGranules_wf _ h) _ _)) (canonicalOut_next h)
  · exact canonicalOut_next h

/-- Whichever command runs: a host command writes by its own stores, the few commands that reach HBM otherwise have a law
each, and every other command changes the device alone. -/
theorem canonicalOut_exec (i : Instr) : CanonicalOut (exec i s) := by
  cases i with
  | timTbConfig _ | timTbEnable _ | timTbDisable _ | timRestep _ | timRead _ | timPortAsymmetry _ | refCandConfig _
  | refSelectManual _ | refSelectAuto _ | refLimits _ | refRealign _ | pulseConfig _ | pulseStop _ | pllBandTable _
  | pllRestore _ | laneOctMode _ | laneEnable _ | laneDisable _ | laneTxEq _ | laneRxEq _ | laneRove _ | laneStatusRead _
  | laneTest _ | laneRestart _ | sdiRxConfig _ | sdiRxDisable _ | sdiMultilink _ | sdiAncFilter _ | sdiAudioDeembed _
  | sdiTxConfig _ | sdiTxDisable _ | sdiAudioEmbed _ | sdiCsSet _ | sdiStatusRead _ | macPortConfig _ | macPortEnable _
  | macPortDisable _ | macQueueConfig _ | macQueueDisable _ | macFilter _ | macTxFrame _ | macRxFrame _ | macStatusRead _
  | flowPortIp _ | flowRxConfig _ | flowRxPath _ | flowRxEnable _ | flowRxDisable _ | flowRxDelete _ | flowTxConfig _
  | flowTxPath _ | flowTxEnable _ | flowTxDisable _ | flowRekey _ | flowStatusRead _ | memcRingConfig _ | memcRingRead _
  | memcAdmitReport _ | memcPcRetire _ | memcErrorConfig _ | memcScrubConfig _ | memcHolidayConfig _ | memcStatusRead _
  | memcWindow _ | routeIngressBind _ | routeIngressUnbind _ | routeTgConfig _ | routeEgressBind _ | routeEgressUnbind _
  | routeAlignGroup _ | routeTake _ | routeStatusRead _ | cnvConfig _ | cnvEnable _ | cnvDisable _ | cnvSubstitute _
  | cnvSpareAuto _ | cnvCoefLoad _ | cnvLutLoad _ | cnvStatusRead _ | outRasterConfig _ | outGlyphLoad _ | outMarker _
  | outPalette _ | outStatusRead _ | audConfig _ | audDepth _ | audCells _ | audCellsRead _ | audDestEnable _
  | audDestDisable _ | aprtAesIn _ | aprtAesOut _ | aprtTdm _ | aprtWclk _ | aprtDisable _ | audCsRead _ | aprtCsSet _
  | audStatusRead _ | mbxNop _ | regRead _ | regWrite _ | regRmw _ | xbrStatusRead _ | xbrQos _ | mbxEventConfig _
  | dbgChallenge _ | dbgUnlock _ | dbgLock _ | cfgBankOpen _ | cfgBankSeal _ | cfgBankCheck _ | cfgBankTruncate _
  | cfgBankAbandon _ | cfgBankRead _ | cfgSchedule _ | cfgCancel _ | cfgImageLoad _ | cfgImageSave _ | cfgSeasonStore _
  | cfgSeasonSwitch _ | cfgSalvoStore _ | cfgSalvoFire _ | cfgStatusRead _ | twnConfig _ | twnPair _ | twnUnpair _
  | twnHandover _ | twnStatusRead _ | twnHealthRead _ | twnEpochSet _ | fltStatusRead _ | fltClear _ | fltSeverity _
  | fltSourceRead _ | fltInject _ | fltWindow _ | rstBlock _ | rstRelease _ | rstDevice _ | rstStatusRead _ | monConfig _
  | monRead _ | devModeRequest _ | devRemove _ | devStatusRead _ | updBegin _ | updBlock _ | updVerify _ | updPlace _
  | updActivate _ | updCancel _ | updStatusRead _ => exact canonicalOut_next (canonical_hostCommand h ..)
  | regSnapshot r => exact canonicalOut_next (canonical_hostLater h ..)
  | fltAudit r => exact canonicalOut_next (canonical_hostLater h ..)
  | stagedRequest b op r => exact canonicalOut_ite (canonicalOut_next (canonical_hostStaged h ..)) (canonicalOut_next h)
  | mailboxRequestAccept n => exact canonicalOut_ite (canonicalOut_next (canonical_acceptRequest h n)) (canonicalOut_next h)
  | crossbarAccess t reqs => exact canonicalOut_execCrossbarAccess h t reqs
  | controlWindowAccess m w b len bytes => exact canonicalOut_execControlWindowAccess h m w b len bytes
  | debugWindowAccess w x v => exact canonicalOut_execDebugWindowAccess h w x v
  | registerWrite a v => exact canonicalOut_execRegisterWrite h a v
  | bar2Access w a len bytes => exact canonicalOut_execBar2Access h w a len bytes
  | hbmTrainingComplete failed => exact canonicalOut_ite (canonicalOut_next Mem.wf_nil) (canonicalOut_next h)
  | perbyStart => exact canonicalOut_ite (canonicalOut_next (canonical_mk (Mem.wf_foldl_write _ h) _ _)) (canonicalOut_next h)
  | retirementSystemCopyDone => exact canonicalOut_execRetirementSystemCopyDone h
  | producerFrameReady r fabric => exact canonicalOut_execProducerFrameReady h r fabric
  | converterPictureStart e j q buf =>
    exact canonicalOut_ite (canonicalOut_next (canonical_pictureAt h e j q buf)) (canonicalOut_next h)
  | burstComplete k errs fabric => exact canonicalOut_ite (canonicalOut_next (recomposeAll_wf h)) (canonicalOut_next h)
  | _ => exact canonicalOut_withDev h _

/-- On an empty queue, too: the cycle that passes changes the device alone. -/
theorem canonicalOut_step : CanonicalOut (step s) := by
  unfold step
  split
  · exact canonicalOut_withDev h _
  · next i rest _ => exact canonicalOut_exec (s := { s with pending := rest }) h i

end

/-- Settles O39, by the law of each command that `canonicalOut_exec` collects. -/
theorem stepKeepsCanonical : Obligations.StepKeepsCanonical := fun _ t h ht => canonicalOut_step h t ht

end Sys2Proof.Machine

/-! Where a slot's words lie (R230, R244). -/

namespace Sys2Proof.Machine

/-! ### The keyed permutation -/

theorem perm_swapAt {l : List Nat} {i j : Nat} (hi : i < l.length) (hj : j < l.length) : (swapAt l i j).Perm l := by
  simp only [swapAt, List.getD_eq_getElem, hi, hj]
  exact List.set_set_perm hi hj

theorem perm_permStep (key : BitVec 128) (r n : Nat) {pi : List Nat} {i : Nat} (hi : i < pi.length) :
    (permStep key r n pi i).Perm pi :=
  perm_swapAt hi (Nat.lt_of_le_of_lt (Nat.le_of_lt_succ (Nat.mod_lt _ i.succ_pos)) hi)

theorem perm_foldl_permStep (key : BitVec 128) (r n : Nat) (is : List Nat) :
    ∀ {pi : List Nat}, (∀ i ∈ is, i < pi.length) → (is.foldl (permStep key r n) pi).Perm pi := by
  induction is with
  | nil => exact fun _ => .rfl
  | cons i is ih =>
    intro pi h
    have hi := perm_permStep key r n (h i List.mem_cons_self)
    exact (ih fun k hk => hi.length_eq ▸ h k (List.mem_cons_of_mem i hk)).trans hi

theorem perm_permutation (key : BitVec 128) (r n : Nat) : (permutation key r n).Perm (List.range n) := by
  refine perm_foldl_permStep key r n _ fun i hi => ?_
  obtain ⟨k, hk, rfl⟩ := List.mem_map.1 hi
  rw [List.mem_range] at hk
  rw [List.length_range]
  omega

/-- The places of a layout's permutation hold the places of its set, each once. -/
theorem perm_layoutPi (r : Nat) (l : Layout) : (layoutPi r l).Perm (List.range l.set.length) := perm_permutation ..

/-! ### The parts of an address -/

/-- The pseudo-channel of granule `g` of a slot (R244). -/
def granulePc (l : Layout) (pi : List Nat) (g : Nat) : Nat := l.set.getD (pi.getD (g % l.set.length) 0) 0

/-- The place of granule `g` of slot `t` in the ring's area on its pseudo-channel (R244). -/
def granuleNo (l : Layout) (t g : Nat) : Nat := t * layoutQ l + g / l.set.length

/-- The granule of a pseudo-channel at place `a` of a ring's area (R230). -/
def areaGranule (l : Layout) (a : Nat) : Nat := 64 * l.extents.getD (a / 64) 0 + a % 64

theorem slotAddr_eq (l : Layout) (pi : List Nat) (t w : Nat) : slotAddr l pi t w =
    granulePc l pi (w / 64) * 2 ^ 30 + areaGranule l (granuleNo l t (w / 64)) * 2048 + w % 64 * 32 := rfl

theorem areaGranule_lt {l : Layout} (hx : ∀ x ∈ l.extents, x < 8192) (a : Nat) : areaGranule l a < 524288 := by
  have he : l.extents.getD (a / 64) 0 < 8192 := by
    by_cases h : a / 64 < l.extents.length
    · rw [List.getD_eq_getElem _ _ h]
      exact hx _ (List.getElem_mem h)
    · rw [List.getD_eq_default _ _ (Nat.le_of_not_lt h)]
      decide
  unfold areaGranule
  omega

theorem slotAddr_div {l : Layout} (hx : ∀ x ∈ l.extents, x < 8192) (pi : List Nat) (t w : Nat) :
    slotAddr l pi t w / 2 ^ 30 = granulePc l pi (w / 64) := by
  have ha := areaGranule_lt hx (granuleNo l t (w / 64))
  rw [slotAddr_eq]
  omega

/-- Words at one address lie on one pseudo-channel, in one granule of it and at one place of the granule. -/
theorem slotAddr_parts {l : Layout} (hx : ∀ x ∈ l.extents, x < 8192) {pi : List Nat} {t u w v : Nat}
    (h : slotAddr l pi t w = slotAddr l pi u v) :
    granulePc l pi (w / 64) = granulePc l pi (v / 64)
      ∧ areaGranule l (granuleNo l t (w / 64)) = areaGranule l (granuleNo l u (v / 64)) ∧ w % 64 = v % 64 := by
  have hw := areaGranule_lt hx (granuleNo l t (w / 64))
  have hv := areaGranule_lt hx (granuleNo l u (v / 64))
  rw [slotAddr_eq, slotAddr_eq] at h
  omega

/-- Granules of a slot on one pseudo-channel are the same place of the shuffle. -/
theorem mod_eq_of_granulePc_eq {l : Layout} (hn : l.set.Nodup) (hl : 0 < l.set.length) {r g k : Nat}
    (h : granulePc l (layoutPi r l) g = granulePc l (layoutPi r l) k) : g % l.set.length = k % l.set.length := by
  have hp := perm_layoutPi r l
  have hlen : (layoutPi r l).length = l.set.length := by simpa using hp.length_eq
  have hlt (a : Nat) : a % l.set.length < (layoutPi r l).length := by rw [hlen]; exact Nat.mod_lt a hl
  have hmem (a : Nat) : (layoutPi r l).getD (a % l.set.length) 0 < l.set.length := by
    rw [List.getD_eq_getElem _ _ (hlt a), ← List.mem_range, ← hp.mem_iff]
    exact List.getElem_mem _
  have hpi := (List.getD_inj (hmem g) (hmem k) hn).1 h
  exact (List.getD_inj (hlt g) (hlt k) (hp.nodup_iff.2 List.nodup_range)).1 hpi

/-- Extents that differ hold different granules. -/
theorem areaGranule_inj {l : Layout} (hn : l.extents.Nodup) {a b : Nat} (ha : a < 64 * l.extents.length)
    (hb : b < 64 * l.extents.length) (h : areaGranule l a = areaGranule l b) : a = b := by
  unfold areaGranule at h
  have hext : a / 64 = b / 64 := (List.getD_inj (fallback := 0) (by omega) (by omega) hn).1 (by omega)
  omega

theorem le_layoutQ_mul (l : Layout) (hl : 0 < l.set.length) : l.g ≤ l.set.length * layoutQ l := by
  have h := Nat.lt_mul_div_succ (l.g + l.set.length - 1) hl
  rw [layoutQ, ceilDiv, if_neg (Nat.ne_of_gt hl)]
  rw [Nat.mul_add] at h
  omega

/-- A slot's granules take q places or fewer of each pseudo-channel. -/
theorem div_lt_layoutQ {l : Layout} (hl : 0 < l.set.length) {g : Nat} (hg : g < l.g) : g / l.set.length < layoutQ l :=
  Nat.div_lt_of_lt_mul (Nat.lt_of_lt_of_le hg (le_layoutQ_mul l hl))

theorem granuleNo_lt {l : Layout} (hl : 0 < l.set.length) {t g : Nat} (ht : t < l.depth) (hg : g < l.g) :
    granuleNo l t g < l.depth * layoutQ l :=
  calc t * layoutQ l + g / l.set.length
    _ < t * layoutQ l + layoutQ l := Nat.add_lt_add_left (div_lt_layoutQ hl hg) _
    _ = (t + 1) * layoutQ l := (Nat.succ_mul t _).symm
    _ ≤ l.depth * layoutQ l := Nat.mul_le_mul_right _ ht

/-- Places of a ring's area that are one are of one slot, and of one row of its granules. -/
theorem granuleNo_inj {l : Layout} (hl : 0 < l.set.length) {t u g k : Nat} (hg : g < l.g) (hk : k < l.g)
    (h : granuleNo l t g = granuleNo l u k) : t = u ∧ g / l.set.length = k / l.set.length := by
  have hg' := div_lt_layoutQ hl hg
  have hk' := div_lt_layoutQ hl hk
  have hq : 0 < layoutQ l := Nat.zero_lt_of_lt hg'
  unfold granuleNo at h
  have hd := congrArg (· / layoutQ l) h
  have hm := congrArg (· % layoutQ l) h
  simp only [Nat.mul_comm _ (layoutQ l), Nat.mul_add_div hq, Nat.div_eq_of_lt hg', Nat.div_eq_of_lt hk',
    Nat.mul_add_mod, Nat.mod_eq_of_lt hg', Nat.mod_eq_of_lt hk'] at hd hm
  exact ⟨hd, hm⟩

/-! ### No two words of a ring share an address -/

/-- Two of N consecutive granules of a slot are not at one place of the shuffle. -/
theorem add_mod_ne {n i j : Nat} (g : Nat) (hij : i < j) (hj : j < n) : (g + i) % n ≠ (g + j) % n := by
  intro h
  have hm : i % n = j % n := Nat.ModEq.add_left_cancel' g h
  rw [Nat.mod_eq_of_lt (hij.trans hj), Nat.mod_eq_of_lt hj] at hm
  exact Nat.ne_of_lt hij hm

theorem slotAddr_inj {l : Layout} {r t u w v : Nat} (hs : l.set.Nodup) (he : l.extents.Nodup)
    (hx : ∀ x ∈ l.extents, x < 8192) (hl : 0 < l.set.length) (harea : l.depth * layoutQ l ≤ 64 * l.extents.length)
    (ht : t < l.depth) (hu : u < l.depth) (hw : w < 64 * l.g) (hv : v < 64 * l.g)
    (h : slotAddr l (layoutPi r l) t w = slotAddr l (layoutPi r l) u v) : t = u ∧ w = v := by
  obtain ⟨hpc, hgran, hword⟩ := slotAddr_parts hx h
  have hwg : w / 64 < l.g := Nat.div_lt_of_lt_mul hw
  have hvg : v / 64 < l.g := Nat.div_lt_of_lt_mul hv
  have hno := areaGranule_inj he ((granuleNo_lt hl ht hwg).trans_le harea) ((granuleNo_lt hl hu hvg).trans_le harea) hgran
  obtain ⟨htu, hrow⟩ := granuleNo_inj hl hwg hvg hno
  have hg : w / 64 = v / 64 := by
    rw [← Nat.div_add_mod (w / 64) l.set.length, hrow, mod_eq_of_granulePc_eq hs hl hpc, Nat.div_add_mod]
  exact ⟨htu, by rw [← Nat.div_add_mod w 64, hg, hword, Nat.div_add_mod]⟩

/-- Settles O44: the shuffle exchanges places of 0 … N − 1, so that it is injective; an address is split back into its
pseudo-channel, its granule and its word, and each of these into what it was made of. -/
theorem keyedPlacement : Obligations.KeyedPlacement := by
  refine ⟨perm_permutation, fun r t g i j l hs hx hij hj h => ?_,
    fun r t u w v l hs he hx hl harea ht hu hw hv h => slotAddr_inj hs he hx hl harea ht hu hw hv h⟩
  rw [slotAddr_div hx, slotAddr_div hx, Nat.mul_div_cancel_left _ (by decide), Nat.mul_div_cancel_left _ (by decide)] at h
  exact add_mod_ne g hij hj (mod_eq_of_granulePc_eq hs (Nat.zero_lt_of_lt hj) h)

end Sys2Proof.Machine

/-! Words of samples (R238) and of ledger entries (R467). -/

namespace Sys2Proof.Machine

open Sys2Proof.Safety

/-! ### Words of samples -/

/-- The number that the codes of a word spell, `b` bits each. -/
def packedCodes (b : Nat) (codes : List Nat) : Nat := codes.foldr (fun c n => c % 2 ^ b + 2 ^ b * n) 0

theorem packWord_eq (b : Nat) (codes : List Nat) : packWord b codes = le 32 (packedCodes b codes) := rfl

theorem packedCodes_cons (b c : Nat) (codes : List Nat) :
    packedCodes b (c :: codes) = c % 2 ^ b + 2 ^ b * packedCodes b codes := rfl

theorem length_packWord (b : Nat) (codes : List Nat) : (packWord b codes).length = 32 := length_le 32 _

theorem packedCodes_lt (b : Nat) (codes : List Nat) : packedCodes b codes < 2 ^ (b * codes.length) := by
  induction codes with
  | nil => exact Nat.one_pos
  | cons c codes ih =>
    rw [packedCodes_cons, List.length_cons, Nat.mul_succ, Nat.pow_add']
    calc c % 2 ^ b + 2 ^ b * packedCodes b codes
      _ < 2 ^ b + 2 ^ b * packedCodes b codes := Nat.add_lt_add_right (Nat.mod_lt c (Nat.two_pow_pos b)) _
      _ = 2 ^ b * (packedCodes b codes + 1) := by rw [Nat.mul_succ, Nat.add_comm]
      _ ≤ 2 ^ b * 2 ^ (b * codes.length) := Nat.mul_le_mul_left _ ih

/-- The code at each place of the number is the list's, modulo 2^b. -/
theorem packedCodes_div_mod (b : Nat) (codes : List Nat) :
    ∀ (i : Nat) (h : i < codes.length), packedCodes b codes / 2 ^ (b * i) % 2 ^ b = codes[i] % 2 ^ b := by
  induction codes with
  | nil => exact fun i h => absurd h i.not_lt_zero
  | cons c codes ih =>
    intro i h
    rw [packedCodes_cons]
    cases i with
    | zero => rw [Nat.mul_zero, Nat.pow_zero, Nat.div_one, Nat.add_mul_mod_self_left, Nat.mod_mod]; rfl
    | succ i =>
      rw [Nat.mul_succ, Nat.pow_add', ← Nat.div_div_eq_div_mul, Nat.add_mul_div_left _ _ (Nat.two_pow_pos b),
        Nat.div_eq_of_lt (Nat.mod_lt c (Nat.two_pow_pos b)), Nat.zero_add]
      exact ih i (Nat.lt_of_succ_lt_succ h)

/-- Codes that fill 256 bits or fewer are the word's number, whole. -/
theorem leNat_packWord {b : Nat} {codes : List Nat} (h : b * codes.length ≤ 256) :
    leNat (packWord b codes) = packedCodes b codes := by
  rw [packWord_eq, leNat_le]
  exact Nat.mod_eq_of_lt ((packedCodes_lt b codes).trans_le (Nat.pow_le_pow_right Nat.two_pos h))

theorem unpackWord_packWord {b : Nat} {codes : List Nat} (h : b * codes.length ≤ 256) :
    unpackWord b codes.length (packWord b codes) = codes.map (· % 2 ^ b) := by
  unfold unpackWord
  rw [leNat_packWord h]
  refine List.ext_getElem (by simp) fun i hi _ => ?_
  rw [List.length_map, List.length_range] at hi
  simpa using packedCodes_div_mod b codes i hi

/-! ### The words of ledger entries -/

/-- The lowest `k` bits of a number are 0. -/
def LowZero (k a : Nat) : Prop := 2 ^ k ∣ a

@[simp] theorem lowZero_fld (v w : Nat) {k lo : Nat} (h : k ≤ lo) : LowZero k (fld v lo w) :=
  Dvd.dvd.mul_left (Nat.pow_dvd_pow 2 h) _

@[simp] theorem lowZero_add_fld (a v w : Nat) {k lo : Nat} (h : k ≤ lo) : LowZero k (a + fld v lo w) ↔ LowZero k a :=
  (Nat.dvd_add_iff_left (lowZero_fld v w h)).symm

theorem fld_lt (v lo w : Nat) : fld v lo w < 2 ^ (lo + w) := by
  rw [fld, Nat.pow_add']
  exact Nat.mul_lt_mul_of_pos_right (Nat.mod_lt v (Nat.two_pow_pos w)) (Nat.two_pow_pos lo)

theorem fld_div (v lo w : Nat) : fld v lo w / 2 ^ lo = v % 2 ^ w := Nat.mul_div_cancel _ (Nat.two_pow_pos lo)

/-- The `n` bits of a number from bit `lo`. -/
def fieldAt (v lo n : Nat) : Nat := v / 2 ^ lo % 2 ^ n

@[simp] theorem fieldAt_fld (v lo w : Nat) : fieldAt (fld v lo w) lo w = v % 2 ^ w := by
  rw [fieldAt, fld_div, Nat.mod_mod]

/-- The lowest field of a sum of fields. -/
@[simp] theorem fieldAt_add_fld_same {a lo w : Nat} (v : Nat) (h : LowZero (lo + w) a) :
    fieldAt (a + fld v lo w) lo w = v % 2 ^ w := by
  obtain ⟨b, rfl⟩ := h
  rw [fieldAt, Nat.pow_add, Nat.mul_assoc, Nat.mul_add_div (Nat.two_pow_pos lo), fld_div, Nat.mul_add_mod, Nat.mod_mod]

/-- A field above the lowest of a sum of fields. -/
@[simp] theorem fieldAt_add_fld_above {a lo w k : Nat} (v n : Nat) (h : LowZero (lo + w) a) (hk : lo + w ≤ k) :
    fieldAt (a + fld v lo w) k n = fieldAt a k n := by
  obtain ⟨b, rfl⟩ := h
  obtain ⟨j, rfl⟩ := Nat.exists_eq_add_of_le hk
  simp only [fieldAt, Nat.pow_add 2 (lo + w) j, ← Nat.div_div_eq_div_mul, Nat.mul_add_div (Nat.two_pow_pos _),
    Nat.div_eq_of_lt (fld_lt v lo w), Nat.mul_div_cancel_left _ (Nat.two_pow_pos _), Nat.add_zero]

/-- A field of a word is the field of the number that the word was made of. -/
theorem toNat_extractLsb'_ofNat (v : Nat) {lo n : Nat} (h : lo + n ≤ 256) :
    ((BitVec.ofNat 256 v).extractLsb' lo n).toNat = fieldAt v lo n := by
  obtain ⟨j, hj⟩ := Nat.exists_eq_add_of_le h
  rw [BitVec.extractLsb'_toNat, BitVec.toNat_ofNat, Nat.shiftRight_eq_div_pow, fieldAt, hj, Nat.add_assoc,
    Nat.pow_add 2 lo, Nat.mod_mul_right_div_self, Nat.pow_add, Nat.mod_mul_right_mod]

theorem toInt_of_toNat_eq_twos {w : BitVec 32} {i : Int} (h : w.toNat = twos 32 i) (hlo : -2 ^ 31 ≤ i)
    (hhi : i < 2 ^ 31) : w.toInt = i := by
  rw [BitVec.toInt_eq_toNat_cond, h, twos]
  split <;> omega

@[simp] theorem twos_mod (i : Int) : twos 32 i % 4294967296 = twos 32 i := by
  rw [twos]
  omega

@[simp] theorem b2n_mod_two (b : Bool) : b2n b % 2 = b2n b := by cases b <;> rfl

@[simp] theorem b2n_eq_one (b : Bool) : b2n b = 1 ↔ b = true := by cases b <;> decide

/-- The signed field of a route's entry. -/
theorem toInt_extractLsb'_route (slot k start : Nat) (take hold : Bool) {dly : Int} (hlo : -2 ^ 31 ≤ dly)
    (hhi : dly < 2 ^ 31) :
    ((ledgerWord (.route slot k start take hold dly)).extractLsb' 111 32).toInt = dly := by
  refine toInt_of_toNat_eq_twos ?_ hlo hhi
  simp only [ledgerWord, toNat_extractLsb'_ofNat, Nat.reduceAdd, Nat.reduceLeDiff]
  simp

/-- A payload word of type 1 holds a route's entry. -/
theorem ledgerOf_of_type_route {w : BitVec 256} (h : (w.extractLsb' 252 4).toNat = 1) :
    ledgerOf w = some (.route (w.extractLsb' 241 11).toNat (w.extractLsb' 193 48).toNat (w.extractLsb' 145 48).toNat
      (decide ((w.extractLsb' 144 1).toNat = 1)) (decide ((w.extractLsb' 143 1).toNat = 1)) (w.extractLsb' 111 32).toInt) := by
  simp only [ledgerOf, h]

/-- The entry of a payload word is the entry that was packed, its fields fitting their widths (R467). -/
theorem ledgerOf_ledgerWord (x : LedgerEntry) (h : ledgerFits x) : ledgerOf (ledgerWord x) = some x := by
  cases x with
  | route slot k start take hold dly =>
    obtain ⟨hslot, hk, hstart, hlo, hhi⟩ := h
    have htype : ((ledgerWord (.route slot k start take hold dly)).extractLsb' 252 4).toNat = 1 := by
      simp only [ledgerWord, toNat_extractLsb'_ofNat, Nat.reduceAdd, Nat.reduceLeDiff]
      simp
    rw [ledgerOf_of_type_route htype, toInt_extractLsb'_route slot k start take hold hlo hhi]
    simp only [ledgerWord, toNat_extractLsb'_ofNat, Nat.reduceAdd, Nat.reduceLeDiff]
    simpa [Nat.mod_eq_of_lt] using And.intro hslot (And.intro hk hstart)
  | converter e j q sa sb w corr none_ =>
    simp only [ledgerOf, ledgerWord, toNat_extractLsb'_ofNat, Nat.reduceAdd, Nat.reduceLeDiff]
    simpa [ledgerFits, Nat.mod_eq_of_lt] using h
  | alignment kind id index =>
    simp only [ledgerOf, ledgerWord, toNat_extractLsb'_ofNat, Nat.reduceAdd, Nat.reduceLeDiff]
    simpa [ledgerFits, Nat.mod_eq_of_lt] using h
  | rateConverter c n ratio phase =>
    simp only [ledgerOf, ledgerWord, toNat_extractLsb'_ofNat, Nat.reduceAdd, Nat.reduceLeDiff]
    simpa [ledgerFits, Nat.mod_eq_of_lt] using h

/-- Settles O42, by induction on the codes of a word, and field by field of an entry of each type. -/
theorem pictureWords : Obligations.PictureWords :=
  ⟨fun b _ codes hn h => by
    subst hn
    exact ⟨length_packWord b codes, unpackWord_packWord h⟩, ledgerOf_ledgerWord⟩

end Sys2Proof.Machine

/-! What the operations that store in HBM leave unchanged: pictures (R237 to R240), and the staging region (R396). -/

namespace Sys2Proof.Machine

open Sys2Proof.Safety

/-! ### Stores within a set of addresses -/

/-- An operation on canonical memory that changes only the bytes at addresses of which `p` holds. -/
def StoresWithin (p : Nat → Prop) (f : Mem → Mem) : Prop :=
  ∀ m, m.wf = true → (f m).wf = true ∧ ∀ a, ¬ p a → Mem.read (f m) a = Mem.read m a

theorem storesWithin_id (p : Nat → Prop) : StoresWithin p fun m => m := fun _ h => ⟨h, fun _ _ => rfl⟩

theorem storesWithin_comp {p : Nat → Prop} {f g : Mem → Mem} (hg : StoresWithin p g) (hf : StoresWithin p f) :
    StoresWithin p fun m => g (f m) := fun m h => by
  obtain ⟨hfm, hfread⟩ := hf m h
  obtain ⟨hgm, hgread⟩ := hg (f m) hfm
  exact ⟨hgm, fun a ha => (hgread a ha).trans (hfread a ha)⟩

theorem storesWithin_foldl {α : Type} {p : Nat → Prop} {f : Mem → α → Mem} (l : List α)
    (hf : ∀ x ∈ l, StoresWithin p fun m => f m x) : StoresWithin p fun m => l.foldl f m := by
  induction l with
  | nil => exact storesWithin_id p
  | cons x l ih =>
    exact storesWithin_comp (ih fun y hy => hf y (List.mem_cons_of_mem x hy)) (hf x List.mem_cons_self)

theorem storesWithin_write {p : Nat → Prop} {a : Nat} (b : Byte) (ha : p a) : StoresWithin p fun m => Mem.write m a b :=
  fun m h => ⟨Mem.wf_write h a b, fun c hc => by
    have hca : c ≠ a := fun hca => hc (hca ▸ ha)
    rw [Mem.read_write h, if_neg hca]⟩

theorem storesWithin_writeN {p : Nat → Prop} (bytes : List Byte) :
    ∀ {a : Nat}, (∀ c, a ≤ c → c < a + bytes.length → p c) → StoresWithin p fun m => Mem.writeN m a bytes := by
  induction bytes with
  | nil => exact fun _ => storesWithin_id p
  | cons b bytes ih =>
    intro a h
    rw [List.length_cons] at h
    exact storesWithin_comp (ih fun c hac hc => h c (by omega) (by omega)) (storesWithin_write b (h a (by omega) (by omega)))

/-! ### The words of a slot -/

/-- Words of a slot: those of its planes and of its ancillary area (R237). -/
def slotWords (x : Stream) (s : Slot) : Nat := planeWord x (slotPlanes x).length + 64 * (slotLayout x s).anc * x.n

/-- The address of a word of a slot of ring `r`. -/
def wordAddr (r : Nat) (x : Stream) (s : Slot) (w : Nat) : Nat :=
  slotAddr (slotLayout x s) (layoutPi r (slotLayout x s)) s.index w

theorem storesWithin_word (r : Nat) {x : Stream} {s : Slot} {w : Nat} {bytes : List Byte} (hw : w < slotWords x s)
    (hb : bytes.length = 32) : StoresWithin (inSlot r x s) fun m => Mem.writeN m (wordAddr r x s w) bytes :=
  storesWithin_writeN bytes fun _ hlo hhi => ⟨w, hw, hlo, hb ▸ hhi⟩

/-- A row of a plane is stored within the plane (R239). -/
theorem storedRow_lt (f : Nat) {h y : Nat} (hy : y < h) : storedRow f h y < h := by
  unfold storedRow
  split_ifs <;> omega

theorem ceilDiv_mono {a b : Nat} (n : Nat) (h : a ≤ b) : ceilDiv a n ≤ ceilDiv b n := by
  unfold ceilDiv
  split
  · exact Nat.le_refl 0
  · exact Nat.div_le_div_right (by omega)

theorem le_mul_ceilDiv (a : Nat) : a ≤ 64 * ceilDiv a 64 := by
  rw [ceilDiv, if_neg (by decide)]
  omega

/-- Granules of a plane of `q.1` samples a line and `q.2` lines (R238). -/
def planeGranules (sampling : Nat) (q : Nat × Nat) : Nat := ceilDiv (linePitch sampling q.1 * q.2) 64

theorem planeWord_eq (x : Stream) (p : Nat) :
    planeWord x p = 64 * (((slotPlanes x).take p).map (planeGranules x.sampling)).sum := rfl

/-- A plane's words end where its granules end, and all planes where the last one ends. -/
theorem planeWord_add_le (x : Stream) {p w h : Nat} (hp : (slotPlanes x)[p]? = some (w, h)) :
    planeWord x p + linePitch x.sampling w * h ≤ planeWord x (slotPlanes x).length := by
  obtain ⟨hlt, hwh⟩ := List.getElem?_eq_some_iff.1 hp
  have hsplit : ((slotPlanes x).map (planeGranules x.sampling)).sum
      = (((slotPlanes x).take p).map (planeGranules x.sampling)).sum
        + (planeGranules x.sampling (w, h) + (((slotPlanes x).drop (p + 1)).map (planeGranules x.sampling)).sum) := by
    conv_lhs => rw [← List.take_append_drop p (slotPlanes x), List.drop_eq_getElem_cons hlt, hwh]
    rw [List.map_append, List.sum_append, List.map_cons, List.sum_cons]
  have hg : linePitch x.sampling w * h ≤ 64 * planeGranules x.sampling (w, h) := le_mul_ceilDiv _
  rw [planeWord_eq, planeWord_eq, List.take_length, hsplit]
  omega

theorem slotPlanes_getElem? {x : Stream} {p w h y : Nat} (hp : (slotPlanes x).getD p (0, 0) = (w, h)) (hy : y < h) :
    (slotPlanes x)[p]? = some (w, h) := by
  rw [List.getD_eq_getElem?_getD] at hp
  cases ho : (slotPlanes x)[p]? with
  | none =>
    rw [ho] at hp
    obtain ⟨-, rfl⟩ := Prod.mk.inj hp
    exact absurd hy y.not_lt_zero
  | some q =>
    rw [ho] at hp
    exact congrArg some hp

/-- The words of a row lie in the slot. -/
theorem rowWord_lt {x : Stream} (s : Slot) {p w h y k len : Nat} (hp : (slotPlanes x).getD p (0, 0) = (w, h)) (hy : y < h)
    (hlen : len ≤ w) (hk : k < ceilDiv len (wordSamples x.sampling)) :
    planeWord x p + storedRow x.format h y * linePitch x.sampling w + k < slotWords x s := by
  have hplane := planeWord_add_le x (slotPlanes_getElem? hp hy)
  have hkw : k < linePitch x.sampling w := hk.trans_le (ceilDiv_mono _ hlen)
  have hrow : storedRow x.format h y * linePitch x.sampling w + k < linePitch x.sampling w * h :=
    calc storedRow x.format h y * linePitch x.sampling w + k
      _ < storedRow x.format h y * linePitch x.sampling w + linePitch x.sampling w := Nat.add_lt_add_left hkw _
      _ = (storedRow x.format h y + 1) * linePitch x.sampling w := (Nat.succ_mul _ _).symm
      _ ≤ h * linePitch x.sampling w := Nat.mul_le_mul_right _ (storedRow_lt _ hy)
      _ = linePitch x.sampling w * h := Nat.mul_comm ..
  unfold slotWords
  omega

theorem storesWithin_writeRow (r : Nat) (x : Stream) (s : Slot) (p y : Nat) (row : List Nat) :
    StoresWithin (inSlot r x s) (writeRow r x s p y row) := by
  unfold writeRow
  generalize hp : (slotPlanes x).getD p (0, 0) = q
  obtain ⟨w, h⟩ := q
  dsimp only
  split
  · exact storesWithin_id _
  · next hy =>
    refine storesWithin_foldl _ fun k hk => storesWithin_word r ?_ (length_packWord _ _)
    exact rowWord_lt s hp (Nat.lt_of_not_le hy) (List.length_take_le w row) (List.mem_range.1 hk)

theorem storesWithin_writePicture (r : Nat) (x : Stream) (s : Slot) (pic : Planes) :
    StoresWithin (inSlot r x s) (writePicture r x s pic) :=
  storesWithin_foldl _ fun p _ => storesWithin_foldl _ fun row _ => storesWithin_writeRow r x s p.2 row.2 row.1

/-- The ancillary area holds whole words, as many as it has room for. -/
theorem ancArea_mem {ps : List AncPacket} {room : Nat} {w : List Byte} (h : w ∈ ancArea ps room) : w.length = 32 := by
  have hwords : ∀ v ∈ ps.flatMap fun p => le 32 (ancHeader p) ::
      (List.range (ceilDiv p.udw.length 24)).map fun k => packWord 10 ((p.udw.drop (24 * k)).take 24), v.length = 32 := by
    intro v hv
    obtain ⟨p, -, hv⟩ := List.mem_flatMap.1 hv
    rcases List.mem_cons.1 hv with rfl | hv
    · exact length_le 32 _
    · obtain ⟨k, -, rfl⟩ := List.mem_map.1 hv
      exact length_packWord ..
  unfold ancArea at h
  dsimp only at h
  split at h
  · rcases List.mem_append.1 h with h | h
    · exact hwords w h
    · rw [List.mem_singleton.1 h]
      exact length_le 32 _
  · exact hwords w (List.mem_of_mem_take h)

theorem length_ancArea_le (ps : List AncPacket) (room : Nat) : (ancArea ps room).length ≤ room := by
  unfold ancArea
  dsimp only
  split
  · next h =>
    rw [List.length_append]
    exact h
  · exact List.length_take_le ..

theorem storesWithin_writeAnc (r : Nat) (x : Stream) (s : Slot) : StoresWithin (inSlot r x s) (writeAnc r x s) := by
  refine storesWithin_foldl _ fun w hw => storesWithin_word r ?_ (ancArea_mem (List.fst_mem_of_mem_zipIdx hw))
  have hlt := (List.snd_lt_of_mem_zipIdx hw).trans_le (length_ancArea_le s.anc _)
  exact Nat.add_lt_add_left hlt _

/-! ### Producers' frames and composed pictures -/

theorem storesWithin_writeFrame {r n : Nat} {x : Slot} {d : Dev} (hn : writingFrame r false d = some n)
    (hx : slotOf (stream r d) n = some x) : StoresWithin (inSlot r (stream r d) x) (writeFrame r d) := by
  have hslot : (writingFrame r false d).bind (slotOf (stream r d)) = some x := by rw [hn]; exact hx
  unfold writeFrame
  dsimp only
  rw [hslot]
  refine storesWithin_comp (storesWithin_writeAnc r _ x) ?_
  split
  · exact storesWithin_id _
  · exact storesWithin_writePicture r _ x _

theorem storesWithin_putPicture {e j r n : Nat} {x : Slot} {d : Dev} (q : Nat) (pic : Planes)
    (hf : ((engine e d).frames.find? fun f => decide (f.1 = j)) = some (j, r, n)) (hx : slotOf (stream r d) n = some x) :
    StoresWithin (inSlot r (stream r d) x) (putPicture e j q pic d) := by
  unfold putPicture
  rw [hf]
  dsimp only
  rw [hx]
  exact storesWithin_foldl _ fun p _ => storesWithin_foldl _ fun row _ => storesWithin_writeRow r _ x p.2 _ row.1

theorem execProducerFrameReady_hbm {r n : Nat} (fabric : List WordErr) {s : State}
    (hn : writingFrame r false (recomposeAll s).dev = some n) (hw : writeEnds r (recomposeAll s).dev = true) :
    ∃ t, execProducerFrameReady r fabric s = .next t ∧ t.hbm = writeFrame r (recomposeAll s).dev (recomposeAll s).hbm := by
  unfold execProducerFrameReady
  dsimp only
  rw [hn]
  exact ⟨_, if_pos hw, rfl⟩

/-- An engine that composes its picture again writes it where it wrote it before. -/
theorem recompose_read {e j r n : Nat} {x : Slot} {s : State} (hs : Canonical s) (hj : (engine e s.dev).lastJ = some j)
    (hf : ((engine e s.dev).frames.find? fun f => decide (f.1 = j)) = some (j, r, n))
    (hx : slotOf (stream r s.dev) n = some x) {a : Nat} (ha : ¬ inSlot r (stream r s.dev) x a) :
    Mem.read (recompose e s).hbm a = Mem.read s.hbm a := by
  unfold recompose
  dsimp only
  rw [hj]
  dsimp only
  split
  · rfl
  · exact (storesWithin_putPicture _ _ hf hx _ hs).2 a ha

/-- Settles O43: every word that the stores name lies in a plane of the slot or in its ancillary area. -/
theorem pictureStores : Obligations.PictureStores := by
  refine ⟨fun r n fabric x s hu hn hw hx => ?_,
    fun e j q r n x s hs hf hx a ha => (storesWithin_putPicture q _ hf hx _ hs).2 a ha,
    fun e j r n x s hs hj hf hx a ha => recompose_read hs hj hf hx ha⟩
  obtain ⟨t, ht, hhbm⟩ := execProducerFrameReady_hbm fabric hn hw
  exact ⟨t, ht, fun a ha => hhbm ▸ (storesWithin_writeFrame hn hx _ hu).2 a ha⟩

end Sys2Proof.Machine

/-! The staging region through BAR2 (R234, R396, R397). -/

namespace Sys2Proof.Machine

open Sys2Proof.Safety

/-- The bytes that a write of BAR2 stores in HBM: those whose pseudo-channel answers (log entry 52). -/
def stagingStores (a : Nat) (bytes : List Byte) (d : Dev) : List (Nat × Byte) :=
  ((List.range bytes.length).zip bytes).filterMap fun b =>
    if pcBad (pc (sysAddr (a + b.1) d / 2 ^ 30) d) then none else some (sysAddr (a + b.1) d, b.2)

section
variable {a len : Nat} {bytes : List Byte} {s : State} (hlink : s.dev.host.linkUp = true)
  (hready : s.dev.host.bar2Ready = true)
include hlink hready

theorem execBar2Access_write (ha : a + bytes.length ≤ stagingBytes) : execBar2Access true a len bytes s =
    .next (withStore (bar2Write a bytes.length s.dev) (stagingStores a bytes s.dev) s) := by
  simp [execBar2Access, hlink, hready, Nat.not_lt.2 ha, stagingStores]

theorem execBar2Access_read (ha : a + len ≤ stagingBytes) :
    execBar2Access false a len bytes s = .next (withDev s (bar2Read a len s.hbm s.dev)) := by
  simp [execBar2Access, hlink, hready, Nat.not_lt.2 ha, withDev]

end

/-- Each byte stored stands at the address of a byte that the write names. -/
theorem stagingStores_addr {a : Nat} {bytes : List Byte} {d : Dev} {b : Nat × Byte} (h : b ∈ stagingStores a bytes d) :
    ∃ i, i < bytes.length ∧ b.1 = sysAddr (a + i) d := by
  obtain ⟨c, hc, hb⟩ := List.mem_filterMap.1 h
  have hi : c.1 < bytes.length := List.mem_range.1 (List.of_mem_zip (a := c.1) (b := c.2) hc).1
  split at hb
  · cases hb
  · exact ⟨c.1, hi, (congrArg Prod.fst (Option.some.inj hb)).symm⟩

theorem stagingStores_one {a : Nat} (b : Byte) {d : Dev} (h : pcBad (pc (sysAddr a d / 2 ^ 30) d) = false) :
    stagingStores a [b] d = [(sysAddr a d, b)] := by
  simp only [stagingStores, List.length_singleton, List.range_one, List.zip_cons_cons, List.zip_nil_right,
    List.filterMap_cons, List.filterMap_nil, Nat.add_zero, h, Bool.false_eq_true, if_false]

theorem storesWithin_staging (a : Nat) (bytes : List Byte) (d : Dev) :
    StoresWithin (fun c => ∃ i, i < bytes.length ∧ c = sysAddr (a + i) d)
      fun m => (stagingStores a bytes d).foldl (fun m b => Mem.write m b.1 b.2) m :=
  storesWithin_foldl _ fun b hb => storesWithin_write b.2 (stagingStores_addr hb)

/-- A read whose words are good completes, and returns the region's bytes. -/
theorem bar2Read_good {a len : Nat} {m : Mem} {d : Dev} (h : ∀ w ∈ stagingWords a len d, wordBad w.1 w.2.1 d = false) :
    (bar2Read a len m d).host.completion = 0 ∧ (bar2Read a len m d).host.bytes = stagingRead m d a len := by
  have hgood : (stagingWords a len d).filter (fun w => wordBad w.1 w.2.1 d) = [] :=
    List.filter_eq_nil_iff.2 fun w hw => by simp [h w hw]
  simp [bar2Read, hgood, stagingRead]

/-- Settles O41: a write stores byte by byte at the addresses of the bytes that it names, and a read stores nothing. -/
theorem stagingAccess : Obligations.StagingAccess := by
  intro a len bytes s hlink hready
  refine ⟨fun hs ha => ⟨_, execBar2Access_write hlink hready ha, fun x hx => ?_, fun b hb hgood => ?_⟩,
    fun ha hgood => ⟨_, execBar2Access_read hlink hready ha, withDev_hbm .., bar2Read_good hgood⟩⟩
  · exact (storesWithin_staging a bytes s.dev s.hbm hs).2 x fun ⟨i, hi, hxi⟩ => hx i hi hxi
  · subst hb
    rw [withStore_hbm, stagingStores_one b hgood]
    simp [Mem.read_write hs]

end Sys2Proof.Machine

/-! The commands and events of the frame store (chapter 7). -/

namespace Sys2Proof.Machine

open Sys2Proof.Safety

/-! ### The commands of family 0x06 -/

/-- Settles O6: each command's description says whether it reads, answers with what it begins, or has an effect alone, and
the law of that form gives the state after it. -/
theorem memcCommands : Obligations.MemcCommands := fun _ _ =>
  ⟨fun h => congrArg _ (hostCommand_done h rfl rfl rfl rfl),
   fun h => congrArg _ (hostCommand_read h rfl rfl rfl rfl rfl),
   fun h => congrArg _ (hostCommand_read h rfl rfl rfl rfl rfl),
   fun h => congrArg _ (hostCommand_answer_now h rfl rfl rfl rfl),
   fun h => congrArg _ (hostCommand_done h rfl rfl rfl rfl),
   fun h => congrArg _ (hostCommand_done h rfl rfl rfl rfl),
   fun h => congrArg _ (hostCommand_done h rfl rfl rfl rfl),
   fun h => congrArg _ (hostCommand_read h rfl rfl rfl rfl rfl),
   fun h => congrArg _ (hostCommand_done h rfl rfl rfl rfl)⟩

/-! ### The events of pseudo-channels and of rings -/

/-- A change of a pseudo-channel is told by what it makes of that pseudo-channel's present state. -/
theorem updPc_congr {k : Nat} {f g : Pc → Pc} {x : Pc} {d : Dev} (hx : pc k d = x) (h : f x = g x) :
    updPc k f d = updPc k g d := by
  subst hx
  have ht : tupd d.memc.pcs k f = tupd d.memc.pcs k g := congrArg (tset d.memc.pcs k) h
  rw [updPc, ht, updPc]

/-- Settles O25: the conditions that the statement names are the conjuncts of each event's condition; what a Holiday's start
and its end do hangs on the Holiday that the state names. -/
theorem memoryEvents : Obligations.MemoryEvents := fun s =>
  ⟨fun k q hk hq hw => show execMemoryRequest k q s = _ from onDevIf_next (by simp [hk, hq, hw]),
   fun k hk hst hh hc => show execBurstIssue k s = _ from onDevIf_next (by simp [hk, hst, hh, hc]),
   fun k errs fabric hk hst hi => by
     change execBurstComplete k errs s fabric = _
     simp [execBurstComplete, hk, hst, hi, withDev],
   fun k hk hst hdue => show execHolidayDue k false s = _ from onDevIf_next (by simp [hk, hst, hdue]),
   fun k hk hst hnone hdue => show execHolidayDue k true s = _ from onDevIf_next (by simp [hk, hst, hnone, hdue]),
   fun k r hnext hlen hno hlast => by
     change execHolidayStart k s = _
     rw [execHolidayStart, onDevIf_next, hnext]
     cases ho : s.dev.memc.lastHoliday with
     | none => simp [hnext, hlen, hno]
     | some t => simp [hnext, hlen, hno, hlast t ho],
   fun k hk hst hno hdue => show execHolidayDeadline k s = _ from onDevIf_next (by simp [hk, hst, hno, hdue]),
   fun k r t hh ht => by
     change execHolidayEnd k s = _
     rw [execHolidayEnd, onDevIf_next (by simp [hh, ht])]
     simp only [hh, Option.map_some, Option.some.injEq]
     refine congrArg (fun d => Host.Outcome.next (withDev s d)) (updPc_congr (x := pc k s.dev) rfl ?_)
     simp only [hh, Option.map_some, Option.some.injEq],
   fun k errs hk hst hh hw htag => show execScrubRead k errs s = _ from onDevIf_next (by simp [hk, hst, hh, hw, htag]),
   fun k hk hst ht => show execPcErrorWindow k s = _ from onDevIf_next (by simp [hk, hst, ht]),
   fun k hk hst hh hlate => show execReadResponseTimeout k s = _ from onDevIf_next (by
     dsimp only
     rw [hlate]
     simp [hk, hst, hh]),
   fun k hk hst hr => show execPcResetRelease k s = _ from onDevIf_next (by simp [hk, hst, hr]),
   fun r hrun hpar hcan hfirst => show execRingMigrationStart r s = _ from onDevIf_next (by
     rw [hfirst]
     simp [hrun, hpar, hcan]),
   fun r hold hslots => show execRingMigrationEnd r s = _ from onDevIf_next (by
     dsimp only
     rw [hslots]
     simp [hold]),
   fun r hr hc hserve ht => by
     change execRetirementSystemCopyDone s = _
     simp [execRetirementSystemCopyDone, hr, hc, hserve, ht],
   fun r hr hc hdone => show execRetirementComplete s = _ from onDevIf_next (by simp [hr, hc, hdone])⟩

end Sys2Proof.Machine

/-! The commands and events of routing and frame synchronisation (chapter 8). -/

namespace Sys2Proof.Machine

open Sys2Proof.Safety

/-! ### The commands of family 0x07 -/

/-- Settles O7: each command's description says whether it unbinds, answers with the time of its take, reads, or has
an effect alone, and the law of that form gives the state after it. -/
theorem routeCommands : Obligations.RouteCommands := fun _ _ =>
  ⟨fun h => congrArg _ (hostCommand_done h rfl rfl rfl rfl),
   fun h => congrArg _ (hostCommand_disable h rfl rfl rfl rfl),
   fun h => congrArg _ (hostCommand_done h rfl rfl rfl rfl),
   fun h => congrArg _ (hostCommand_done h rfl rfl rfl rfl),
   fun h => congrArg _ (hostCommand_disable h rfl rfl rfl rfl),
   fun h => congrArg _ (hostCommand_done h rfl rfl rfl rfl),
   fun h => congrArg _ (hostCommand_answer_now h rfl rfl rfl rfl),
   fun h => congrArg _ (hostCommand_read h rfl rfl rfl rfl rfl)⟩

/-! ### The events of frames, timing groups, splices, conversions and rasters -/

/-- A producer's frame becomes ready in the memory that its words have been written to. -/
theorem execProducerFrameReady_next {r n : Nat} (fabric : List WordErr) {s : State}
    (hn : writingFrame r false (recomposeAll s).dev = some n) (hw : writeEnds r (recomposeAll s).dev = true) :
    execProducerFrameReady r fabric s = .next (
      let t := recomposeAll s
      let m := writeFrame r t.dev t.hbm
      let d := resendLocked r n m (frameReady r (fabricWords r fabric (poisonWords r t.dev)))
      { t with hbm := m, dev := if (stream r t.dev).kind = 3 then forgetClosed (stream r t.dev).id d else d }) := by
  unfold execProducerFrameReady
  dsimp only
  rw [hn]
  exact if_pos hw

/-- Settles O26: the conditions that the statement names are the conjuncts of each event's condition; what a splice and a
ledger entry need hangs on the splice under way and on the entry sent last. -/
theorem fabricEvents : Obligations.FabricEvents := fun s =>
  ⟨fun r start hrun hat hno => show execProducerFrameStart r start s = _ from onDevIf_next (by rw [hrun, hat, hno]; rfl),
   fun _ _ fabric hn hw => execProducerFrameReady_next fabric hn hw,
   fun tg k hrun htg hf hk hplan hstart hconf =>
     show execPlanPoint tg k s = _ from onDevIf_next (by simp [hrun, htg, hf, hk, hplan, hstart, hconf]),
   fun tg k hrun htg hf hplan hconf ht =>
     show execConfirmationPoint tg k s = _ from onDevIf_next (by simp [hrun, htg, hf, hplan, hconf, ht]),
   fun tg k buf hdue => show execFrameBoundary tg k s buf = _ from onDevIf_next hdue,
   fun dst sp hsp hb hn => show execSpliceStart dst s = _ from onDevIf_next (by simp [hsp, hb, hn]),
   fun dst sp hsp hb hn => show execSpliceEnd dst s = _ from onDevIf_next (by simp [hsp, hb, hn]),
   fun e j q buf he hdue => by
     change execConverterPictureStart e j q s buf = _
     simp [execConverterPictureStart, he, hdue],
   fun e j q hlead hen hq hfrom huntil hlast => show execLedgerConverterSend e j q s = _ from onDevIf_next (by
     cases ho : (engine e s.dev).sent with
     | none => simp [ho, hlead, hen, hq, hfrom, huntil]
     | some p =>
       obtain ⟨j', q', l⟩ := p
       simp [ho, hlead, hen, hq, hfrom, huntil, hlast j' q' l ho]),
   fun e line sample lateWords hreads hshown hrun hline hsample =>
     show execRasterUnderrun e line sample lateWords s = _ from
       onDevIf_next (by simp [hreads, hshown, hrun, hline, hsample])⟩

end Sys2Proof.Machine

/-! The commands of conversion engines and of output rasters (chapter 9). -/

namespace Sys2Proof.Machine

open Sys2Proof.Safety

/-! ### The commands of family 0x08 -/

/-- Settles O8: each command's description says whether it disables, answers with the time of its substitution, reads, or
has an effect alone, and the law of that form gives the state after it; CNV_CONFIG's effect waits for its point, as
`atPoint` says. -/
theorem converterCommands : Obligations.ConverterCommands := fun _ _ =>
  ⟨fun h => congrArg _ (hostCommand_done h rfl rfl rfl rfl),
   fun h => congrArg _ (hostCommand_done h rfl rfl rfl rfl),
   fun h => congrArg _ (hostCommand_disable h rfl rfl rfl rfl),
   fun h => congrArg _ (hostCommand_answer_now h rfl rfl rfl rfl),
   fun h => congrArg _ (hostCommand_done h rfl rfl rfl rfl),
   fun h => congrArg _ (hostCommand_done h rfl rfl rfl rfl),
   fun h => congrArg _ (hostCommand_done h rfl rfl rfl rfl),
   fun h => congrArg _ (hostCommand_read h rfl rfl rfl rfl rfl)⟩

/-- Settles O9: each command but OUT_STATUS_READ answers 0x0000 alone, its effect at its raster's next frame where its
description names that point; OUT_STATUS_READ has no effect but its answer. -/
theorem outputCommands : Obligations.OutputCommands := fun _ _ =>
  ⟨fun h => congrArg _ (hostCommand_done h rfl rfl rfl rfl),
   fun h => congrArg _ (hostCommand_done h rfl rfl rfl rfl),
   fun h => congrArg _ (hostCommand_done h rfl rfl rfl rfl),
   fun h => congrArg _ (hostCommand_done h rfl rfl rfl rfl),
   fun h => congrArg _ (hostCommand_read h rfl rfl rfl rfl rfl)⟩

end Sys2Proof.Machine

/-! The commands and events of the audio core and its ports (chapter 10). -/

namespace Sys2Proof.Machine

open Sys2Proof.Safety

/-! ### The commands of family 0x09 -/

/-- Settles O10: each command's description says whether it disables, reads, or has an effect alone, and the law of that form
gives the state after it; what waits for a block (R378, R388) waits as `atPoint` says, and AUD_CELLS answers the time of
its block as well. -/
theorem audioCommands : Obligations.AudioCommands := fun _ _ =>
  ⟨fun h => congrArg _ (hostCommand_done h rfl rfl rfl rfl),
   fun h => congrArg _ (hostCommand_done h rfl rfl rfl rfl),
   fun h => congrArg _ (hostCommand_reply h rfl rfl),
   fun h => congrArg _ (hostCommand_read h rfl rfl rfl rfl rfl),
   fun h => congrArg _ (hostCommand_done h rfl rfl rfl rfl),
   fun h => congrArg _ (hostCommand_disable h rfl rfl rfl rfl),
   fun h => congrArg _ (hostCommand_done h rfl rfl rfl rfl),
   fun h => congrArg _ (hostCommand_done h rfl rfl rfl rfl),
   fun h => congrArg _ (hostCommand_done h rfl rfl rfl rfl),
   fun h => congrArg _ (hostCommand_done h rfl rfl rfl rfl),
   fun h => congrArg _ (hostCommand_disable h rfl rfl rfl rfl),
   fun h => congrArg _ (hostCommand_read h rfl rfl rfl rfl rfl),
   fun h => congrArg _ (hostCommand_done h rfl rfl rfl rfl),
   fun h => congrArg _ (hostCommand_read h rfl rfl rfl rfl rfl)⟩

/-! ### The events of blocks, ports and synchronous FIFOs -/

/-- Settles O27: the conditions that the statement names are the conjuncts of each event's condition; a sync sample's
condition is that of its kind of input, a loss's that of its cause, and a TDM frame's that of the port's role. -/
theorem audioEvents : Obligations.AudioEvents := fun s =>
  ⟨fun cells samples hdue => show execAudioBlock s cells samples = _ from onDevIf_next hdue,
   fun w hrun hbad => show execMatrixWordRewrite w s = _ from onDevIf_next (by rw [hrun, hbad]; rfl),
   fun p f hp hst hrun => show execAes3Subframe p f s = _ from onDevIf_next (by simp [hp, hst, hrun]),
   fun kind p tenthPpm hq => show execInputRateGate kind p tenthPpm s = _ from onDevIf_next hq,
   fun kind p hq hst ht => show execInputQualify kind p s = _ from onDevIf_next (by simp [hq, hst, ht]),
   fun kind p cause hq hlow hhigh hfirst hlast hpre hfreq => show execInputLost kind p cause s = _ from
     onDevIf_next (by simp [hq, hlow, hhigh, hfirst, hlast, hpre, hfreq]),
   fun p hrun hp hst => show execSyncSampleInstant 0 p s = _ from onDevIf_next (by simp [hrun, hp, hst]),
   fun p hrun hp hst hno => show execSyncSampleInstant 1 p s = _ from onDevIf_next (by simp [hrun, hp, hst, hno]),
   fun p hrun hp hst hrole hno => show execSyncSampleInstant 3 p s = _ from
     onDevIf_next (by simp [hrun, hp, hst, hrole, hno]),
   fun p slots hp hset hrun hmaster => show execTdmFrame p slots s = _ from
     onDevIf_next (by simp [hp, hset, hrun, hmaster])⟩

end Sys2Proof.Machine

/-! The control interface (chapter 11): mailboxes, the event ring, its vectors, and what Perby answers. -/

namespace Sys2Proof.Machine

open Sys2Proof.Safety

/-! ### Bits of a register -/

theorem getLsbD_ofNat_two_pow {w u : Nat} (h : u < w) (v : Nat) : (BitVec.ofNat w (2 ^ v)).getLsbD u = decide (v = u) := by
  rw [BitVec.getLsbD_ofNat, Nat.testBit_two_pow, decide_eq_true h, Bool.true_and]

/-- A register with one bit cleared. -/
theorem getLsbD_clear {w u : Nat} (h : u < w) (x : BitVec w) (v : Nat) :
    (x &&& ~~~ BitVec.ofNat w (2 ^ v)).getLsbD u = (x.getLsbD u && decide (u ≠ v)) := by
  rw [BitVec.getLsbD_and, BitVec.getLsbD_not, getLsbD_ofNat_two_pow h, decide_eq_true h, Bool.true_and, decide_not,
    decide_eq_decide.mpr (eq_comm (a := v) (b := u))]

/-! ### Vectors (R411, R412) -/

theorem signal_of_masked {v : Nat} {d : Dev} (h : d.host.msix.masked.getLsbD v = true) :
    signal v d = { d with host.msix.pending := d.host.msix.pending ||| BitVec.ofNat 64 (2 ^ v) } := if_pos h

theorem signal_of_unmasked {v : Nat} {d : Dev} (h : d.host.msix.masked.getLsbD v = false) :
    signal v d = { d with host.msix.sent := tupd d.host.msix.sent v (· + 1) } := if_neg (by rw [h]; exact Bool.false_ne_true)

@[simp] theorem signal_evt (v : Nat) (d : Dev) : (signal v d).host.evt = d.host.evt := by
  obtain ⟨_, h⟩ := signal_frame v d; rw [h]
@[simp] theorem signal_mbx (v : Nat) (d : Dev) : (signal v d).host.mbx = d.host.mbx := by
  obtain ⟨_, h⟩ := signal_frame v d; rw [h]
@[simp] theorem signal_flt (v : Nat) (d : Dev) : (signal v d).flt = d.flt := by
  obtain ⟨_, h⟩ := signal_frame v d; rw [h]
@[simp] theorem signal_mode (v : Nat) (d : Dev) : (signal v d).mode = d.mode := by
  obtain ⟨_, h⟩ := signal_frame v d; rw [h]

/-- What a signal does to the MSI-X table hangs on that table alone. -/
theorem signal_msix_congr {v : Nat} {d e : Dev} (h : d.host.msix = e.host.msix) :
    (signal v d).host.msix = (signal v e).host.msix := by
  cases hm : e.host.msix.masked.getLsbD v with
  | true => rw [signal_of_masked hm, signal_of_masked (h ▸ hm)]; simp only [h]
  | false => rw [signal_of_unmasked hm, signal_of_unmasked (h ▸ hm)]; simp only [h]

/-! ### The event ring (R409, R410) -/

/-- The event ring once an entry is written: the class's vector is disarmed if it was armed. -/
theorem writeEntry_evt (e : EventEntry) (d : Dev) :
    (writeEntry e d).host.evt = { d.host.evt with
      ring := tset d.host.evt.ring (d.host.evt.prod % 8192)
        { e with phase := bitOf d.host.evt.prod 13, loss := d.host.evt.lossPending }
      prod := (d.host.evt.prod + 1) % 16384
      lossPending := false
      armed := if d.host.evt.armed.getLsbD (e.code / 256 % 16) = true
        then d.host.evt.armed &&& ~~~ BitVec.ofNat 16 (2 ^ (e.code / 256 % 16)) else d.host.evt.armed } := by
  unfold writeEntry
  dsimp only
  split
  · rw [signal_evt]
  · rfl

theorem writeEntry_msix_of_armed {e : EventEntry} {d : Dev} (h : d.host.evt.armed.getLsbD (e.code / 256 % 16) = true) :
    (writeEntry e d).host.msix = (signal (16 + e.code / 256 % 16) d).host.msix := by
  unfold writeEntry
  rw [if_pos h]
  exact signal_msix_congr rfl

theorem writeEntry_msix_of_disarmed {e : EventEntry} {d : Dev} (h : d.host.evt.armed.getLsbD (e.code / 256 % 16) = false) :
    (writeEntry e d).host.msix = d.host.msix := by
  unfold writeEntry
  rw [if_neg (by rw [h]; exact Bool.false_ne_true)]

theorem postEntry_of_disabled {e : EventEntry} {d : Dev} (hc : e.code / 256 % 16 ≠ 0)
    (he : d.host.evt.enabled.getLsbD (e.code / 256 % 16) = false) :
    postEntry e d = { d with host.evt.discard := d.host.evt.discard + 1 } := if_pos ⟨hc, he⟩

theorem postEntry_of_full {e : EventEntry} {d : Dev} (hc : e.code / 256 % 16 ≠ 0)
    (he : d.host.evt.enabled.getLsbD (e.code / 256 % 16) = true) (hr : 8192 - d.host.evt.present < 257) :
    postEntry e d = { d with host.evt.lost := d.host.evt.lost + 1, host.evt.lossPending := true } := by
  unfold postEntry
  rw [if_neg (by simp [he]), if_pos ⟨hc, hr⟩]

/-- An event of class 0, or one of an enabled class for which there is room, is written. -/
theorem postEntry_eq_writeEntry {e : EventEntry} {d : Dev}
    (h : e.code / 256 % 16 = 0 ∨
      (d.host.evt.enabled.getLsbD (e.code / 256 % 16) = true ∧ 257 ≤ 8192 - d.host.evt.present)) :
    postEntry e d = writeEntry e d := by
  unfold postEntry
  rcases h with h0 | ⟨he, hr⟩
  · rw [if_neg (fun h => h.1 h0), if_neg (fun h => h.1 h0)]
  · rw [if_neg (by simp [he]), if_neg (fun h => Nat.not_le.mpr h.2 hr)]

/-- Settles O51, by the three fates of an event; one that is written leaves the ring that `writeEntry_evt` gives. -/
theorem eventRing : Obligations.EventRing := by
  intro e d
  refine ⟨postEntry_of_disabled, postEntry_of_full, fun h => ?_⟩
  have hm := postEntry_mbx e d
  rw [postEntry_eq_writeEntry h] at hm ⊢
  rw [hm, writeEntry_evt]
  exact ⟨rfl, tget_tset_same .., fun i hi => tget_tset_ne _ _ hi, rfl, rfl, rfl, rfl⟩

/-- EVT_CONS takes an index within the entries present: class vectors are armed again, and with entries still present the
vector of the entry at the index is sent and disarmed. -/
theorem evtCons_within {i : Nat} {d : Dev} (hi : i < 16384)
    (hk : (i + 16384 - d.host.evt.cons) % 16384 ≤ d.host.evt.present) :
    ∃ owed, let ev : Events := { d.host.evt with cons := i, armed := 0xFFFF, owed := owed }
      let c := (tget d.host.evt.ring (i % 8192)).code / 256 % 16
      evtCons i d = if ev.present = 0 then { d with host.evt := ev }
        else signal (16 + c) { d with host.evt := { ev with armed := 0xFFFF &&& ~~~ BitVec.ofNat 16 (2 ^ c) } } := by
  refine ⟨d.host.evt.owed - completionsIn ((i + 16384 - d.host.evt.cons) % 16384) d.host.evt, ?_⟩
  unfold evtCons
  simp only [Nat.mod_eq_of_lt hi, if_neg (Nat.not_lt.mpr hk)]

theorem unmask_masked {v : Nat} {d : Dev} {u : Nat} (hu : u < 64) :
    (unmask v d).host.msix.masked.getLsbD u = (d.host.msix.masked.getLsbD u && decide (u ≠ v)) :=
  getLsbD_clear hu _ v

theorem unmask_pending {v : Nat} {d : Dev} {u : Nat} (hu : u < 64) :
    (unmask v d).host.msix.pending.getLsbD u = (d.host.msix.pending.getLsbD u && decide (u ≠ v)) :=
  getLsbD_clear hu _ v

theorem unmask_sent (v : Nat) (d : Dev) :
    tget (unmask v d).host.msix.sent v = tget d.host.msix.sent v + b2n (d.host.msix.pending.getLsbD v) := by
  unfold unmask
  cases hp : d.host.msix.pending.getLsbD v <;> simp [hp, b2n]

/-- A signal of a masked vector sets its pending bit. -/
theorem signal_pending_of_masked {v : Nat} {d : Dev} (hv : v < 64) (h : d.host.msix.masked.getLsbD v = true) :
    (signal v d).host.msix.pending.getLsbD v = true := by
  rw [signal_of_masked h, BitVec.getLsbD_or, getLsbD_ofNat_two_pow hv, decide_eq_true rfl, Bool.or_true]

/-- Settles O52: a signal by the vector's mask, a written entry by its class's armed bit, and EVT_CONS by whether entries
are still present. -/
theorem vectorArming : Obligations.VectorArming := by
  refine ⟨fun v d hv => ⟨fun h => ?_, fun h => ⟨signal_pending_of_masked hv h, ?_⟩, ?_, ?_, unmask_sent v d, fun u hu hne => ?_⟩,
    fun e d => ⟨fun h => ⟨fun j hj => ?_, writeEntry_msix_of_armed h⟩, fun h => ⟨?_, writeEntry_msix_of_disarmed h⟩⟩,
    fun i d hi hk => ?_⟩
  · rw [signal_of_unmasked h]; exact ⟨tget_tupd_same d.host.msix.sent v (· + 1), rfl⟩
  · rw [signal_of_masked h]
  · simp [unmask_masked hv]
  · simp [unmask_pending hv]
  · simp [unmask_masked hu, hne]
  · rw [writeEntry_evt]; simp only [if_pos h]; exact getLsbD_clear hj _ _
  · rw [writeEntry_evt]; simp [h]
  · obtain ⟨owed, h⟩ := evtCons_within hi hk
    dsimp only at h ⊢
    rw [h]
    split
    · next h0 => exact ⟨rfl, fun _ => ⟨rfl, rfl⟩, fun hne => absurd h0 hne⟩
    · next hne =>
      rw [signal_evt]
      refine ⟨rfl, fun h0 => absurd h0 hne, fun _ => ⟨fun j hj => ?_, signal_msix_congr rfl⟩⟩
      rw [getLsbD_clear hj, show (0xFFFF : BitVec 16) = BitVec.allOnes 16 from rfl, BitVec.getLsbD_allOnes, decide_eq_true hj,
        Bool.true_and]

end Sys2Proof.Machine

/-! Mailboxes, and how Perby executes a request (chapter 11). -/

namespace Sys2Proof.Machine

open Sys2Proof.Safety

/-! ### A mailbox's windows and its doorbell (R400, R401, R576) -/

theorem mailbox_updMbx (k n : Nat) (f : Mailbox → Mailbox) (d : Dev) :
    mailbox k (updMbx n f d) = if k = n then f (mailbox n d) else mailbox k d := tget_tupd _ k n f

theorem mailbox_updMbx_same (n : Nat) (f : Mailbox → Mailbox) (d : Dev) : mailbox n (updMbx n f d) = f (mailbox n d) :=
  (mailbox_updMbx n n f d).trans (if_pos rfl)

theorem mailbox_updMbx_ne {k n : Nat} (h : k ≠ n) (f : Mailbox → Mailbox) (d : Dev) : mailbox k (updMbx n f d) = mailbox k d :=
  (mailbox_updMbx k n f d).trans (if_neg h)

theorem execMbxDb_linked {n : Nat} {tag : Word} {s : State} (hn : n < 16) (hl : s.dev.host.linkUp = true) :
    execMbxDb n tag s = .next (withDev s (doorbell n tag s.dev)) := onDevIf_next (by simp [hn, hl])

theorem execMailboxWindowWrite_linked {n off : Nat} {bytes : List Byte} {s : State} (hn : n < 16) (hoff : off < 0x2000)
    (hl : s.dev.host.linkUp = true) :
    execMailboxWindowWrite n off bytes s = .next (withDev s (windowWrite n off bytes s.dev)) :=
  onDevIf_next (by simp [hn, hoff, hl])

theorem doorbell_of_ignored {n : Nat} {tag : Word} {d : Dev} (h : (mailbox n d).state = 1 ∨ mailboxServed n d = false) :
    doorbell n tag d = updMbx n (fun m => { m with dbErr := true }) d := if_pos h

theorem doorbell_of_served {n : Nat} {tag : Word} {d : Dev} (hst : (mailbox n d).state ≠ 1) (hs : mailboxServed n d = true) :
    doorbell n tag d = updMbx n (fun m => { m with state := 1, tag := tag, accepted := false })
      { d with host.rung := d.host.rung ++ [n] } := if_neg (by simp [hst, hs])

/-- Settles O46: a doorbell of a served mailbox is taken, and one of a mailbox that no firmware serves is ignored. -/
theorem doorbellStates : Obligations.DoorbellStates := by
  intro n tag s hn hl hst
  refine ⟨fun hs => ⟨_, execMbxDb_linked hn hl, ?_⟩, fun hs => ⟨_, execMbxDb_linked hn hl, ?_⟩⟩
  · rw [withDev_dev, doorbell_of_served hst hs]
    exact ⟨by rw [mailbox_updMbx_same], by rw [mailbox_updMbx_same], fun k hk => mailbox_updMbx_ne hk _ _⟩
  · rw [withDev_dev, doorbell_of_ignored (.inr hs)]
    exact ⟨mailbox_updMbx_same .., fun k hk => mailbox_updMbx_ne hk _ _⟩

/-- The bytes of a write that fall in the request window, each with its place in the write. -/
def requestPart (off : Nat) (bytes : List Byte) : List (Nat × Byte) :=
  ((List.range bytes.length).zip bytes).filter fun b => decide (off + b.1 < 0x1000)

theorem windowWrite_eq (n off : Nat) (bytes : List Byte) (d : Dev) :
    windowWrite n off bytes d =
      if requestPart off bytes = [] then d
      else if (mailbox n d).state = 1 then updMbx n (fun m => { m with wrErr := true }) d
      else updMbx n (fun m => { m with
        request := (requestPart off bytes).foldl (fun r b => tset r (off + b.1) b.2) m.request }) d := rfl

theorem mem_range_zip {bytes : List Byte} {i : Nat} {b : Byte} :
    (i, b) ∈ (List.range bytes.length).zip bytes ↔ bytes[i]? = some b := by
  rw [List.mem_iff_getElem?]
  constructor
  · rintro ⟨j, hj⟩
    obtain ⟨hr, hb⟩ := List.getElem?_zip_eq_some.mp hj
    obtain ⟨hlt, hij⟩ := List.getElem?_eq_some_iff.mp hr
    rw [List.getElem_range] at hij
    have hij : j = i := hij
    exact hij ▸ hb
  · intro h
    obtain ⟨hi, -⟩ := List.getElem?_eq_some_iff.mp h
    exact ⟨i, List.getElem?_zip_eq_some.mpr ⟨List.getElem?_range hi, h⟩⟩

theorem mem_requestPart {off i : Nat} {b : Byte} {bytes : List Byte} :
    (i, b) ∈ requestPart off bytes ↔ bytes[i]? = some b ∧ off + i < 0x1000 := by
  rw [requestPart, List.mem_filter, mem_range_zip, decide_eq_true_iff]

theorem nodup_requestPart (off : Nat) (bytes : List Byte) : ((requestPart off bytes).map (·.1)).Nodup := by
  have hz : (((List.range bytes.length).zip bytes).map (·.1)).Nodup := by
    rw [List.map_fst_zip (by simp)]
    exact List.nodup_range
  exact hz.sublist (List.filter_sublist.map _)

theorem requestPart_eq_nil {off : Nat} (h : 0x1000 ≤ off) (bytes : List Byte) : requestPart off bytes = [] :=
  List.eq_nil_iff_forall_not_mem.mpr fun _ hb => by have := (mem_requestPart.mp hb).2; omega

theorem requestPart_ne_nil {off : Nat} {bytes : List Byte} (h : off < 0x1000) (hb : bytes ≠ []) : requestPart off bytes ≠ [] := by
  obtain ⟨b, l, rfl⟩ := List.exists_cons_of_ne_nil hb
  exact List.ne_nil_of_mem (mem_requestPart (i := 0) (b := b).mpr ⟨rfl, h⟩)

theorem tget_foldl_tset_of_forall_ne {off j : Nat} : ∀ {l : List (Nat × Byte)} {t : Tab Byte},
    (∀ b ∈ l, j ≠ off + b.1) → tget (l.foldl (fun r b => tset r (off + b.1) b.2) t) j = tget t j
  | [], _, _ => rfl
  | a :: l, t, h => by
    rw [List.foldl_cons, tget_foldl_tset_of_forall_ne fun b hb => h b (List.mem_cons_of_mem a hb),
      tget_tset_ne _ _ (h a List.mem_cons_self)]

theorem tget_foldl_tset_of_mem {off i : Nat} {b : Byte} : ∀ {l : List (Nat × Byte)} {t : Tab Byte},
    (l.map (·.1)).Nodup → (i, b) ∈ l → tget (l.foldl (fun r b => tset r (off + b.1) b.2) t) (off + i) = b
  | a :: l, t, hn, hm => by
    obtain ⟨ha, hl⟩ := List.nodup_cons.mp (List.map_cons ▸ hn)
    rw [List.foldl_cons]
    rcases List.mem_cons.mp hm with rfl | hm
    · rw [tget_foldl_tset_of_forall_ne, tget_tset_same]
      intro c hc heq
      exact ha (List.mem_map.mpr ⟨c, hc, by simp at heq; exact heq.symm⟩)
    · exact tget_foldl_tset_of_mem hl hm

/-- A mailbox's two windows, byte by byte. -/
theorem windowByte_mailbox {n i : Nat} (hn : n < 16) (hi : i < 0x2000) (d : Dev) :
    windowByte (0x100000 + n * 0x2000 + i) d =
      if i < 0x1000 then tget (mailbox n d).request i else (mailbox n d).response.getD (i - 0x1000) 0 := by
  have hq : (0x100000 + n * 0x2000 + i - 0x100000) / 0x2000 = n := by omega
  have hr : (0x100000 + n * 0x2000 + i - 0x100000) % 0x2000 = i := by omega
  rw [windowByte, if_pos (by omega), hq, hr]

/-- What a request window holds after a write: the bytes written that fall in it, and the others as before (R401). -/
theorem tget_request_windowWrite {off i : Nat} {bytes : List Byte} {t : Tab Byte} (hi : i < 0x1000) :
    tget ((requestPart off bytes).foldl (fun r b => tset r (off + b.1) b.2) t) i =
      if off ≤ i ∧ i < off + bytes.length then bytes.getD (i - off) 0 else tget t i := by
  split
  · next h =>
    obtain ⟨hle, hlt⟩ := h
    have hb : bytes[i - off]? = some (bytes.getD (i - off) 0) := by
      rw [List.getD_eq_getElem _ _ (by omega), List.getElem?_eq_getElem]
    have := tget_foldl_tset_of_mem (off := off) (t := t) (nodup_requestPart off bytes) (mem_requestPart.mpr ⟨hb, by omega⟩)
    rwa [Nat.add_sub_cancel' hle] at this
  · next h =>
    refine tget_foldl_tset_of_forall_ne fun b hb heq => h ?_
    obtain ⟨hlt, -⟩ := List.getElem?_eq_some_iff.mp (mem_requestPart.mp hb).1
    omega

/-- Settles O45: a window write by where it begins and by the mailbox's state; one that is taken changes the request window
alone. -/
theorem mailboxWindows : Obligations.MailboxWindows := by
  intro n s hn hl
  refine ⟨fun tag hst => ?_, fun off bytes hst hoff hb => ?_, fun off bytes hlo hhi => ?_, fun off bytes hst hoff hb => ?_⟩
  · exact (execMbxDb_linked hn hl).trans (by rw [doorbell_of_ignored (.inl hst)])
  · refine (execMailboxWindowWrite_linked hn (by omega) hl).trans ?_
    rw [windowWrite_eq, if_neg (requestPart_ne_nil hoff hb), if_pos hst]
  · refine (execMailboxWindowWrite_linked hn hhi hl).trans ?_
    rw [windowWrite_eq, if_pos (requestPart_eq_nil hlo bytes)]
    rfl
  · refine ⟨_, execMailboxWindowWrite_linked hn (by omega) hl, fun i hi => ?_⟩
    rw [withDev_dev, windowWrite_eq, if_neg (requestPart_ne_nil hoff hb), if_neg hst, windowByte_mailbox hn hi,
      windowByte_mailbox hn hi, mailbox_updMbx_same]
    by_cases hlo : i < 0x1000
    · simp only [hlo, if_true, and_true, tget_request_windowWrite hlo]
    · simp only [hlo, if_false, and_false]

end Sys2Proof.Machine

/-! Perby's answers and refusals, the accesses of the host's buses, Perby's events and the commands of family 0x0F
(chapter 11). -/

namespace Sys2Proof.Machine

open Sys2Proof.Safety

/-! ### Answers (R405, R408) -/

theorem mailbox_signal (k v : Nat) (d : Dev) : mailbox k (signal v d) = mailbox k d :=
  congrArg (tget · k) (signal_mbx v d)

/-- A mailbox once it is answered (R405). -/
def answeredBox (op f : Nat) (tag : Word) (r : Reply) (m : Mailbox) : Mailbox :=
  { m with
    state := 2, accepted := false, resps := m.resps + 1
    response := le 2 op ++ le 2 f ++ le 4 tag.toNat ++ le 4 r.payload.length ++ le 2 r.status ++ le 2 r.detail ++ r.payload }

/-- What an answer leaves in the mailboxes. -/
theorem mailbox_answer (k n op f : Nat) (tag : Word) (r : Reply) (d : Dev) :
    mailbox k (answer n op f tag r d) = if k = n then answeredBox op f tag r (mailbox n d) else mailbox k d := by
  rw [← mailbox_updMbx]
  unfold answer
  rw [mailbox_signal]
  split <;> rfl

theorem answer_owed (n op f : Nat) (tag : Word) (r : Reply) (d : Dev) :
    (answer n op f tag r d).host.evt.owed = d.host.evt.owed + b2n (decide (r.status = 1)) := by
  unfold answer
  rw [signal_evt]
  by_cases h : r.status = 1 <;> simp [h, owe, updMbx, b2n]

/-- Settles O47: what `mailbox_answer` leaves in the mailbox answered and in the others. -/
theorem answerWritten : Obligations.AnswerWritten := by
  intro n op f tag r d
  rw [mailbox_answer, if_pos rfl]
  exact ⟨rfl, rfl, rfl, fun k hk => (mailbox_answer k n op f tag r d).trans (if_neg hk), answer_owed n op f tag r d⟩

/-! ### Refusals (R403, R404, R408, R466) -/

section
variable {c : CmdSpec} {a : Args} {d : Dev}

theorem refusal_of_length (h : c.len a.payload = false) : refusal c a d = some (0x0004, 0xF008) := by
  simp [refusal, firstOf, refuseIf, h]

theorem refusal_of_safe (hlen : c.len a.payload = true) (hl : loaderServes d = false) (hm : d.mode = SAFE)
    (hs : c.safe = false) : refusal c a d = some (0x0007, 0) := by
  simp [refusal, firstOf, refuseIf, hlen, hl, hm, hs]

theorem refusal_of_shadow (hlen : c.len a.payload = true) (hl : loaderServes d = false) (hm : d.mode ≠ SAFE)
    (hr : roleMode d = SHADOW) (hmir : mirrored c = true) : refusal c a d = some (0x0007, 0) := by
  simp [refusal, firstOf, refuseIf, hlen, hl, hm, hr, hmir]

theorem refusal_of_badField {o : Nat} (hlen : c.len a.payload = true) (hl : loaderServes d = false) (hm : d.mode ≠ SAFE)
    (hr : roleMode d ≠ SHADOW) (hf : badField (c.fields a.payload) a.payload = some o) :
    refusal c a d = some (0x0004, o) := by
  simp [refusal, firstOf, refuseIf, hlen, hl, hm, hr, checkSpec, hf]

end

/-- A command that would be answered 0x0001 while 256 completion events are owed has no effect but its answer 0x0002. -/
theorem hostCommand_of_owed {c : CmdSpec} {f : Nat} {q : Req} {s : State} (hs : serves q.mbx s.dev = true)
    (hr : refusal c (argsOf q s) s.dev = none) (h1 : (accept c (argsOf q s) s.dev).1.status = 1)
    (ho : 256 ≤ s.dev.host.evt.owed) :
    hostCommand c f q s = withDev s (settle (answer q.mbx c.opcode f q.tag { status := 0x0002 } s.dev)) := by
  rw [hostCommand, if_pos hs, runCommand, hr]
  dsimp only
  rw [if_pos ⟨h1, ho⟩]
  rfl

/-- Settles O48: each refusal is the first that `refusal` finds, and a refused command has no effect but its answer. -/
theorem commandRefusals : Obligations.CommandRefusals := fun _ _ _ _ =>
  ⟨hostCommand_unserved, fun hs =>
    ⟨fun hlen => hostCommand_refused hs (refusal_of_length hlen),
     fun hlen hl =>
      ⟨fun hm hsafe => hostCommand_refused hs (refusal_of_safe hlen hl hm hsafe),
       fun hm hr hmir => hostCommand_refused hs (refusal_of_shadow hlen hl hm hr hmir),
       fun hm hr _ hf => hostCommand_refused hs (refusal_of_badField hlen hl hm hr hf)⟩,
     hostCommand_of_owed hs⟩⟩

/-! ### Accesses of the host (R400, R401, R403, R410, R412) -/

/-- Settles O16: the host's accesses need the link and a place that exists, and Perby accepts the oldest doorbell's request. -/
theorem mailboxAccesses : Obligations.MailboxAccesses := fun s =>
  ⟨fun _ _ hn hl => execMbxDb_linked hn hl,
   fun n h => show execMailboxRequestAccept n s = _ from if_pos h,
   fun _ _ _ hn hoff hl => execMailboxWindowWrite_linked hn hoff hl,
   fun n v hn hl => show execMbxStateWrite n v s = _ from onDevIf_next (by simp [hn, hl]),
   fun v hl => show execEvtConsWrite v s = _ from onDevIf_next hl,
   fun v hv hl => show execMsixVectorUnmask v s = _ from onDevIf_next (by simp [hv, hl])⟩

/-! ### The crossbar, BAR2 and the windows (R396, R413 to R418) -/

/-- Bursts that wait at one target are none of them stray. -/
theorem strays_of_waitsAt {t : Nat} {reqs : List XReq} {d : Dev} (h : reqs.all (waitsAt t d) = true) :
    (reqs.filter fun q => decide (q.master < 9 ∧ q.addr % 4 = 0) && (targetOf q.addr).isNone) = [] := by
  refine List.filter_eq_nil_iff.mpr fun q hq => ?_
  have hw := List.all_eq_true.mp h q hq
  have ht : targetOf q.addr = some t := by
    simp only [waitsAt, Bool.and_eq_true, decide_eq_true_eq] at hw
    exact hw.1.2
  simp [ht]

/-- Bursts that wait at one target are granted, or the spent lock there is broken. -/
theorem execCrossbarAccess_waiting {t : Nat} {reqs : List XReq} {s : State} (hm : s.dev.mode ≠ HELD)
    (h : reqs.all (waitsAt t s.dev) = true) :
    execCrossbarAccess t reqs s =
      if lockSpent t s.dev = true then .next (withDev s (breakSpent t reqs s.dev))
      else if reqs = [] then .next s
      else .next (withStore (crossbarAccess t reqs s.hbm s.dev).1 (crossbarAccess t reqs s.hbm s.dev).2 s) := by
  have hid : (reqs.filter fun q => !([] : List XReq).contains q) = reqs := List.filter_eq_self.mpr fun _ _ => rfl
  unfold execCrossbarAccess
  simp only [strays_of_waitsAt h, hid, hm, h, ne_eq, not_false_eq_true, and_self, if_true, List.foldl_nil]
  split
  · rfl
  · split <;> rfl

/-- A burst to addresses of no target is answered by the crossbar itself. -/
theorem execCrossbarAccess_stray {t : Nat} {q : XReq} {s : State} (hm : s.dev.mode ≠ HELD) (hq : q.master < 9)
    (ha : q.addr % 4 = 0) (ht : targetOf q.addr = none) (hl : lockSpent t (strayBurst q s.dev) = false) :
    execCrossbarAccess t [q] s = .next (withDev s (strayBurst q s.dev)) := by
  have hstray : ([q].filter fun q => decide (q.master < 9 ∧ q.addr % 4 = 0) && (targetOf q.addr).isNone) = [q] := by
    simp [hq, ha, ht]
  have hrest : ([q].filter fun r => !([q] : List XReq).contains r) = [] := by simp
  unfold execCrossbarAccess
  simp only [hstray, hrest, hm, ne_eq, not_false_eq_true, List.all_nil, and_self, if_true, List.foldl_cons, List.foldl_nil]
  rw [if_neg (by simp [hl])]
  rfl

theorem execControlWindowAccess_denied {m b len : Nat} {w : Bool} {bytes : List Byte} {s : State} (hm : s.dev.mode ≠ HELD)
    (h9 : m < 9) (hr : reaches m 21 s.dev = false) :
    execControlWindowAccess m w b len bytes s = .next (withDev s
      { accessDenied m w (0xC0000000 + b) s.dev with host.bytes := if w then [] else le len 0, host.completion := 4 }) := by
  unfold execControlWindowAccess
  rw [if_neg (by simp [hm, h9]), if_pos (by rw [hr]; rfl)]
  rfl

/-- Settles O56: the access is denied before it reaches the window (R413). -/
theorem accessDenied_report : Obligations.AccessDenied := fun _ _ _ _ _ _ hm h9 hr => execControlWindowAccess_denied hm h9 hr

theorem execControlWindowAccess_write {m b len : Nat} {bytes : List Byte} {s : State} (hm : s.dev.mode ≠ HELD)
    (h9 : m < 9) (hr : reaches m 21 s.dev = true)
    (hw : windowShows b bytes.length (masterBump m xACCESSES 1 (granted 21 m s.dev)) = true) :
    execControlWindowAccess m true b len bytes s =
      (let d := masterBump m xACCESSES 1 (granted 21 m s.dev)
       let k := windowKey b d
       let d' := (wordsAt k bytes.length).foldl (fun d x => writeWord k bytes.length x.1 x.2 d) d
       .next (withStore { d' with host.bytes := [], host.completion := 0 } (hbmStore k bytes d) s)) := by
  unfold execControlWindowAccess
  rw [if_neg (by simp [hm, h9]), if_neg (by simp [hr])]
  dsimp only
  rw [if_neg (by simp [hw])]
  rfl

theorem execControlWindowAccess_read {m b len : Nat} {bytes : List Byte} {s : State} (hm : s.dev.mode ≠ HELD)
    (h9 : m < 9) (hr : reaches m 21 s.dev = true)
    (hw : windowShows b len (masterBump m xACCESSES 1 (granted 21 m s.dev)) = true) :
    execControlWindowAccess m false b len bytes s =
      (let d := masterBump m xACCESSES 1 (granted 21 m s.dev)
       let r := windowRead s.hbm b len d
       let d' := (wordsAt (windowKey b d) len).foldl (fun d x => passChecker x.1 x.2 d) d
       .next (withDev s { d' with host.bytes := r.2, host.completion := r.1 })) := by
  unfold execControlWindowAccess
  rw [if_neg (by simp [hm, h9]), if_neg (by simp [hr])]
  dsimp only
  rw [if_neg (by simp [hw])]
  rfl

/-- An access through the debug window, of an offset that it has, by whether debug is unlocked. -/
theorem execDebugWindowAccess_linked {w : Bool} {x : Nat} {v : Word} {s : State} (hl : s.dev.host.linkUp = true)
    (hx : x < 0x800000) (h4 : x % 4 = 0) :
    execDebugWindowAccess w x v s = .next (if s.dev.host.debug = true
      then debugAccess w (s.dev.host.winBase * 2 ^ 23 + x) v.toNat s
      else withDev s { s.dev with host.bytes := if w then [] else le 4 0, host.completion := 0 }) := by
  unfold execDebugWindowAccess
  rw [if_neg (by simp [hl, hx, h4])]
  cases s.dev.host.debug <;> rfl

/-- Settles O57, by the two values of DEBUG. -/
theorem debugWindow : Obligations.DebugWindow := by
  intro x v w s hl hx h4
  refine ⟨fun h => ?_, fun h => ?_⟩ <;> refine (execDebugWindowAccess_linked hl hx h4).trans (congrArg _ ?_)
  · exact if_pos h
  · exact if_neg (by simp [h])

/-! ### Direct register writes (R22, R394, R410) -/

section
variable {a : Nat} {v : Word} {s : State} (hl : s.dev.host.linkUp = true)
include hl

theorem execRegisterWrite_msix (h4 : a % 4 = 0) (hlo : 0x8000 ≤ a) (hhi : a < 0x8400) :
    execRegisterWrite a v s = .next (withDev s (msixWrite (a - 0x8000) v s.dev)) := by
  unfold execRegisterWrite
  dsimp only
  rw [if_neg (by simp [hl, h4]; omega), if_pos ⟨hlo, hhi⟩]
  rfl

theorem execRegisterWrite_winBase (hd : s.dev.host.debug = true) :
    execRegisterWrite 0x011020 v s = .next (withDev s { s.dev with host.winBase := v.toNat / 2 ^ 23 }) := by
  unfold execRegisterWrite
  dsimp only
  rw [if_neg (by simp [hl]), if_neg (by omega), if_neg (by simp [hd]), if_pos rfl]
  rfl

theorem execRegisterWrite_ctl (hd : s.dev.host.debug = true) (hm : s.dev.mode = MAINTENANCE) (hlo : 0x1000000 ≤ a)
    (hhi : a < 2 ^ 32) (h4 : a % 4 = 0) : execRegisterWrite a v s = .next (debugAccess true a v.toNat s) := by
  unfold execRegisterWrite
  dsimp only
  rw [if_neg (by simp [hl, h4]; omega), if_neg (by omega), if_neg (by simp [hd]), if_neg (by omega), if_pos ⟨hm, hlo⟩]

end

/-- Settles O17: each access by the law of the meaning that it runs. -/
theorem busAccesses : Obligations.BusAccesses := fun s =>
  ⟨fun _ _ _ hl hr ha => execBar2Access_write hl hr ha,
   fun _ _ _ hl hr ha => execBar2Access_read hl hr ha,
   fun _ _ _ hl hx h4 => execDebugWindowAccess_linked hl hx h4,
   fun a len hl => show execBar0WideAccess a len s = _ from onDevIf_next hl,
   fun _ _ _ _ hm h9 hr hw => execControlWindowAccess_write hm h9 hr hw,
   fun _ _ _ _ hm h9 hr hw => execControlWindowAccess_read hm h9 hr hw,
   fun t reqs hm hw hne hl => (execCrossbarAccess_waiting hm hw).trans (by rw [if_neg (by simp [hl]), if_neg hne]),
   fun t reqs hm hw hl => (execCrossbarAccess_waiting hm hw).trans (if_pos hl),
   fun t q hm hq ha ht hl => execCrossbarAccess_stray hm hq ha ht hl,
   fun t a w ht ha hl => show execLockBreak t a w s = _ from onDevIf_next (by simp [ht, ha, hl]),
   fun a v hl h4 hlo hhi => execRegisterWrite_msix hl h4 hlo hhi,
   fun v hd hl => execRegisterWrite_winBase hl hd,
   fun a v hd hl hm hlo hhi h4 => execRegisterWrite_ctl hl hd hm hlo hhi h4,
   fun code => onDev_next (smbusRead code) s,
   fun ti => onDev_next (jtagSelect ti) s,
   onDev_next (jtagSelect .idcode) s⟩

/-! ### Perby's events (R391, R392, R417, R420) -/

/-- The words of a snapshot whose registers all stand are all there. -/
theorem snapshot_words_some {mem : Mem} {x : Snapshot} {d : Dev} (ha : ∀ a ∈ x.addrs, latched mem a d ≠ none)
    (hw : ∀ ws, x.words = some ws → ∀ w ∈ ws, w ≠ none) :
    ∀ w ∈ x.words.getD (x.addrs.map fun a => latched mem a d), w ≠ none := by
  cases h : x.words with
  | some ws => exact hw ws h
  | none =>
    intro w hm
    obtain ⟨a, hmem, rfl⟩ := List.mem_map.mp hm
    exact ha a hmem

theorem findIdx?_eq_none {α : Type} {p : α → Bool} : ∀ {l : List α}, (∀ x ∈ l, p x = false) → findIdx? p l = none
  | [], _ => rfl
  | a :: l, h => by
    rw [findIdx?, h a List.mem_cons_self, findIdx?_eq_none fun x hx => h x (List.mem_cons_of_mem a hx)]
    rfl

/-- A snapshot all of whose registers stand is answered with their words. -/
theorem snapshotLatch_whole {mem : Mem} {x : Snapshot} {d : Dev}
    (hf : d.host.snaps.find? (fun x => decide (x.t ≤ d.house)) = some x)
    (hw : ∀ w ∈ x.words.getD (x.addrs.map fun a => latched mem a d), w ≠ none) :
    snapshotLatch mem d = (
      let words := x.words.getD (x.addrs.map fun a => latched mem a d)
      coresReload (answer x.mbx 0x0F05 x.flags x.tag
        { payload := le 8 (ns48 x.t) ++ words.flatMap fun w => le 8 (w.getD 0) }
        (useFree { d with host.snaps := d.host.snaps.erase x }))) := by
  have hsome : ∀ w ∈ x.words.getD (x.addrs.map fun a => latched mem a d), w.isNone = false := fun w hm =>
    Option.isNone_eq_false_iff.mpr (Option.isSome_iff_ne_none.mpr (hw w hm))
  have hbad : ((x.addrs.zip (x.words.getD (x.addrs.map fun a => latched mem a d))).filter fun w => w.2.isNone) = [] :=
    List.filter_eq_nil_iff.mpr fun w hm => by simp [hsome w.2 (List.of_mem_zip hm).2]
  unfold snapshotLatch
  rw [hf]
  simp only [hbad, findIdx?_eq_none hsome, List.foldl_nil]
  rfl

/-- Settles O28: the conditions that the statement names are the conjuncts of each event's condition, and a snapshot all of
whose registers stand is answered whole. -/
theorem perbyEvents : Obligations.PerbyEvents := fun s =>
  ⟨fun core hc hup hr => show execWatchdogMiss core s = _ from onDevIf_next (by simp [hc, hup, hr]),
   fun hr => show execHitlessRestartEnd s = _ from onDevIf_next hr,
   fun hr ht => show execRestartTimeout s = _ from onDevIf_next (by simp [hr, ht]),
   fun hd ht => show execDebugUnlockExpiry s = _ from onDevIf_next (by simp [hd, ht]),
   fun x t hc ht => show execDebugChallengeExpiry s = _ from onDevIf_next (by simp [hc, ht]),
   fun x hf ha hw => (onDev_next (snapshotLatch s.hbm) s).trans (by rw [snapshotLatch_whole hf (snapshot_words_some ha hw)])⟩

/-! ### The commands of family 0x0F -/

/-- A taken command that is answered at an instant of its own: its effect, and its mailbox BUSY until then (R420, R503). -/
theorem hostLater_taken {c : CmdSpec} {r : Req} {s : State} (h : Taken c r s) :
    hostLater c 0 r s = withDev s (
      let d := c.apply (argsOf r s) s.dev
      updMbx r.mbx (fun m => { m with state := 1, tag := r.tag, accepted := true })
        { d with
          host.snaps := d.host.snaps.map fun x => if x.mbx = r.mbx then { x with flags := 0 } else x,
          host.asks := d.host.asks.map fun x => if x.mbx = r.mbx then { x with flags := 0 } else x,
          host.rung := d.host.rung.erase r.mbx }) := by
  obtain ⟨hserves, hnone, -⟩ := h
  rw [hostLater, if_pos hserves, hnone]
  rfl

/-- Settles O11: each command's description says whether it reads, answers with what its accesses or its keys give, or has an
effect alone; REG_SNAPSHOT is answered later. -/
theorem controlCommands : Obligations.ControlCommands := fun _ _ =>
  ⟨fun h => congrArg _ (hostCommand_read h rfl rfl rfl rfl rfl),
   fun h => congrArg _ (hostCommand_reply h rfl rfl),
   fun h => congrArg _ (hostCommand_reply h rfl rfl),
   fun h => congrArg _ (hostCommand_reply h rfl rfl),
   fun h => congrArg _ (hostLater_taken h),
   fun h => congrArg _ (hostCommand_read h rfl rfl rfl rfl rfl),
   fun h => congrArg _ (hostCommand_done h rfl rfl rfl rfl),
   fun h => congrArg _ (hostCommand_done h rfl rfl rfl rfl),
   fun h => congrArg _ (hostCommand_reply h rfl rfl),
   fun h => congrArg _ (hostCommand_reply h rfl rfl),
   fun h => congrArg _ (hostCommand_done h rfl rfl rfl rfl)⟩

end Sys2Proof.Machine

/-! Configuration and commits (chapter 12): staged requests, the epoch, the commands of family 0x0B, checks and commits. -/

namespace Sys2Proof.Machine

open Sys2Proof.Safety

/-! ### Staged requests (R402, R423, R425) -/

theorem stage_of_not_open {b op : Nat} {p : List Byte} {d : Dev} (h : (bank b d).state ≠ 1) :
    stage b op p d = ({ status := 0x0006, detail := 0xFB00 + b }, d) := if_pos h

theorem stage_of_full {b op : Nat} {p : List Byte} {d : Dev} (h : (bank b d).state = 1)
    (hr : bankRoom (bank b d).changes (stagedChanges op p) = false) :
    stage b op p d = ({ status := 0x0005, detail := 0xFB10 + b }, d) := by
  unfold stage
  dsimp only
  rw [if_neg (not_not.mpr h), hr]
  rfl

theorem stage_of_room {b op : Nat} {p : List Byte} {d : Dev} (h : (bank b d).state = 1)
    (hr : bankRoom (bank b d).changes (stagedChanges op p) = true) :
    stage b op p d = ({ payload := le 4 (bank b d).changes.length },
      updBank b (fun x => { x with changes := x.changes ++ stagedChanges op p }) d) := by
  unfold stage
  dsimp only
  rw [if_neg (not_not.mpr h), hr]
  rfl

/-- A staged request that no rule refuses is staged, and a lead that stages it mirrors it. -/
theorem stagedReply_eq {b op : Nat} {p : List Byte} {c : CmdSpec} {d : Dev} (hop : famSpec op = some c)
    (hlen : c.len p = true) (hst : c.stageable = true) (hm : d.mode ≠ SAFE) (hr : roleMode d ≠ SHADOW)
    (hplan : roleMode d = LEAD → d.twn.plan = none) (hl : loaderServes d = false)
    (hf : badField (c.fields p) p = none) :
    stagedReply b op p d = ((stage b op p d).1,
      if (stage b op p d).1.status = 0 ∧ mirrorLead d = true
      then sendMirror (mirrorOf (some b) op { payload := p } d.house d) (stage b op p d).2 else (stage b op p d).2) := by
  have hp : ¬ (roleMode d = LEAD ∧ d.twn.plan.isSome = true) := fun h => by simp [hplan h.1] at h
  unfold stagedReply
  simp only [hop, hlen, hst, hm, hr, hl, hf, hp, Bool.not_true, Bool.false_eq_true, or_self, if_false]

theorem execStagedRequest_served {b op : Nat} {q : Req} {s : State} (hb : b < 4) (hs : serves q.mbx s.dev = true) :
    execStagedRequest b op q s = .next (withDev s (answer q.mbx op (0x8000 + b * 2 ^ 13) q.tag
      (stagedReply b op q.payload s.dev).1 (stagedReply b op q.payload s.dev).2)) := by
  rw [execStagedRequest, if_pos hb, hostStaged, if_pos hs]
  rfl

/-- Settles O34: a request that no rule refuses is staged, by the bank's state and its room. -/
theorem stagedRequests : Obligations.StagedRequests := by
  intro b op q s c hb hs hop hlen hst hm hr hplan hl hf
  have hx := execStagedRequest_served (op := op) hb hs
  rw [stagedReply_eq hop hlen hst hm hr hplan hl hf] at hx
  refine ⟨fun h => hx.trans ?_, fun h hroom => hx.trans ?_, fun h hroom => hx.trans ?_⟩
  · rw [stage_of_not_open h]; rfl
  · rw [stage_of_full h hroom]; rfl
  · rw [stage_of_room h hroom]; simp only [true_and]

/-! ### The epoch and the configuration in force (R431, R446) -/

theorem sendTwin_cfg (m : TwinMsg) (d : Dev) : (sendTwin m d).cfg = d.cfg := by
  obtain ⟨_, _, h⟩ := sendTwin_frame m d; rw [h]

/-- Whatever frames are sent on the twin link, the configuration stands. -/
theorem cfg_foldl_sendTwin {α : Type} (g : α → Dev → TwinMsg) : ∀ (l : List α) (d : Dev),
    (l.foldl (fun d x => sendTwin (g x d) d) d).cfg = d.cfg
  | [], _ => rfl
  | x :: l, d => (cfg_foldl_sendTwin g l _).trans (sendTwin_cfg (g x d) d)

theorem sendMirror_cfg (r : MirrorRec) (d : Dev) : (sendMirror r d).cfg = d.cfg := by
  unfold sendMirror
  exact cfg_foldl_sendTwin _ _ _

/-- What an accepted command's booking does to the configuration: the epoch advances for a change, and a stageable command
enters the configuration in force. The mirror leaves both alone. -/
theorem bookAccepted_cfg (c : CmdSpec) (a : Args) (t : Time) (d : Dev) :
    (bookAccepted c a t d).cfg =
      (let d := if c.config = true then bumpEpoch d else d
       if c.stageable = true then recordChange true ⟨c.opcode, a.payload⟩ d else d).cfg := by
  unfold bookAccepted
  exact either_way Dev.cfg (sendMirror_cfg _ _) rfl

/-- Settles O60, by the command's two flags. -/
theorem configurationEpoch : Obligations.ConfigurationEpoch := by
  intro c a t d
  rw [bookAccepted_cfg]
  refine ⟨?_, fun h => ?_⟩
  · cases c.config <;> cases c.stageable <;> simp [bumpEpoch, recordChange, b2n]
  · cases c.config <;> simp [h, bumpEpoch]

/-! ### The commands of family 0x0B -/

/-- Settles O12: each command's description says whether it reads, answers with what it finds or begins, or has an effect
alone. -/
theorem configurationCommands : Obligations.ConfigurationCommands := fun _ _ =>
  ⟨fun h => congrArg _ (hostCommand_done h rfl rfl rfl rfl),
   fun h => congrArg _ (hostCommand_reply h rfl rfl),
   fun h => congrArg _ (hostCommand_reply h rfl rfl),
   fun h => congrArg _ (hostCommand_done h rfl rfl rfl rfl),
   fun h => congrArg _ (hostCommand_done h rfl rfl rfl rfl),
   fun h => congrArg _ (hostCommand_read h rfl rfl rfl rfl rfl),
   fun h => congrArg _ (hostCommand_reply h rfl rfl),
   fun h => congrArg _ (hostCommand_done h rfl rfl rfl rfl),
   fun h => congrArg _ (hostCommand_reply h rfl rfl),
   fun h => congrArg Host.Outcome.next ((hostCommand_reply h rfl rfl).trans (by dsimp only [cmdCfgImageSave, argsOf, atPoint])),
   fun h => congrArg _ (hostCommand_done h rfl rfl rfl rfl),
   fun h => congrArg _ (hostCommand_reply h rfl rfl),
   fun h => congrArg _ (hostCommand_done h rfl rfl rfl rfl),
   fun h => congrArg _ (hostCommand_reply h rfl rfl),
   fun h => congrArg _ (hostCommand_read h rfl rfl rfl rfl rfl)⟩

/-! ### The events of checks and commits (R435 to R440) -/

theorem adventHandover_ready {e : Nat} {d : Dev} (hst : (almEntry e d).state = 2) (hh : (almEntry e d).handed = false)
    (ht : d.house ≤ (almEntry e d).instant - 250 * ms) (hp : perbyServes d = true) :
    adventHandover e d =
      (let x := almEntry e d
       let l := if x.action = 1 then (bank x.arg d).changes else x.built
       let after := (checkOrder l).foldl (fun s y => tryChange y.2 s) d
       let armed := (checkOrder l).map fun y => (⟨commitPoint y.2 x.instant d after, y.2, some e, false⟩ : Waiting)
       updAlm e (fun y => { y with handed := true, built := l })
         (masterWorks 7 { d with cfg.waiting := d.cfg.waiting ++ armed })) := by
  unfold adventHandover
  dsimp only
  rw [if_neg (by simp [hst, hh, hp, not_lt.mpr ht])]

theorem handoverMissed_of_advent {e : Nat} {d : Dev} (hst : (almEntry e d).state = 2) (hh : (almEntry e d).handed = false)
    (ht : (almEntry e d).instant - 250 * ms ≤ d.house) :
    handoverMissed e d = failEntry e { status := 0x0008, epoch := d.cfg.epoch.toNat } d := if_pos ⟨hst, hh, ht⟩

theorem handoverMissed_of_waiting {e : Nat} {d : Dev} (hst : (almEntry e d).state = 1)
    (ht : (almEntry e d).instant - 250 * ms ≤ d.house) :
    handoverMissed e d = failEntry e { status := 0x0008, epoch := d.cfg.epoch.toNat } d := by
  unfold handoverMissed
  dsimp only
  rw [if_neg (by simp [hst]), if_pos ⟨hst, ht⟩]

theorem commitRecord_applied {e : Nat} {d : Dev} (hf : (almOrder d).find? (fun e => (almEntry e d).strobed) = some e)
    (ha : (((almOrder d).filter fun a => decide ((almEntry a d).instant = (almEntry e d).instant)
      && (almEntry a d).handed).all fun a => entryApplied a d) = true) :
    commitRecord d =
      (let t := (almEntry e d).instant
       let group := (almOrder d).filter fun a => decide ((almEntry a d).instant = t) && (almEntry a d).handed
       let counts := group.map fun a => (a, (almEntry a d).built.length)
       let d := group.foldl (fun d a => closeEntry a d) d
       let d := bumpEpoch (cfgBump gCOMMITS { d with
         cfg.lastT := t, cfg.lastEntry := e, cfg.lastChanges := total (counts.map (·.2)) })
       counts.foldl (fun d c => postEntry { code := 0x0802, object := c.1, time := ns48 t,
                                            data := le 4 c.2 ++ le 4 d.cfg.epoch.toNat } d) d) := by
  unfold commitRecord
  rw [hf]
  dsimp only
  rw [if_neg (by rw [ha]; decide)]

theorem commitStrobe_due {e : Nat} {l : List Nat} {d : Dev} (h : strobeDue d = e :: l) :
    commitStrobe d =
      (let t := (almEntry e d).instant
       let group := (strobeDue d).filter fun a => decide ((almEntry a d).instant = t)
       let d := group.foldl (fun d a => strobeTable a (updAlm a (fun y => { y with strobed := true }) d)) d
       settle (applyWaiting (fun w => match w.point with
         | .strobe u => decide (u ≤ t)
         | _ => false) d)) := by
  unfold commitStrobe
  rw [h] <;> rfl

/-- The changes that a reset took from a block, armed again (R440). -/
def rearmed (b : Nat) (d : Dev) : Dev :=
  { d with cfg.waiting := d.cfg.waiting.map fun w => if rearmable b d w then { w with lost := false } else w }

theorem blockRearm_in_time {b : Nat} {d : Dev}
    (h : ((d.cfg.waiting.filter (rearmable b d)).filter fun w => pointPassed w.point d) = []) :
    blockRearm b d = rearmed b d := by
  unfold blockRearm
  dsimp only
  rw [h]
  rfl

theorem blockRearm_late {b : Nat} {w : Waiting} {l : List Waiting} {d : Dev}
    (h : ((d.cfg.waiting.filter (rearmable b d)).filter fun w => pointPassed w.point d) = w :: l) :
    blockRearm b d =
      (let d := postEvent 0x0804 (w.armed.getD 0) (le 1 b) (major 0x0C0 b (cfgBump gLATE_ARMS (rearmed b d)))
       applyWaiting (fun x => (w :: l).any (fun y => decide (y.change = x.change ∧ y.armed = x.armed)) && (match x.point with
         | .strobe t => decide (t ≤ d.house)
         | _ => false)) d) := by
  unfold blockRearm
  dsimp only
  rw [h]
  rfl

/-- Settles O29: each event by the law of what it does where its entry, its instant or its block stands as the statement
names. -/
theorem commitEvents : Obligations.CommitEvents := fun s =>
  ⟨fun b hb hp => show execBankCheckComplete b s = _ from onDevIf_next (by simp [hb, hp]),
   fun e he _ _ _ _ => show execAdventStart e s = _ from onDevIf_next (by simp [he]),
   fun e he hst hh ht hp => show execAdventHandover e s = _ from
     (onDevIf_next (by simp [he])).trans (by rw [adventHandover_ready hst hh ht hp]),
   fun e he hst hh ht => show execAdventHandoverDeadline e s = _ from
     (onDevIf_next (by simp [he])).trans (by rw [handoverMissed_of_advent hst hh ht]),
   fun e he hst ht => show execAdventHandoverDeadline e s = _ from
     (onDevIf_next (by simp [he])).trans (by rw [handoverMissed_of_waiting hst ht]),
   fun _ _ h => (onDev_next commitStrobe s).trans (by rw [commitStrobe_due h] <;> rfl),
   fun _ hf ha => (onDev_next (fun d => commitRecord (settle d)) s).trans (by rw [commitRecord_applied hf ha]),
   fun b _ _ h => (onDev_next (blockRearm b) s).trans (by rw [blockRearm_late h]; rfl),
   fun b h => (onDev_next (blockRearm b) s).trans (by rw [blockRearm_in_time h]; rfl)⟩

end Sys2Proof.Machine

/-! Twin operation (chapter 13). -/

namespace Sys2Proof.Machine

open Sys2Proof.Safety

/-! ### The commands of family 0x0C -/

/-- The messages that the replay buffer of the twin link holds, oldest first. -/
def sentMessages (s : State) : List TwinMsg := s.dev.twn.replay.map (·.msg)

/-- Perby serves the mailboxes of the shadow of a pair, and the twin link is UP. -/
def shadowing : State where
  hbm := []
  pending := []
  dev :=
    { mode := SHADOW
      host.perbyUp := true
      twn.link := 3
      twn.pair := 2
      twn.role := 2 }

/-- TWN_UNPAIR with the disable word of a graceful stop. -/
def unpairGracefully : Req := ⟨0, 0, [0, 0, 0, 0]⟩

theorem taken_unpairGracefully : Taken cmdTwnUnpair unpairGracefully shadowing := by
  unfold Taken
  decide +kernel

/-- The unit leaves with the reason of an unpairing (R472). -/
theorem sentMessages_unpairGracefully :
    sentMessages (hostCommand cmdTwnUnpair 0 unpairGracefully shadowing) = [.leave 1] := by
  decide +kernel

/-- Refutes O13: TWN_UNPAIR sends LEAVE with reason 1, where the statement has it send what DEV_REMOVE sends, LEAVE with
reason 3 (R527). -/
theorem not_twinCommands : ¬ Obligations.TwinCommands := by
  intro h
  obtain ⟨-, -, hunpair, -⟩ := h unpairGracefully shadowing
  have hstated := Host.Outcome.next.inj (hunpair taken_unpairGracefully)
  have hsent := sentMessages_unpairGracefully
  rw [hstated] at hsent
  exact absurd hsent (by decide +kernel)

/-! ### The messages of the twin link (R455 to R478) -/

/-- Settles O30: a frame that the receiver acts on delivers its message, and a message is sent when its interval has passed. -/
theorem twinMessages : Obligations.TwinMessages := fun s =>
  ⟨fun _ _ hf => receiveFrame_taken hf,
   fun _ _ hf => receiveFrame_taken hf,
   fun hup ht => show execHeartbeatSend s = _ from onDevIf_next (by simp [hup, ht]),
   fun _ _ _ _ _ hf => receiveFrame_taken hf,
   fun hup ht => show execTimeSend s = _ from onDevIf_next (by simp [hup, ht]),
   fun _ _ _ _ hf => receiveFrame_taken hf,
   fun _ _ hf => receiveFrame_taken hf,
   fun _ _ hf => receiveFrame_taken hf,
   fun _ _ hf => receiveFrame_taken hf,
   fun _ _ _ hf hp hr => (receiveFrame_taken hf).trans (by rw [if_pos (by simp [hp, hr])]),
   fun _ _ hf hp => (receiveFrame_taken hf).trans (by rw [if_neg hp]),
   fun _ _ _ _ hf => receiveFrame_taken hf,
   fun _ _ hf => receiveFrame_taken hf⟩

/-! ### The events of twin operation (R454 to R478) -/

/-- Settles O31: the conditions that the statement names are the conjuncts of each event's condition. -/
theorem twinEvents : Obligations.TwinEvents := fun s =>
  ⟨fun hup hr ht => show execReplayTimeout s = _ from onDevIf_next (by simp [hup, hr, ht]),
   fun hup ht => show execTwinLinkDown s = _ from onDevIf_next (by simp [hup, ht]),
   fun hb hup hlanes hpeer hr hq => show execTwinLinkUp s = _ from
     onDevIf_next (by simp [hb, hup, hlanes, hpeer, hr, hq]),
   fun pins hb ht => show execClaimAckDecode pins s = _ from onDevIf_next (by simp [hb, ht]),
   fun hs hm t htaken ht => show execClaimAckWindow s = _ from onDevIf_next (by simp [hs, hm, htaken, ht]),
   fun hb ht => show execHeartbeatTimeout s = _ from onDevIf_next (by simp [hb, ht]),
   fun hm ht => show execWitnessJudgement s = _ from onDevIf_next (by simp [hm, ht]),
   fun hp hst t htm ht => show execPairingCommit s = _ from onDevIf_next (by simp [hp, hst, htm, ht]),
   fun hp hst hb t hts ht => show execPairingService s = _ from onDevIf_next (by simp [hp, hst, hb, hts, ht]),
   fun tg p hplan hr ht hbound => by
     change execHandoverBoundary tg s = _
     rw [execHandoverBoundary, onDev_next, hplan]
     exact congrArg _ (congrArg _ (if_pos (by simp [hr, ht, hbound]))),
   fun hv hf t hps ht => show execVigilSettle s = _ from onDevIf_next (by simp [hv, hf, hps, ht])⟩

end Sys2Proof.Machine

/-! Faults, resets and monitors (chapter 14). -/

namespace Sys2Proof.Machine

open Sys2Proof.Safety

/-! ### The first-error latch and the fatal reaction (R487, R489, R493, R498) -/

theorem latch_of_valid {r : Report} {sev : Nat} {d : Dev} (h : d.flt.valid = true) :
    latch r sev d = { d with flt.overflow := d.flt.overflow + 1 } := if_pos h

theorem latch_of_free {r : Report} {sev : Nat} {d : Dev} (h : d.flt.valid = false) :
    latch r sev d = signal 32 { d with
      flt.valid := true
      flt.first := { source := r.src, major := r.major, sev := sev, fixed := !programmable d, flags := reportFlags r d
                     mode := d.mode, code := r.code, time := ns48 d.house, inst := r.inst, further := r.further } } :=
  if_neg (by simp [h])

theorem sendTwin_flt (m : TwinMsg) (d : Dev) : (sendTwin m d).flt = d.flt := by
  obtain ⟨_, _, h⟩ := sendTwin_frame m d; rw [h]

theorem fatalReaction_of_fatal {r : Report} {d : Dev} (h : d.flt.fatal = true ∨ d.mode = SAFE) : fatalReaction r d = d := if_pos h

/-- The device with FATAL set, its wake-up sent, and the twin unit told, before the mode passes to SAFE. -/
def fatalTold (r : Report) (d : Dev) : Dev :=
  let d := signal 32 (masterWorks 6 { d with flt.fatal := true, flt.fatalSrc := r.src })
  if d.twn.pair ≠ 0 then sendTwin (.leave 2) d else d

theorem fatalTold_flt (r : Report) (d : Dev) : (fatalTold r d).flt = { d.flt with fatal := true, fatalSrc := r.src } :=
  either_way Dev.flt ((sendTwin_flt _ _).trans (signal_flt _ _)) (signal_flt _ _)

section
variable {r : Report} {d : Dev} (hf : d.flt.fatal = false) (hm : d.mode ≠ SAFE)
include hf hm

theorem fatalReaction_fires :
    fatalReaction r d =
      postEvent 0x0502 r.src (le 1 (b2n r.major) ++ le 3 0 ++ le 2 r.code ++ le 4 r.inst)
        (setMode SAFE { fatalTold r d with flt.safeHold := true }) :=
  if_neg (by simp [hf, hm])

theorem fatalReaction_mode : (fatalReaction r d).mode = SAFE := by
  rw [fatalReaction_fires hf hm]
  exact (postEntry_mode _ _).trans (setMode_mode _ _)

/-- The reaction sets the safe-hold line, and FATAL with its source; the rest of the fault collector stands. -/
theorem fatalReaction_flt :
    (fatalReaction r d).flt = { d.flt with fatal := true, fatalSrc := r.src, safeHold := true } := by
  rw [fatalReaction_fires hf hm]
  refine ((postEntry_flt _ _).trans (setMode_flt _ _)).trans ?_
  dsimp only
  rw [fatalTold_flt]

end

theorem containedReset_of_held {r : Report} {i : SrcInfo} {d : Dev}
    (h : (i.domain, domainInst r.src r.inst) ∈ d.flt.inReset ∨ (i.domain, domainInst r.src r.inst) ∈ d.flt.quarantine) :
    containedReset r i d = d := by
  unfold containedReset
  rw [if_pos (by simpa using h)]

/-- Settles O58: the latch by VALID, the reaction by FATAL and the mode, and the contained reset by what is held in reset. -/
theorem faultReactions : Obligations.FaultReactions :=
  ⟨fun _ _ _ => ⟨latch_of_valid, fun h => by
      rw [latch_of_free h, signal_flt]
      exact ⟨rfl, rfl, rfl, rfl, rfl, rfl, rfl⟩⟩,
   fun _ _ => ⟨fatalReaction_of_fatal, fun hf hm => by
      rw [fatalReaction_flt hf hm]
      exact ⟨fatalReaction_mode hf hm, rfl, rfl, rfl⟩⟩,
   fun _ _ _ => containedReset_of_held⟩

/-! ### Device resets (R494, R501) -/

theorem deviceReset_flt_of_powerOn (d : Dev) : (deviceReset 1 d).flt = {} := rfl

theorem deviceReset_flt {cause : Nat} (h : cause ≠ 1) (d : Dev) :
    (deviceReset cause d).flt = { prior := d.flt.first, priorFatal := d.flt.fatalSrc } := if_neg h

theorem deviceReset_count {cause : Nat} (h : cause ≠ 1) (d : Dev) : (deviceReset cause d).rst.count = d.rst.count + 1 :=
  if_neg h

/-- No reset keeps the first error in its place. -/
theorem deviceReset_first (cause : Nat) (d : Dev) : (deviceReset cause d).flt.first = {} ∧ (deviceReset cause d).flt.fatal = false := by
  by_cases h : cause = 1
  · rw [h, deviceReset_flt_of_powerOn]; exact ⟨rfl, rfl⟩
  · rw [deviceReset_flt h]; exact ⟨rfl, rfl⟩

/-- Settles O59: what the fault record and the count of resets become hangs on whether the reset is the power-on reset, and
everything else on nothing. -/
theorem deviceReset_survivors : Obligations.DeviceReset := fun cause d =>
  ⟨rfl, rfl, (deviceReset_first cause d).1, (deviceReset_first cause d).2, rfl, rfl, rfl, rfl,
   fun h => ⟨by rw [deviceReset_flt h], by rw [deviceReset_flt h], deviceReset_count h d⟩,
   fun h => by rw [h, deviceReset_flt_of_powerOn]; rfl⟩

/-! ### The commands of family 0x0D -/

/-- Settles O14: each command's description says whether it reads, answers with what it finds, or has an effect alone;
FLT_AUDIT is answered later. -/
theorem faultCommands : Obligations.FaultCommands := fun _ _ =>
  ⟨fun h => congrArg _ (hostCommand_read h rfl rfl rfl rfl rfl),
   fun h => congrArg _ (hostCommand_done h rfl rfl rfl rfl),
   fun h => congrArg _ (hostCommand_done h rfl rfl rfl rfl),
   fun h => congrArg _ (hostCommand_read h rfl rfl rfl rfl rfl),
   fun h => congrArg _ (hostCommand_reply h rfl rfl),
   fun h => congrArg _ (hostCommand_done h rfl rfl rfl rfl),
   fun h => congrArg _ (hostLater_taken h),
   fun h => congrArg _ (hostCommand_reply h rfl rfl),
   fun h => congrArg _ (hostCommand_done h rfl rfl rfl rfl),
   fun h => congrArg _ (hostCommand_done h rfl rfl rfl rfl),
   fun h => congrArg _ (hostCommand_read h rfl rfl rfl rfl rfl),
   fun h => congrArg _ (hostCommand_done h rfl rfl rfl rfl),
   fun h => congrArg _ (hostCommand_read h rfl rfl rfl rfl rfl)⟩

/-! ### The events of faults, resets and monitors (R491 to R506, R555) -/

theorem closeWindow_due {domain inst : Nat} {w : Window} {d : Dev}
    (h : d.flt.windows.find? (fun w => decide (w.domain = domain ∧ w.inst = inst ∧ w.closeAt ≤ d.up)) = some w) :
    closeWindow domain inst d =
      postEvent 0x0504 domain (le 2 inst ++ le 4 w.held) { d with flt.windows := d.flt.windows.erase w } := by
  unfold closeWindow
  rw [h]

/-- The wires are due for a check where none was made, or the last lies 10 ms back (R492). -/
theorem execWireCheck_due {s : State} (hm : s.dev.mode ≠ HELD)
    (ht : ∀ t, s.dev.flt.lastCheck = some t → t + 10 * ms ≤ s.dev.up) :
    execWireCheck s = .next (withDev s (wireCheck s.dev)) := by
  refine onDevIf_next ?_
  cases h : s.dev.flt.lastCheck with
  | none => simp [hm]
  | some t => simp [hm, ht t h]

/-- Settles O32: the conditions that the statement names are the conjuncts of each event's condition; pins and supplies have
none. -/
theorem faultEvents : Obligations.FaultEvents := fun s =>
  ⟨fun r hm => show execFaultReport r s = _ from onDevIf_next (by simp [hm]),
   fun src hm => show execInjectedReport src s = _ from onDevIf_next (by simp [hm]),
   fun hm ht => execWireCheck_due hm ht,
   fun src hm hi t hc ht => show execWireCheckTimeout src s = _ from onDevIf_next (by simp [hm, hi, hc, ht]),
   fun src hm hi => show execFaultWireBroken src s = _ from onDevIf_next (by simp [hm, hi]),
   fun domain inst hd hr => show execDomainResetRelease domain inst s = _ from onDevIf_next (by simp [hd, hr]),
   fun domain inst _ hw => (onDev_next (closeWindow domain inst) s).trans (by rw [closeWindow_due hw]),
   fun i value hi hdue hm => show execMonitorSample i value s = _ from onDevIf_next (by simp [hi, hdue, hm]),
   fun ht => show execThermalTrip s = _ from onDevIf_next ht,
   fun mv => onDev_next (powerOnReset mv) s,
   fun mv => onDev_next (supplyLoss mv) s,
   onDev_next (deviceReset 2) s⟩

end Sys2Proof.Machine

/-! Modes, start-up and firmware update (chapter 15). -/

namespace Sys2Proof.Machine

open Sys2Proof.Safety

/-- Settles O15: each command's description says whether it disables a function, reads, answers with what it finds, or has an
effect alone. -/
theorem deviceCommands : Obligations.DeviceCommands := fun _ _ =>
  ⟨fun h => congrArg _ (hostCommand_disable h rfl rfl rfl rfl),
   fun h => congrArg _ (hostCommand_disable h rfl rfl rfl rfl),
   fun h => congrArg _ (hostCommand_read h rfl rfl rfl rfl rfl),
   fun h => congrArg _ (hostCommand_done h rfl rfl rfl rfl),
   fun h => congrArg _ (hostCommand_done h rfl rfl rfl rfl),
   fun h => congrArg _ (hostCommand_reply h rfl rfl),
   fun h => congrArg _ (hostCommand_reply h rfl rfl),
   fun h => congrArg _ (hostCommand_reply h rfl rfl),
   fun h => congrArg _ (hostCommand_done h rfl rfl rfl rfl),
   fun h => congrArg _ (hostCommand_read h rfl rfl rfl rfl rfl)⟩

/-- Settles O33: the conditions that the statement names are the conjuncts of each event's condition; training and Perby's
start write HBM besides the device. -/
theorem bootEvents : Obligations.BootEvents := fun s =>
  ⟨fun hm => show execResetRelease s = _ from onDevIf_next (by simp [hm]),
   fun c0 c1 hm => show execTrimLoadComplete c0 c1 s = _ from onDevIf_next (by simp [hm]),
   fun hm hr hc => show execLoaderBootRecords s = _ from onDevIf_next (by simp [hm, hr, hc]),
   fun a hm hr hst hl ha => show execLoaderStoreCheck a s = _ from onDevIf_next (by simp [hm, hr, hst, hl, ha]),
   fun _ hm hr ht hdue => if_pos ⟨hm, hr, ht, hdue⟩,
   fun hm ht hl hp => if_pos ⟨hm, ht, hl, hp⟩,
   fun hm => show execHostInterfaceReset s = _ from onDevIf_next (by simp [hm]),
   fun hm hl => show execPcieLinkUp s = _ from onDevIf_next (by simp [hm, hl]),
   fun hu => show execUpdVerifyComplete s = _ from onDevIf_next (by simp [hu]),
   fun ok hu => show execUpdPlaceComplete ok s = _ from onDevIf_next (by simp [hu]),
   fun hu ht hp => show execActivationPrepare s = _ from onDevIf_next (by simp [hu, ht, hp]),
   fun hu ht hp => show execActivationStart s = _ from onDevIf_next (by simp [hu, ht, hp]),
   fun hu => show execActivationComplete s = _ from onDevIf_next (by simp [hu]),
   fun o ok ho hst ht => show execRoveReleasedSliceCalibrated o ok s = _ from onDevIf_next (by simp [ho, hst, ht]),
   fun t hi ht => show execLaneControllerRestartEnd s = _ from onDevIf_next (by simp [hi, ht]),
   fun mac hb hp hm => show execControlPlaneRingFrame mac s = _ from onDevIf_next (by simp [hb, hp, hm]),
   fun n hlo hhi hrx => show execTwinReceiverInvertToggle n s = _ from onDevIf_next (by simp [hlo, hhi, hrx])⟩

/-- Settles O37: every part of the reset state has its reset value by definition. -/
theorem resetState : Obligations.ResetState :=
  ⟨rfl, rfl, rfl, rfl, rfl, rfl, fun _ => rfl, rfl, rfl, rfl, fun _ => rfl, rfl, fun _ => ⟨rfl, rfl⟩⟩

end Sys2Proof.Machine

/-! What every command keeps: it answers a next state with the queue as it was (O36), and HBM too but for the few commands
that write it (O40). Both follow from one case split over the commands. -/

namespace Sys2Proof.Machine

open Sys2Proof.Safety

/-- A meaning that answers a next state with the queue of `s`, and with its memory too unless it writes. -/
def Keeps (writes : Bool) (s : State) (o : Out) : Prop :=
  ∃ t, o = .next t ∧ t.pending = s.pending ∧ (writes = false → t.hbm = s.hbm)

section
variable {writes : Bool} {s t : State}

theorem keeps_next (hp : t.pending = s.pending) (hm : t.hbm = s.hbm) : Keeps writes s (.next t) := ⟨t, rfl, hp, fun _ => hm⟩

theorem keeps_writer (hp : t.pending = s.pending) : Keeps true s (.next t) := ⟨t, rfl, hp, nofun⟩

theorem keeps_self : Keeps writes s (.next s) := keeps_next rfl rfl

theorem keeps_withDev (d : Dev) : Keeps writes s (.next (withDev s d)) := keeps_next rfl rfl

theorem keeps_withStore (d : Dev) (l : List (Nat × Byte)) : Keeps true s (.next (withStore d l s)) := keeps_writer rfl

theorem keeps_ite {c : Prop} [Decidable c] {x y : Out} (hx : Keeps writes s x) (hy : Keeps writes s y) :
    Keeps writes s (if c then x else y) := by
  split
  · exact hx
  · exact hy

end

/-! ### Host commands -/

section
variable (r : Req) (s : State)

theorem keeps_hostCommand {c : CmdSpec} (h : c.store = fun _ _ => []) : Keeps false s (.next (hostCommand c 0 r s)) :=
  keeps_next (hostCommand_pending ..) (hostCommand_hbm h ..)

theorem keeps_hostCommand_storing (c : CmdSpec) : Keeps true s (.next (hostCommand c 0 r s)) :=
  keeps_writer (hostCommand_pending ..)

theorem keeps_hostLater (c : CmdSpec) : Keeps false s (.next (hostLater c 0 r s)) :=
  keeps_next (hostLater_pending ..) (hostLater_hbm ..)

theorem keeps_execStagedRequest (b op : Nat) : Keeps false s (execStagedRequest b op r s) :=
  keeps_ite (keeps_next (hostStaged_pending ..) (hostStaged_hbm ..)) keeps_self

end

/-! ### The commands that write HBM -/

section
variable (s : State)

theorem keeps_execCrossbarAccess (t : Nat) (reqs : List XReq) : Keeps true s (execCrossbarAccess t reqs s) :=
  keeps_ite (keeps_ite (keeps_withDev _) (keeps_withStore _ _)) keeps_self

theorem keeps_execControlWindowAccess (m : Nat) (w : Bool) (b len : Nat) (bytes : List Byte) :
    Keeps true s (execControlWindowAccess m w b len bytes s) :=
  keeps_ite keeps_self <| keeps_ite (keeps_withDev _) <| keeps_ite (keeps_withDev _) <|
    keeps_ite (keeps_withStore _ _) (keeps_withDev _)

theorem keeps_execDebugWindowAccess (w : Bool) (x : Nat) (v : Word) : Keeps true s (execDebugWindowAccess w x v s) :=
  keeps_ite keeps_self <| keeps_ite (keeps_withDev _) (keeps_withStore _ _)

theorem keeps_execRegisterWrite (a : Nat) (v : Word) : Keeps true s (execRegisterWrite a v s) :=
  keeps_ite keeps_self <| keeps_ite (keeps_withDev _) <| keeps_ite keeps_self <| keeps_ite (keeps_withDev _) <|
    keeps_ite (keeps_withStore _ _) keeps_self

theorem keeps_execBar2Access (w : Bool) (a len : Nat) (bytes : List Byte) : Keeps true s (execBar2Access w a len bytes s) :=
  keeps_ite keeps_self <| keeps_ite (keeps_withDev _) <| keeps_ite (keeps_withStore _ _) (keeps_withDev _)

theorem keeps_execRetirementSystemCopyDone : Keeps true s (execRetirementSystemCopyDone s) := by
  unfold execRetirementSystemCopyDone
  split
  · exact keeps_ite (keeps_writer rfl) keeps_self
  · exact keeps_self

theorem keeps_execProducerFrameReady (r : Nat) (fabric : List WordErr) : Keeps true s (execProducerFrameReady r fabric s) := by
  have hp : (recomposeAll s).pending = s.pending := recomposeAll_pending s
  unfold execProducerFrameReady
  dsimp only
  split
  · exact keeps_writer hp
  · exact keeps_ite (keeps_writer hp) (keeps_writer hp)

theorem composePicture_pending (e j q : Nat) (s : State) : (composePicture e j q s).pending = s.pending := rfl

theorem pictureAt_pending (e j q : Nat) (buf : List WordErr) : (pictureAt e j q buf s).pending = s.pending := by
  unfold pictureAt
  dsimp only
  split
  · rw [recompose_pending, composePicture_pending, recompose_pending]
  · exact recompose_pending e s

end

/-! ### Every command -/

/-- Whichever command runs: a host command changes the device, and memory by its own stores; the few commands that reach HBM
otherwise have a law each; and every other command changes the device alone. -/
theorem keeps_exec (i : Instr) (s : State) : Keeps (writesHbm i) s (exec i s) := by
  cases i with
  | timTbConfig _ | timTbEnable _ | timTbDisable _ | timRestep _ | timRead _ | timPortAsymmetry _ | refCandConfig _
  | refSelectManual _ | refSelectAuto _ | refLimits _ | refRealign _ | pulseConfig _ | pulseStop _ | pllBandTable _
  | pllRestore _ | laneOctMode _ | laneEnable _ | laneDisable _ | laneTxEq _ | laneRxEq _ | laneRove _
  | laneStatusRead _ | laneTest _ | laneRestart _ | sdiRxConfig _ | sdiRxDisable _ | sdiMultilink _ | sdiAncFilter _
  | sdiAudioDeembed _ | sdiTxConfig _ | sdiTxDisable _ | sdiAudioEmbed _ | sdiCsSet _ | sdiStatusRead _
  | macPortConfig _ | macPortEnable _ | macPortDisable _ | macQueueConfig _ | macQueueDisable _ | macFilter _
  | macTxFrame _ | macRxFrame _ | macStatusRead _ | flowPortIp _ | flowRxConfig _ | flowRxPath _ | flowRxEnable _
  | flowRxDisable _ | flowRxDelete _ | flowTxConfig _ | flowTxPath _ | flowTxEnable _ | flowTxDisable _ | flowRekey _
  | flowStatusRead _ | memcRingConfig _ | memcRingRead _ | memcAdmitReport _ | memcPcRetire _ | memcErrorConfig _
  | memcScrubConfig _ | memcHolidayConfig _ | memcStatusRead _ | memcWindow _ | routeIngressBind _
  | routeIngressUnbind _ | routeTgConfig _ | routeEgressBind _ | routeEgressUnbind _ | routeAlignGroup _ | routeTake _
  | routeStatusRead _ | cnvConfig _ | cnvEnable _ | cnvDisable _ | cnvSubstitute _ | cnvSpareAuto _ | cnvCoefLoad _
  | cnvLutLoad _ | cnvStatusRead _ | outRasterConfig _ | outGlyphLoad _ | outMarker _ | outPalette _ | outStatusRead _
  | audConfig _ | audDepth _ | audCells _ | audCellsRead _ | audDestEnable _ | audDestDisable _ | aprtAesIn _
  | aprtAesOut _ | aprtTdm _ | aprtWclk _ | aprtDisable _ | audCsRead _ | aprtCsSet _ | audStatusRead _ | mbxNop _
  | regRead _ | xbrStatusRead _ | xbrQos _ | mbxEventConfig _ | dbgChallenge _ | dbgUnlock _ | dbgLock _ | cfgBankOpen _
  | cfgBankSeal _ | cfgBankCheck _ | cfgBankTruncate _ | cfgBankAbandon _ | cfgBankRead _ | cfgSchedule _ | cfgCancel _
  | cfgImageLoad _ | cfgSeasonStore _ | cfgSeasonSwitch _ | cfgSalvoStore _ | cfgSalvoFire _ | cfgStatusRead _
  | twnConfig _ | twnPair _ | twnUnpair _ | twnHandover _ | twnStatusRead _ | twnHealthRead _ | twnEpochSet _
  | fltStatusRead _ | fltClear _ | fltSeverity _ | fltSourceRead _ | fltInject _ | fltWindow _ | rstBlock _
  | rstRelease _ | rstDevice _ | rstStatusRead _ | monConfig _ | monRead _ | devModeRequest _ | devRemove _
  | devStatusRead _ | updBegin _ | updBlock _ | updVerify _ | updPlace _ | updActivate _ | updCancel _ | updStatusRead _ => exact keeps_hostCommand _ s rfl
  | cfgImageSave r => exact keeps_hostCommand_storing r s _
  | regWrite r => exact keeps_hostCommand_storing r s _
  | regRmw r => exact keeps_hostCommand_storing r s _
  | regSnapshot r => exact keeps_hostLater r s _
  | fltAudit r => exact keeps_hostLater r s _
  | stagedRequest b op r => exact keeps_execStagedRequest r s b op
  | mailboxRequestAccept n => exact keeps_ite (keeps_writer (acceptRequest_pending n s)) keeps_self
  | crossbarAccess t reqs => exact keeps_execCrossbarAccess s t reqs
  | controlWindowAccess m w b len bytes => exact keeps_execControlWindowAccess s m w b len bytes
  | debugWindowAccess w x v => exact keeps_execDebugWindowAccess s w x v
  | registerWrite a v => exact keeps_execRegisterWrite s a v
  | bar2Access w a len bytes => exact keeps_execBar2Access s w a len bytes
  | hbmTrainingComplete failed => exact keeps_ite (keeps_writer rfl) keeps_self
  | perbyStart => exact keeps_ite (keeps_writer rfl) keeps_self
  | retirementSystemCopyDone => exact keeps_execRetirementSystemCopyDone s
  | producerFrameReady r fabric => exact keeps_execProducerFrameReady s r fabric
  | converterPictureStart e j q buf => exact keeps_ite (keeps_writer (pictureAt_pending s e j q buf)) keeps_self
  | burstComplete k errs fabric => exact keeps_ite (keeps_writer (recomposeAll_pending _)) keeps_self
  | _ => exact keeps_withDev _

/-- Settles O36: the next state and its queue, of what every command keeps. -/
theorem execCompletes : Obligations.ExecCompletes := fun i s =>
  have ⟨t, hnext, hqueue, _⟩ := keeps_exec i s
  ⟨t, hnext, hqueue⟩

/-- Settles O40: the memory, of what every command keeps. -/
theorem hbmFrame : Obligations.HbmFrame := fun i s _ hw ht => by
  obtain ⟨u, hnext, -, hmem⟩ := keeps_exec i s
  cases hnext.symm.trans ht
  exact hmem hw

end Sys2Proof.Machine
